-- ==== Sys2Proof/Word.lean ====
section
/-!
DEFINITION. The words of the GZR-9612 and the sparse table that every large store of the part is held in.
-/

namespace Sys2Proof

/-- One byte (00 R9). -/
abbrev Byte := BitVec 8
/-- A V-register lane, an operand-cache word, a tally, a 32-bit register. -/
abbrev W32 := BitVec 32
/-- A scalar register S, a 64-bit register. -/
abbrev W64 := BitVec 64
/-- An address register A (06 R180). -/
abbrev W48 := BitVec 48
/-- A beam entry's value, an instruction word (03 R82, 06 R175). -/
abbrev W128 := BitVec 128

/-- A sparse table from numbers to values. It lists its entries in strictly rising order of key and lists no entry
that holds the table's default value, so equal tables are equal data. A byte memory is an `SMap Byte`, which is a
list of `Host.Cell`. -/
abbrev SMap (β : Type) := List (Nat × β)

end Sys2Proof
end

