-- ==== Sys2Proof/Syntax.lean ====
section
/-!
DEFINITION. The commands of the GZR-9612: one constructor for each row of spec/opcode_table.json, with what comes from
outside the part as its operands.
-/

namespace Sys2Proof

/-! ### Names -/

/-- The six engines of a core, in the order of their codes (02 R56, R54). -/
inductive Engine where
  | seq | mxe | vxe | dma0 | dma1 | mse
  deriving DecidableEq, Repr

/-- The two stream engines (09). -/
inductive Dma where
  | inbound   -- DMA0
  | outbound  -- DMA1
  deriving DecidableEq, Repr

/-- Scopes (00 R21, codes of 06 R185). -/
inductive Scope where
  | eng | core | dev | fab
  deriving DecidableEq, Repr

/-- FENCE kinds (06 R186). -/
inductive FenceKind where
  | release | acquire | full
  deriving DecidableEq, Repr

/-- Status codes of completion records and of answers (14 R451). -/
inductive Status where
  | ok | delayed | eparam | estate | erefused | eprogram | eauth | efault | etimeout | epoison
  | eresetTarget | epeerGone | eaperture | eslip | einternal
  deriving DecidableEq, Repr

/-- A line read that meets a stored error: its place in the word's read order, and whether the error is
uncorrectable (05 R149, R150); of a write that merges with stored words, `word` is 0 for the first of them and 1 for the
last (R151). The stored errors themselves are nature's, so the command that reads them names them. -/
structure EccObs where
  line : Nat
  ue   : Bool
  word : Nat
  deriving DecidableEq, Repr

/-- What a command names that reads buffers in HBM: the number of the executing command, of the ring or of the digest record, and the
stored errors that its reads meet (08 R246), the burst counted from the first read. -/
structure Reads where
  no  : Nat
  ecc : List EccObs
  deriving DecidableEq, Repr

/-- A bead or rod that computes wrongly (03 R101, R102): the vector, the logical column, the block (PATH 0) or bead row
(PATH 1), and the residue the beam observes. -/
structure RodError where
  vector  : Nat
  column  : Nat
  place   : Nat
  observe : BitVec 8
  deriving DecidableEq, Repr

/-! ### Engine operations (06, 07) -/

/-- The guard of a word (06 R178). -/
structure Guard where
  inverted : Bool
  p        : BitVec 3
  deriving DecidableEq, Repr

/-- Where and when a word issues: the logical core, the ccyc of its island that pass between the core's previous
command and this one, the word's index in its engine's stream (06 R167), and its guard. -/
structure Issue where
  core  : Nat
  delta : Nat
  word  : Nat
  guard : Option Guard
  deriving DecidableEq, Repr

/-- A tally operand (06 R185, 07 R207). -/
structure TallyOp where
  form : Bool
  idx  : BitVec 7
  lhi  : Bool
  deriving DecidableEq, Repr

/-- The value n of a tally operation (06 R186). -/
inductive NSrc where
  | imm (n : W32)
  | reg (r : BitVec 6)
  deriving DecidableEq, Repr

/-- The fields of the arithmetic operations (06 R188). -/
structure Arith where
  d   : BitVec 6
  a   : BitVec 6
  b   : BitVec 6
  i   : Bool
  imm : W64
  deriving DecidableEq, Repr

/-- The fields of the memory operations (06 R189). -/
structure MemOp where
  d    : BitVec 6
  a    : BitVec 6
  b    : BitVec 6
  size : BitVec 2
  sx   : Bool
  rl   : Bool
  off  : W32
  deriving DecidableEq, Repr

/-- A scratchpad line operand (06 R183). -/
structure LineOp where
  aen  : Bool
  areg : BitVec 6
  line : BitVec 17
  deriving DecidableEq, Repr

/-- An operand specifier of VOP (06 R194). -/
structure Spec where
  kind : BitVec 2
  idx  : BitVec 9
  deriving DecidableEq, Repr

/-- The fields of VOP (06 R194). -/
structure VopFields where
  chain : BitVec 10
  vd    : BitVec 6
  srca  : Spec
  opx   : Spec
  opy   : Spec
  opz   : Spec
  sd    : BitVec 6
  sde   : Bool
  sel   : BitVec 3
  half  : Bool
  sx    : BitVec 6
  deriving DecidableEq, Repr

/-- The destination of a strided read: a V register or an operand-cache entry (05 R145). -/
inductive VDest where
  | v  (r : BitVec 6)
  | oc (e : BitVec 9)
  deriving DecidableEq, Repr

/-- The fields of DATOM (06 R198). -/
structure DatomFields where
  sa    : BitVec 6
  sb    : BitVec 6
  sc    : BitVec 6
  w8    : Bool
  aop   : BitVec 3
  sgn   : Bool
  scope : Scope
  rline : BitVec 17
  ten   : Bool
  tally : BitVec 7
  deriving DecidableEq, Repr

/-- TEN and TALLY of the operations that raise a tally on completion (06 R198, R200). -/
structure Raise where
  ten   : Bool
  tally : BitVec 7
  deriving DecidableEq, Repr

/-! ### Fabric packets and link words (13 R381, R386) -/

/-- A packet header (13 R381). The CRC is that which stands in the header. -/
structure Header where
  addr    : W64
  type    : BitVec 5
  vc      : BitVec 2
  poison  : Bool
  len     : BitVec 9
  srcDev  : BitVec 12
  srcAg   : BitVec 8
  circ    : BitVec 12
  tsen    : Bool
  tslot   : BitVec 9
  hops    : BitVec 4
  tag     : BitVec 16
  status  : BitVec 8
  aop     : BitVec 3
  w8      : Bool
  sgn     : Bool
  depart  : W32
  budget  : BitVec 16
  seq     : BitVec 12
  crc     : W32
  deriving DecidableEq, Repr

/-- What a command takes of a 64-bit host access to BAR0 over two 32-bit registers, which hardware may update in between (00 R15): the whole
access, or one of its halves. -/
inductive Half where
  | whole | low | high
  deriving DecidableEq, Repr

/-- The form of a host access to BAR0: its width in bytes, whether the events since the hubs' clock last ticked fall in its hcyc (00 R13),
and what it takes of a 64-bit access (R15). -/
structure Access0 where
  width : Nat
  same  : Bool
  half  : Half
  deriving DecidableEq, Repr

/-- A value that clears bits where it holds 1, and whether the events since the hubs' clock last ticked fall in its hcyc (00 R13). -/
structure Clearing where
  v    : W32
  same : Bool
  deriving DecidableEq, Repr

/-- The lanes of a port after training: those that work, and those that have failed (13 R403). -/
structure Lanes where
  good   : BitVec 5
  failed : BitVec 5
  deriving DecidableEq, Repr

/-- What link words measure of a link: its delay, and its asymmetry in ticks, the delay toward this device less that away from it (12 R367,
13 R378). -/
structure LinkTimes where
  dly  : Nat
  asym : Int
  deriving DecidableEq, Repr

/-- A packet as a port receives it: the port, the header, the payload bytes, whether its GCM tag is good on an encrypted link (13
R406), and whether it ends with a stomp code (R387). -/
structure PktIn where
  port  : Nat
  hdr   : Header
  data  : List Byte
  tagOk : Bool
  stomp : Bool
  deriving DecidableEq, Repr

/-- A link word (13 R386): the acknowledged sequence, a NAK, credits returned for each VC, and the sender's stamps of 12 R367: the TBT
at which its last time packet left, and that at which the partner's came. -/
structure LinkWord where
  ackSeq  : BitVec 12
  nak     : Option (BitVec 12)
  credits : List Nat
  stamps  : Option (Nat × Nat)
  deriving DecidableEq, Repr

/-- What a MGMT packet carries (13 R411, R413, R391, R395). -/
inductive MgmtBody where
  | heartbeat (epoch : BitVec 16) (master : BitVec 12) (serial : List Byte)
  | assignId (devId : BitVec 12) (epoch : BitVec 16) (master : BitVec 12)
  | routes (entries : List (Nat × W32))
  | circuit (id : Nat) (ctrl : W64) (budget : BitVec 16) (slots : List Nat)
  | removeCircuit (id : Nat)
  | timeUpstream (port : BitVec 4) (device : BitVec 12) (depth : BitVec 4)
  | step (atTbt : Nat) (frames : Int)
  deriving DecidableEq, Repr

/-- What a TIME packet is: the upstream device's message, with the master's LOCKED bit, or the downstream device's answer to it (12 R366,
R367). The stamps go by link words (13 R386). -/
inductive TimeBody where
  | request (locked : Bool)
  | answer
  deriving DecidableEq, Repr

/-- What an AUTH packet carries (13 R405, R406). -/
inductive AuthBody where
  | chain (cert : List Byte) (port : BitVec 4)
  | nonce (n : List Byte)
  | signature (sig : List Byte)
  | share (enc : List Byte)
  deriving DecidableEq, Repr

/-! ### Commands of the host (14 R435) -/

/-- A 64-byte command packet (14 R435). -/
structure Packet where
  opc    : BitVec 8
  cflags : BitVec 8
  tag    : BitVec 16
  job    : BitVec 8
  p0     : W64
  p1     : W64
  p2     : W64
  p3     : W64
  p4     : W64
  p5     : W64
  p6     : W64
  deriving DecidableEq, Repr

/-! ### Clocks, management, pins -/

/-- The references of 12 R370. -/
inductive Reference where
  | sysclk | fref (n : Fin 4) | cxlclk | pps | upstream
  deriving DecidableEq, Repr

/-- The rails that a brown-out detector watches (18 R535). -/
inductive WatchedRail where
  | vddCore | vddHub | vddMss
  deriving DecidableEq, Repr

/-- The transports of a management message (17 R504). -/
inductive Transport where
  | i3c | mailbox | command (id : Nat) | doe
  deriving DecidableEq, Repr

/-- One sample of the sensors and rails (17 R508, R510): a reading in °C of each sensor that answers; millivolts,
tenths of an ampere and tenths of a watt of each rail, and whether it is outside its operating range; and the averages
over 1 ms and 10 ms in whole watts. -/
structure Sample where
  temps  : List (Option Int)
  rails  : List (Nat × Nat × Nat × Bool)
  avg1   : Nat
  avg10  : Nat
  deriving DecidableEq, Repr

/-- What nature decides in a compute reset (16 R495, R499): the calibrated transits of the C-die crossings that are
not the default, islands whose calibration fails, cores whose scratchpad fails, whether a PL or hub crossing fails,
and the microseconds the reset took. -/
structure ResetRun where
  xlat     : List (Nat × Nat)
  badCores : List Nat
  badPlane : Bool
  micros   : Nat
  deriving DecidableEq, Repr

/-- The pins that a platform drives (18 R537, R540). -/
structure PinLevels where
  pwrok     : Bool
  perstN    : Bool
  masterSel : BitVec 2
  bootMode  : BitVec 2
  deriving DecidableEq, Repr

/-- The commands: one constructor for each row of spec/opcode_table.json. -/
inductive Instr where
  -- operations of any engine (06 R186)
  | skip (x : Issue) (e : Engine)
  | tinc (x : Issue) (e : Engine) (t : TallyOp) (n : NSrc)
  | tdec (x : Issue) (e : Engine) (t : TallyOp) (n : NSrc)
  | tset (x : Issue) (t : TallyOp) (n : NSrc)
  | twait (x : Issue) (e : Engine) (t : TallyOp) (n : W32) (tmo : W32)
  | fence (x : Issue) (e : Engine) (k : FenceKind) (s : Scope)
  -- SEQ arithmetic (06 R188)
  | add (x : Issue) (f : Arith)
  | sub (x : Issue) (f : Arith)
  | and (x : Issue) (f : Arith)
  | or (x : Issue) (f : Arith)
  | xor (x : Issue) (f : Arith)
  | shl (x : Issue) (f : Arith)
  | shr (x : Issue) (f : Arith)
  | sar (x : Issue) (f : Arith)
  | mul (x : Issue) (f : Arith)
  | movi (x : Issue) (d : BitVec 6) (imm : W64)
  | cmp (x : Issue) (f : Arith) (fn : BitVec 5)
  | plog (x : Issue) (d a b : BitVec 6) (fn : BitVec 5)
  | sel (x : Issue) (f : Arith) (ps : BitVec 3)
  | aadd (x : Issue) (f : Arith)
  | amov (x : Issue) (d a : BitVec 6)
  | sfroma (x : Issue) (d a : BitVec 6)
  | movia (x : Issue) (d : BitVec 6) (imm : W64)
  | rdsys (x : Issue) (d : BitVec 6) (imm : W64)
  -- SEQ memory and branch (06 R189-R191)
  | ld (x : Issue) (f : MemOp) (ecc : List EccObs)
  | st (x : Issue) (f : MemOp) (ecc : List EccObs)
  | lda (x : Issue) (f : MemOp) (ecc : List EccObs)
  | sta (x : Issue) (f : MemOp) (ecc : List EccObs)
  | atom (x : Issue) (f : MemOp) (aop : BitVec 3) (sgn : Bool) (c : BitVec 6) (ecc : List EccObs)
  | br (x : Issue) (cond : BitVec 2) (sr : BitVec 6) (pr : BitVec 3) (tgtT tgtF : BitVec 16)
  -- MXE (03, 06 R192, 07 R205)
  | mldw (x : Issue) (l : LineOp) (fmt : BitVec 4) (mx : Bool) (sline : BitVec 17) (ecc : List EccObs)
  | mmul (x : Issue) (l : LineOp) (fmt : BitVec 4) (mx : Bool) (sline : BitVec 17) (nm1 : BitVec 9) (row : BitVec 9)
      (acc : Bool) (ecc : List EccObs) (rods : List RodError)
  | mclr (x : Issue) (tile : BitVec 3)
  | manc (x : Issue) (tile : BitVec 3) (anchor : BitVec 12)
  | mout (x : Issue) (row : BitVec 9) (vd : BitVec 6) (ofmt : BitVec 2) (half : Bool)
  | mflg (x : Issue) (tile : BitVec 3) (vd : BitVec 6)
  | mraw (x : Issue) (l : LineOp) (sa : BitVec 12) (row : BitVec 9) (ecc : List EccObs)
  -- VXE (04, 06 R194-R197)
  | vop (x : Issue) (f : VopFields)
  | vld (x : Issue) (v : BitVec 6) (l : LineOp) (col : Bool) (rl : Bool) (ecc : List EccObs)
  | vldStrided (x : Issue) (d : VDest) (l : LineOp) (stride : BitVec 14) (w : BitVec 2) (b0 : BitVec 2) (rl : Bool)
      (ecc : List EccObs)
  | vldTranspose (x : Issue) (v : BitVec 6) (l : LineOp) (tw : BitVec 2) (tshape : Bool) (rl : Bool) (ecc : List EccObs)
  | vst (x : Issue) (v : BitVec 6) (l : LineOp) (col : Bool)
  | ocfill (x : Issue) (entry : BitVec 9) (l : LineOp) (col : Bool) (rl : Bool) (ecc : List EccObs)
  | ocput (x : Issue) (v : BitVec 6) (entry : BitVec 9)
  | lutld (x : Issue) (slo shi : BitVec 6) (entry : BitVec 9)
  -- DMA (06 R198)
  | dload (x : Issue) (e : Dma) (slot : BitVec 4) (tmpl : BitVec 16)
  | dbase (x : Issue) (e : Dma) (slot : BitVec 4) (dst : Bool) (sr : BitVec 6) (add : Bool)
  | dgo (x : Issue) (e : Dma) (slot : BitVec 4) (r : Raise) (inc : W32)
  | datom (x : Issue) (f : DatomFields)
  -- MSE (06 R200, 07 R209)
  | qopen (x : Issue) (ctx : BitVec 12) (cls : BitVec 2) (r : Raise) (device : BitVec 12) (qid : BitVec 20)
  | qclose (x : Issue) (ctx : BitVec 12) (r : Raise)
  | qsend (x : Issue) (ctx : BitVec 12) (r : Raise) (nwm1 : BitVec 3) (sbase : BitVec 6) (mc : Bool)
  | qcsend (x : Issue) (ctx : BitVec 12) (r : Raise) (vk : BitVec 2) (sv sk : BitVec 6)
  -- events of a core: the logical core and the ccyc since its previous command
  | holdEnd (c delta : Nat)
  | waitTimeout (c delta : Nat) (e : Engine)
  | blockBoundary (c delta : Nat)
  | serviceBlockEnd (c delta : Nat)
  | handlerDispatch (c delta : Nat)
  | handlerBudgetExpiry (c delta : Nat)
  | frameTick (job : Nat)
  | startAtTbt (job : Nat)
  | runRetire (job run : Nat)
  | dmaRequestIssue (c delta : Nat) (e : Dma) (slot : BitVec 4) (ecc : List EccObs)
  | dmaRequestComplete (c delta : Nat) (txn : Nat)
  | fillComplete (c delta : Nat) (e : Dma) (slot : BitVec 4)
  | landingArrival (c delta : Nat) (pkt : Nat)
  | landingPlacement (c delta : Nat) (ecc : List EccObs)
  | remoteReadServe (c delta : Nat) (ecc : List EccObs)
  | landingAtomic (c delta : Nat) (ecc : List EccObs)
  -- HBM and the memory calendar (08)
  | schedRequestArrival (req : Nat)
  | elasticRequestArrival (req : Nat)
  | runCutoff (pc run : Nat) (ecc : List EccObs)
  | hbmReadEgress (pc slot : Nat)
  | hbmWriteAck (req : Nat)
  | hbmUePoisonStore (pc : Nat)
  | linkRetry (pkt : Nat)
  | linkSlip (pkt : Nat)
  | calendarFrameBoundary
  | patrolScrub (hub granule : Nat)
  -- queues (11)
  | placerOpenRequest (req : Nat)
  | placerSend (req : Nat)
  | placerClose (req : Nat)
  | queueAnswer (c delta : Nat) (req : Nat)
  | groupAssign (qid : Nat)
  | combiningContribution (req : Nat)
  | combiningTimeout (qid key : Nat)
  -- clocks and time (12)
  | droopNotice (island delta : Nat)
  | dieEventGrant (delta : Nat)
  | emergencyStretch (island delta : Nat)
  | crossingSlip (c : Nat) (toCore : Bool) (words : Nat) (pkts : List Nat)
  | timebaseCopyCorrection (island : Nat)
  | ppsInEdge
  | timeMessageSend (port : Nat)
  | ppsOutRise
  | ppsOutFall
  | referenceLoss (r : Reference)
  | holdoverEnd (r : Reference)
  | timebaseStep
  | opStopBegin
  | opStopResume (ticks : Nat)
  | setOpTimeout
  -- fabric ports (13)
  | portTrainingDone (port : Nat) (lanes : Lanes) (link : LinkTimes)
  | portAuthDone (port : Nat) (trusted signed enc : Bool) (serial : List Byte)
  | portJoinDone (port : Nat) (partner : BitVec 12) (partnerPort : BitVec 4) (serial : List Byte)
      (routes : List (Nat × W32))
  | portStateTimeout (port : Nat)
  | partnerLost (port : Nat)
  | fecWindow (port : Nat) (errors : List Nat)
  | laneRetrainDone (port : Nat)
  | creditTimeout (port vc : Nat)
  | apertureDropWindow (port : Nat)
  | pktWrite (p : PktIn)
  | pktRead (p : PktIn)
  | pktRresp (p : PktIn)
  | pktAtomic (p : PktIn)
  | pktAresp (p : PktIn)
  | pktAck (p : PktIn)
  | pktQopen (p : PktIn)
  | pktQsend (p : PktIn)
  | pktQcsend (p : PktIn)
  | pktQclose (p : PktIn)
  | pktQresp (p : PktIn)
  | pktTime (p : PktIn) (b : TimeBody)
  | pktMgmt (p : PktIn) (b : MgmtBody)
  | pktAuth (p : PktIn) (b : AuthBody)
  | pktTransit (p : PktIn)
  | linkWord (port : Nat) (w : LinkWord)
  | linkWordSend (port : Nat)
  | fabricSlot (port : Nat)
  | fabricFrameBoundary
  | heartbeatSend
  | masterTakeover
  -- rings and commands (14)
  | doorbellSqTail (ring : Nat) (v : W32)
  | doorbellCqHead (ring : Nat) (v : W32)
  | commandAdmission (ring : Reads) (p : Packet)
  | commandExecute
  | bulkDeferralExpiry (id : Nat)
  | completionRecordWrite (ring : Nat)
  | ringEnable (ring : Nat) (v : W32)
  | ringDisable (ring : Nat) (v : W32)
  | ringDeferWrite (ring : Nat) (v : W32)
  | biasFlipGo (v : W32)
  | biasFlipDone
  | hdmCommit (n : Bool) (base size : Nat)
  | bar2SelWrite (v : W32)
  | hostCxlMemRead (hpa len : Nat)
  | hostCxlMemWrite (hpa : Nat) (data : List Byte) (poison : Bool)
  | bar2Read (off len : Nat)
  | bar2Write (off : Nat) (data : List Byte) (poison : Bool)
  | hostLinkTrained (width rate : Nat) (cxl : Bool)
  | hostLinkReset
  -- the command set (14 R446): the identity of the executing command, with what its reads meet, and the buffers that it reads
  | load (id : Reads) (image bindings placement : List Byte)
  | unload (id : Nat)
  | reserve (id : Reads) (entries : List Byte)
  | arm (id : Reads)
  | start (id : Nat)
  | startPeriodic (id : Nat)
  | stop (id : Nat)
  | drain (id : Nat)
  | openChannel (id : Reads) (image : List Byte)
  | closeChannel (id : Nat)
  | setCircuits (id : Reads) (entries : List Byte) (later : List (List Nat))
  | setApertures (id : Reads) (table : List Byte)
  | setOp (id : Nat)
  | query (id : Nat)
  | faults (id : Nat)
  | captureTake (id : Nat)
  | captureRead (id : Reads)
  | computeReset (id : Nat) (upTo : Nat) (r : ResetRun)
  | portReset (id : Nat)
  | portHoldDown (id : Nat)
  | portWriteCfg (id : Nat)
  | loadClusterMap (id : Reads) (map : List Byte)
  | timeCtrlStep (id : Nat) (clusterBusy : Bool)
  | timeCtrlRead (id : Nat)
  | mss (id : Reads) (msg : List Byte)
  -- faults and resets (16)
  | runHalt (job : Nat)
  | haltQuiesced (job : Nat)
  | watchdogNoProgress (c delta : Nat)
  | runDeadline (job run : Nat)
  | quiesceTimeout (c : Nat)
  | captureDone
  | autoReset (upTo : Nat) (r : ResetRun)
  -- management (17)
  | sensorSample (s : Sample)
  | throttleReturn
  | pcapApply
  | ledgerFlush
  | remapFlashCopy
  | hashComplete (idx : Reads)
  | digestSign (idx : Nat)
  | mbGo (v : W32)
  | mgPcapWrite (v : W32)
  | mgAlertClear (v : Clearing)
  | capLockRelease (v : Clearing)
  | wdLimitWrite (v : W32)
  | tmTbtLowRead
  | rcRegisterRead (off : Nat) (x : Access0)
  | registerWrite (off : Nat) (x : Access0) (v : W64)
  | getStatus (t : Transport)
  | ledgerRead (t : Transport) (first count : Nat)
  | mssRestart (own : Bool) (t : Transport) (done : Bool)
  | setRoots (t : Transport) (secured : Bool) (certs : List (List Byte))
  | clearAlert (t : Transport) (mask : Clearing)
  | getVersion (t : Transport)
  | getCapabilities (t : Transport)
  | negotiateAlgorithms (t : Transport) (rsa4096 sha512 ffdhe4096 aes256 : Bool)
  | getDigests (t : Transport)
  | getCertificate (t : Transport) (slot off len : Nat)
  | challenge (t : Transport) (slot : Nat) (nonce : List Byte)
  | getMeasurements (t : Transport) (indices : List Nat)
  | keyExchange (t : Transport) (exchange nonce : List Byte)
  | finish (t : Transport) (verify : List Byte)
  | endSession (t : Transport)
  | pldmBase (t : Transport) (cmd : Nat) (body : List Byte)
  | pldmSensorRead (t : Transport) (sensor : Nat)
  | pldmFirmwareUpdate (t : Transport) (image : List Byte) (sig : List Byte) (powerLost : Bool)
  | mctpUnsupported (t : Transport) (msgType code : Nat)
  -- package and pins (18)
  | packageReset (p : PinLevels)
  | boot (p : PinLevels) (refPresent : Bool) (xlat : List (Nat × Nat))
  | bootImageVerified (image : List Byte) (sig : List Byte) (micros : Nat)
  | brownOut (r : WatchedRail)
  | thermtrip (sensor : Nat)
  | jtagExtest (levels : List (Nat × Bool))
  | drainTimeout
  | laneLossOfLock (port lane : Nat)
  | uncorrectableCodeword (port : Nat)
  | snoop (hpa : Nat)
  | endpointIdAssignment (t : Transport) (eid : BitVec 8)
  | ideKeyManagement (t : Transport) (secured : Bool) (key : List Byte)
  deriving DecidableEq, Repr

end Sys2Proof
end

