-- ==== Sys2Proof/Decode.lean ====
section
/-!
DEFINITION. Words of commands. The rows of spec/opcode_table.json give no bits (the part takes its commands from outside, and
the 128-bit words of its engines are the image's, read by LOAD: Machine/Kvi.lean), so no word spells a command.
-/

namespace Sys2Proof

/-- The command that a word spells by the bits of the opcode table: none. -/
def decodeTableWord (_nbits _w : Nat) : Option Instr := none

end Sys2Proof
end

