-- ==== Sys2Proof/Config.lean ====
section
/-!
DEFINITION. What an implementation fixes, and the free values: constants without a body, so that nothing can be proved
of what they are. A free value that the spec calls unpredictable at one instant is `free… n`, where `n` is the counter
`freeCtr` of State; one that depends only on its operands is a function of them.
-/

namespace Sys2Proof.Config

/-! ### Free values by counter (00 R16; notes/assumptions/2.md) -/

/-- A free 32-bit lane or register half. -/
opaque free32 : Nat → W32
/-- A free 64-bit value. -/
opaque free64 : Nat → W64
/-- A free bit. -/
opaque freeBit : Nat → Bool
/-- A free byte. -/
opaque freeByte : Nat → Nat → Byte
/-- Free bits of 128 (a beam entry). -/
opaque free128 : Nat → W128
/-- A free line. -/
opaque freeLine : Nat → BitVec 2048

/-! ### Values the spec does not state, as functions of the operands -/

/-- EXP of a finite number whose product with log2 e overflows (04 R121). -/
opaque expEnd : W32 → W32
/-- The skew, in ticks, of an island's timebase copy against the H0 counter; at most 8 either way is used (12 R364). -/
opaque copySkew : Nat → Nat → Nat

/-- The ccyc, 1 to 3 (taken modulo 3, plus 1), by which a die event reaches an island (12 R352): of the island and the
number of the event. -/
opaque eventDelay : Nat → Nat → Nat
/-- The rate, at most 20,000 ppb (taken modulo 20,001), at which steering removes an offset (12 R366, R367). -/
opaque steerPpb : Int → Nat

/-! ### What firmware and vendors fix -/

/-- Bytes of native image that one word of an image translates to (02 R62, 06 R203: the translator's). -/
opaque nativeWordBytes : W128 → Nat
/-- The native image of a core image (07 R218), from the bytes of the patched image. -/
opaque nativeImage : List Byte → Nat → List Byte
/-- SHA-512/256 (15 R475). -/
opaque sha512_256 : List Byte → List Byte
/-- SHA-512 (17 R505). -/
opaque sha512 : List Byte → List Byte
/-- RSA-4096 verification with SHA-512: key, message, signature (15 R465, 17 R523). -/
opaque rsaVerify : List Byte → List Byte → List Byte → Bool
/-- The device's signature of a message, with its private key (17 R519). -/
opaque deviceSign : List Byte → List Byte
/-- Random bytes that the MSS draws: the draw's number and the length (17 R520). -/
opaque random : Nat → Nat → List Byte
/-- What an EXTEST does while PERST_N is high (18 R547, 00 R16): the bytes of device memory that change; the ports, and 16 for the host
link, whose links are lost; the jobs whose runs end. -/
opaque scanBytes : Nat → List (Nat × Byte)
opaque scanLinks : Nat → Nat → Bool
opaque scanJobs : Nat → Nat → Bool
/-- RSA-OAEP of a share for a partner (13 R406). -/
opaque oaep : List Byte → List Byte → List Byte
/-- What this device's private key opens of an RSA-OAEP ciphertext. -/
opaque oaepOpen : List Byte → List Byte
/-- The 20-byte serial that the subject of a device certificate chain carries (17 R519). -/
opaque certSerial : List Byte → List Byte
/-- The key agreed from two FFDHE-4096 shares (17 R505). -/
opaque agree : List Byte → List Byte → List Byte
/-- What FINISH of a session must carry: the session's key and the exchange's transcript (17 R505). -/
opaque finishMac : List Byte → List Byte → List Byte
/-- The boot ROM (17 R521). -/
opaque bootRom : List Byte
/-- TR_VER of a firmware image (14 R423). -/
opaque translatorVersion : List Byte → W32
/-- The firmware signing key, whose digest is fused (17 R523). -/
opaque firmwareKey : List Byte

end Sys2Proof.Config
end

