-- ==== Sys2Proof/Machine/Num.lean ====
section
/-!
DEFINITION. Bytes, bit fields and counters (00 R8, R9).
-/

namespace Sys2Proof.Machine

/-- The field of `w` bits at bit `lo` of `x`. -/
def bits (x lo w : Nat) : Nat := (x >>> lo) % 2 ^ w

/-- Bit `i` of `x`. -/
def bitAt (x i : Nat) : Bool := x.testBit i

/-- A field value placed at bit `lo`. -/
def fld (v lo w : Nat) : Nat := (v % 2 ^ w) <<< lo

/-- 1 for true. -/
def b2n (b : Bool) : Nat := if b then 1 else 0

/-- The two's-complement reading of the low `w` bits of `x`. -/
def sext (x w : Nat) : Int :=
  if x % 2 ^ w < 2 ^ (w - 1) then (x % 2 ^ w : Nat) else ((x % 2 ^ w : Nat) : Int) - (2 ^ w : Nat)

/-- The low `w` bits of an integer, as two's complement. -/
def wrapInt (x : Int) (w : Nat) : Nat := (x % ((2 ^ w : Nat) : Int)).toNat

/-- Little-endian value of bytes (00 R9). -/
def leVal : List Byte → Nat
  | [] => 0
  | b :: t => b.toNat + 256 * leVal t

/-- The `n` low bytes of a value, little-endian. -/
def leBytes (v : Nat) : Nat → List Byte
  | 0 => []
  | n + 1 => BitVec.ofNat 8 v :: leBytes (v / 256) n

/-- The little-endian value of `n` bytes at offset `o` of an image; missing bytes read 0. -/
def leAt (l : List Byte) (o n : Nat) : Nat := leVal ((l.drop o).take n)

/-- Whether bytes `o` to `o + n - 1` are all 0. -/
def zeroAt (l : List Byte) (o n : Nat) : Bool := leAt l o n == 0

/-- Adds `k` to a 32-bit counter that saturates at 0xFFFF_FFFF. -/
def satAdd (c : W32) (k : Nat) : W32 := if c.toNat + k > 0xFFFFFFFF then 0xFFFFFFFF else c + BitVec.ofNat 32 k

/-- The numbers `a`, `a + 1`, ... of count `n`. -/
def upFrom (a : Nat) : Nat → List Nat
  | 0 => []
  | n + 1 => a :: upFrom (a + 1) n

/-- The number rounded up to a multiple. -/
def ceilDiv (a b : Nat) : Nat := (a + b - 1) / b

/-- Floor of the square root, digit by digit from bit `k` down. -/
def isqrtFrom (x : Nat) : Nat → Nat → Nat
  | 0, r => r
  | k + 1, r => if (r + 2 ^ k) * (r + 2 ^ k) ≤ x then isqrtFrom x k (r + 2 ^ k) else isqrtFrom x k r

/-- Floor of the square root of `x`. -/
def isqrt (x : Nat) : Nat := isqrtFrom x (x.log2 / 2 + 1) 0

/-- The first element that meets a test, with the list without it. -/
def pick {α : Type} (p : α → Bool) : List α → Option (α × List α)
  | [] => none
  | a :: t => if p a then some (a, t) else (pick p t).map fun r => (r.1, a :: r.2)

/-- Replaces element `n` of a list, if there is one. -/
def setNth {α : Type} : List α → Nat → α → List α
  | [], _, _ => []
  | _ :: t, 0, v => v :: t
  | a :: t, n + 1, v => a :: setNth t n v

end Sys2Proof.Machine
end

