-- ==== Sys2Proof/Machine/Fp.lean ====
section
/-!
DEFINITION. Floating point: numbers as exact dyadics, one rounding (to nearest, ties to even), the operand formats of
03 R70 and the binary32 operations of 04 R114.
-/

namespace Sys2Proof.Machine

/-- A floating-point datum: a NaN, an infinity, or ± `m` × 2^`e`. -/
inductive Fp where
  | nan
  | inf (neg : Bool)
  | fin (neg : Bool) (m : Nat) (e : Int)
  deriving DecidableEq, Repr

/-- What the top exponent of a format holds. -/
inductive FpTop where
  | ieee    -- infinities and NaNs
  | e4m3    -- the code S.1111.111 is NaN, no infinity
  | none    -- finite values only
  deriving DecidableEq, Repr

/-- A binary format: exponent bits, fraction bits, bias. -/
structure FpFormat where
  eb   : Nat
  mb   : Nat
  bias : Nat
  top  : FpTop
  deriving DecidableEq, Repr

def fmtFp32 : FpFormat := ⟨8, 23, 127, .ieee⟩
def fmtBf16 : FpFormat := ⟨8, 7, 127, .ieee⟩
def fmtFp16 : FpFormat := ⟨5, 10, 15, .ieee⟩
def fmtE4M3 : FpFormat := ⟨4, 3, 7, .e4m3⟩
def fmtE5M2 : FpFormat := ⟨5, 2, 15, .ieee⟩
def fmtE3M2 : FpFormat := ⟨3, 2, 3, .none⟩
def fmtE2M3 : FpFormat := ⟨2, 3, 1, .none⟩
def fmtE2M1 : FpFormat := ⟨2, 1, 1, .none⟩

/-- The exponent of the least bit of a format's subnormals. -/
def FpFormat.lsb (f : FpFormat) : Int := 1 - (f.bias : Int) - f.mb

/-- The datum that a code of a format spells. -/
def fpDecode (f : FpFormat) (x : Nat) : Fp :=
  let frac := bits x 0 f.mb
  let ex := bits x f.mb f.eb
  let neg := bitAt x (f.mb + f.eb)
  if ex = 2 ^ f.eb - 1 && f.top == .ieee then (if frac = 0 then .inf neg else .nan)
  else if ex = 2 ^ f.eb - 1 && f.top == .e4m3 && frac = 2 ^ f.mb - 1 then .nan
  else if ex = 0 then .fin neg frac f.lsb
  else .fin neg (2 ^ f.mb + frac) (f.lsb + ex - 1)

/-- `m` × 2^`e` in units of 2^`q`, truncated. -/
def scaleDown (m : Nat) (e q : Int) : Nat := if q ≤ e then m <<< (e - q).toNat else m >>> (q - e).toNat

/-- `m` × 2^`e` in units of 2^`q`, rounded to nearest, ties to even. -/
def roundAt (m : Nat) (e q : Int) : Nat :=
  if q ≤ e then m <<< (e - q).toNat
  else
    let k := (q - e).toNat
    let r := m % 2 ^ k
    let t := m >>> k
    if 2 * r > 2 ^ k || (2 * r = 2 ^ k && t % 2 = 1) then t + 1 else t

/-- The exponent of the grid step of a float format at magnitude `m` × 2^`e`. -/
def gridExp (f : FpFormat) (m : Nat) (e : Int) : Int :=
  if m = 0 then f.lsb else max f.lsb ((m.log2 : Int) + e - f.mb)

/-- The code of a magnitude `n` × 2^`q` that lies on the format's grid, `q` its grid step; none beyond the format's
exponent range. -/
def encodeGrid (f : FpFormat) (n : Nat) (q : Int) : Option Nat :=
  let (n, q) := if n = 2 ^ (f.mb + 1) then (2 ^ f.mb, q + 1) else (n, q)
  if n < 2 ^ f.mb then some n
  else
    let ex := (q - f.lsb).toNat + 1
    if ex ≥ 2 ^ f.eb then none
    else if ex = 2 ^ f.eb - 1 && f.top == .ieee then none
    else if ex = 2 ^ f.eb - 1 && f.top == .e4m3 && n = 2 ^ (f.mb + 1) - 1 then none
    else some (ex * 2 ^ f.mb + (n - 2 ^ f.mb))

/-- A sign bit above a format's magnitude. -/
def withSign (f : FpFormat) (neg : Bool) (c : Nat) : Nat := b2n neg * 2 ^ (f.eb + f.mb) + c

/-- The code of an infinity of an IEEE format. -/
def infCode (f : FpFormat) (neg : Bool) : Nat := withSign f neg ((2 ^ f.eb - 1) * 2 ^ f.mb)

/-- The quiet NaN of an IEEE format with only the top fraction bit set. -/
def qnanCode (f : FpFormat) : Nat := (2 ^ f.eb - 1) * 2 ^ f.mb + 2 ^ (f.mb - 1)

/-- Rounds a datum once, to nearest even, to an IEEE format. -/
def fpRound (f : FpFormat) : Fp → Nat
  | .nan => qnanCode f
  | .inf neg => infCode f neg
  | .fin neg m e =>
    let q := gridExp f m e
    match encodeGrid f (roundAt m e q) q with
    | some c => withSign f neg c
    | none => infCode f neg

/-- A binary32 word as a datum. -/
def f32 (w : W32) : Fp := fpDecode fmtFp32 w.toNat

/-- A datum rounded to binary32; every NaN is 0x7FC0_0000 (04 R114). -/
def toF32 (x : Fp) : W32 := BitVec.ofNat 32 (fpRound fmtFp32 x)

def Fp.isNan : Fp → Bool
  | .nan => true
  | _ => false

def Fp.isInf : Fp → Bool
  | .inf _ => true
  | _ => false

def Fp.neg : Fp → Fp
  | .nan => .nan
  | .inf n => .inf (!n)
  | .fin n m e => .fin (!n) m e

def Fp.isZero : Fp → Bool
  | .fin _ 0 _ => true
  | _ => false

def Fp.sign : Fp → Bool
  | .nan => false
  | .inf n => n
  | .fin n _ _ => n

/-- The exact product. -/
def fpMul : Fp → Fp → Fp
  | .nan, _ => .nan
  | _, .nan => .nan
  | .inf a, .inf b => .inf (a != b)
  | .inf a, .fin b m _ => if m = 0 then .nan else .inf (a != b)
  | .fin a m _, .inf b => if m = 0 then .nan else .inf (a != b)
  | .fin a m e, .fin b n g => .fin (a != b) (m * n) (e + g)

/-- A signed integer in units of 2^`e`. -/
def fpOfInt (x : Int) (e : Int) : Fp := .fin (decide (x < 0)) x.natAbs e

/-- The integer that a finite datum is in units of 2^`q`, `q` at most its exponent. -/
def fpUnits (neg : Bool) (m : Nat) (e q : Int) : Int :=
  let v : Int := (m <<< (e - q).toNat : Nat)
  if neg then -v else v

/-- The exact sum. A sum of opposites is +0. -/
def fpAdd : Fp → Fp → Fp
  | .nan, _ => .nan
  | _, .nan => .nan
  | .inf a, .inf b => if a = b then .inf a else .nan
  | .inf a, .fin _ _ _ => .inf a
  | .fin _ _ _, .inf b => .inf b
  | .fin a m e, .fin b n g =>
    if m = 0 && n = 0 then .fin (a && b) 0 (min e g)
    else
      let q := min e g
      fpOfInt (fpUnits a m e q + fpUnits b n g q) q

/-- Compares two data that are not NaN. -/
def fpLt : Fp → Fp → Bool
  | .nan, _ => false
  | _, .nan => false
  | .inf a, .inf b => a && !b
  | .inf a, .fin _ _ _ => a
  | .fin _ _ _, .inf b => !b
  | .fin a m e, .fin b n g =>
    let q := min e g
    decide (fpUnits a m e q < fpUnits b n g q)

/-- Equality of two data, IEEE 754 (zeros are equal, a NaN equals nothing). -/
def fpEq (x y : Fp) : Bool := !x.isNan && !y.isNan && !fpLt x y && !fpLt y x

/-- The quotient of positive finite data, with enough bits below the rounding point and a sticky bit, so that rounding
it to binary32 rounds the exact quotient. -/
def fpQuot (m : Nat) (e : Int) (n : Nat) (g : Int) : Fp :=
  let k := n.log2 + 40
  let t := (m <<< k) / n
  .fin false (2 * t + b2n ((m <<< k) % n != 0)) (e - g - k - 1)

/-- The floor of a finite datum. -/
def fpFloor (neg : Bool) (m : Nat) (e : Int) : Int :=
  if 0 ≤ e then fpUnits neg m e 0
  else
    let k := (-e).toNat
    if neg then -(((m + 2 ^ k - 1) >>> k : Nat) : Int) else ((m >>> k : Nat) : Int)

/-- A datum times 2^`k`. -/
def fpScale (k : Int) : Fp → Fp
  | .fin n m e => .fin n m (e + k)
  | x => x

/-- Rounds a product or a sum to binary32 and back (04 R114: MUL followed by ADD rounds twice). -/
def f32Mul (a b : W32) : W32 := toF32 (fpMul (f32 a) (f32 b))
def f32Add (a b : W32) : W32 := toF32 (fpAdd (f32 a) (f32 b))
def f32Neg (a : W32) : W32 := a ^^^ 0x80000000#32
def f32Sub (a b : W32) : W32 := f32Add a (f32Neg b)

end Sys2Proof.Machine
end

