-- ==== Sys2Proof/Machine/MxeArith.lean ====
section
/-!
DEFINITION. The arithmetic of the matrix engine: operand formats and layouts, terms, exact and FP32 accumulation,
outputs and residues (03_matrix_engine.md).
-/

namespace Sys2Proof.Machine

/-- The tag of a term or an entry (03 R89). -/
inductive Tag where
  | none | pinf | ninf | nan
  deriving DecidableEq, Repr

/-- One entry of the beam (03 R82). In an FP32 tile the value is the low 32 bits of `x`. -/
structure Entry where
  x       : W128
  inexact : Bool
  tag     : Tag
  poison  : Bool
  deriving DecidableEq, Repr

/-- A cleared entry (03 R83). -/
def Entry.zero : Entry := ⟨0, false, .none, false⟩

/-- A scratchpad line as an engine has read it. -/
structure LineVal where
  v : BitVec 2048
  p : Bool
  deriving DecidableEq, Repr

def LineVal.zero : LineVal := ⟨0, false⟩

/-- A term: the rod's block integer `s` in units of 2^`e`, or a tag (03 R86, R89). -/
structure Term where
  s   : Int
  e   : Int
  tag : Tag
  deriving DecidableEq, Repr

/-- One column's result on its way to the beam. -/
structure ColRes where
  terms  : List Term
  sum    : W32
  poison : Bool
  deriving DecidableEq, Repr

/-- The operand classes (03 R69). -/
inductive MxClass where
  | c8 | narrow | c16
  deriving DecidableEq, Repr

/-- The class of a format code; none for a reserved code (03 R70). -/
def mxClass (f : Nat) : Option MxClass :=
  if f ≤ 2 then some .c8 else if f ≤ 6 then some .narrow
  else if f = 8 || f = 9 then some .c16 else none

def mxIsInt (f : Nat) : Bool := f == 2 || f == 6

/-- Bits of an element. -/
def mxWidth (f : Nat) : Nat := if f ≤ 2 then 8 else if f ≤ 4 then 6 else if f ≤ 6 then 4 else 16

/-- Elements of an input vector (03 R69). -/
def mxK (f : Nat) : Nat := if mxClass f = some .narrow then 256 else 128

/-- The input occupancy o (03 R69). -/
def mxOcc (f : Nat) : Nat := if mxClass f = some .c16 then 4 else 1

/-- The latency from an input vector to the beam (03 R80). -/
def mxLat (f : Nat) : Nat := if mxClass f = some .c16 then 270 else 262

/-- Weight rows, and input vectors, in one line (03 R73). -/
def mxPerLine (f : Nat) : Nat := if mxWidth f = 8 || mxWidth f = 4 then 2 else 1

/-- The finest exponent f of a format (03 R70). -/
def mxFine (f : Nat) : Int :=
  if f = 0 then -9 else if f = 1 then -16 else if f = 3 then -4 else if f = 4 then -3 else if f = 5 then -1
  else if f = 8 then -133 else if f = 9 then -24 else 0

/-- The datum that a code of a format spells (03 R70). -/
def mxDecode (f x : Nat) : Fp :=
  match f with
  | 0 => fpDecode fmtE4M3 x
  | 1 => fpDecode fmtE5M2 x
  | 2 => fpOfInt (sext x 8) 0
  | 3 => fpDecode fmtE3M2 x
  | 4 => fpDecode fmtE2M3 x
  | 5 => fpDecode fmtE2M1 x
  | 6 => fpOfInt (sext x 4) 0
  | 8 => fpDecode fmtBf16 x
  | _ => fpDecode fmtFp16 x

/-- Bits of line `n` of a list of lines. -/
def lineBits (ls : List LineVal) (n lo w : Nat) : Nat := bits ((ls.getD n LineVal.zero).v.toNat) lo w

/-- The code of the weight of K index `k`, column `j` (03 R69, R73). -/
def weightCode (f : Nat) (ls : List LineVal) (k j : Nat) : Nat :=
  match mxWidth f with
  | 8 => lineBits ls (k / 2) (8 * (k % 2 * 128 + j)) 8
  | 4 => lineBits ls (k / 4) (8 * (k / 2 % 2 * 128 + j) + 4 * (k % 2)) 4
  | 6 => lineBits ls (k / 2) (12 * j + 6 * (k % 2)) 6
  | _ => lineBits ls k (16 * j) 16

/-- The line, of the weight lines of a tile, that holds K index `k`. -/
def weightLine (f k : Nat) : Nat :=
  match mxWidth f with
  | 4 => k / 4
  | 16 => k
  | _ => k / 2

/-- The code of element `k` of input vector `q`, from the line that holds it (03 R73). -/
def inputCode (f : Nat) (l : LineVal) (q k : Nat) : Nat :=
  let x := l.v.toNat
  match mxWidth f with
  | 8 => bits x (8 * (q % 2 * 128 + k)) 8
  | 4 => bits x (8 * (q % 2 * 128) + 4 * k) 4
  | 6 => bits x (6 * k) 6
  | _ => bits x (16 * k) 16

/-- Blocks of 32 K elements in a vector. -/
def mxBlocks (f : Nat) : Nat := mxK f / 32

/-- Weight scale lines of a tile, and input vectors of one scale line (03 R73). -/
def mxScaleLines (f : Nat) : Nat := if mxClass f = some .narrow then 4 else 2
def mxVecPerScale (f : Nat) : Nat := if mxClass f = some .narrow then 32 else 64

/-- The E8M0 code of block `b` of column `j`. -/
def weightScale (f : Nat) (ls : List LineVal) (j b : Nat) : Nat :=
  let o := mxBlocks f * j + b
  lineBits ls (o / 256) (8 * (o % 256)) 8

/-- The E8M0 code of block `b` of input vector `q`, from the scale line that holds it. -/
def inputScale (f : Nat) (l : LineVal) (q b : Nat) : Nat :=
  bits l.v.toNat (8 * (mxBlocks f * (q % mxVecPerScale f) + b)) 8

/-- Tags combine independently of order (03 R89). -/
def Tag.join : Tag → Tag → Tag
  | .none, t => t
  | t, .none => t
  | .pinf, .pinf => .pinf
  | .ninf, .ninf => .ninf
  | _, _ => .nan

/-- A weight tile as loaded (03 R75): its format, MX flag, weight lines and scale lines. Before the first load of a run
it holds zero weights (R77). -/
structure Tile where
  valid : Bool
  fmt   : Nat
  mx    : Bool
  lines : List LineVal
  scl   : List LineVal
  deriving DecidableEq, Repr

def Tile.zero : Tile := ⟨false, 0, false, [], []⟩

/-- The sum of products of one block: integer in units of 2^(fa + fb), and the tag (03 R86, R89). -/
def blockSum (unit : Int) : List (Fp × Fp) → Int × Tag
  | [] => (0, .none)
  | (w, a) :: t =>
    let (s, g) := blockSum unit t
    match fpMul w a with
    | .nan => (s, .nan)
    | .inf n => (s, g.join (if n then .ninf else .pinf))
    | .fin n m e => (s + fpUnits n m e unit, g)

/-- Operand pairs of block `b`, column `j`, input vector `q`. -/
def blockPairs (t : Tile) (af : Nat) (l : LineVal) (q j b : Nat) : List (Fp × Fp) :=
  (upFrom (32 * b) 32).map fun k => (mxDecode t.fmt (weightCode t.fmt t.lines k j), mxDecode af (inputCode af l q k))

/-- The term of block `b` of column `j` (03 R86, R89, R72). -/
def mxTerm (t : Tile) (af : Nat) (amx : Bool) (l sl : LineVal) (q j b : Nat) : Term :=
  let unit := mxFine t.fmt + mxFine af
  let (s, g) := blockSum unit (blockPairs t af l q j b)
  let sw := if t.mx then weightScale t.fmt t.scl j b else 127
  let sa := if amx then inputScale af sl q b else 127
  if sw = 255 || sa = 255 then ⟨0, 0, .nan⟩
  else ⟨s, unit + ((sw : Int) - 127) + ((sa : Int) - 127), g⟩

/-- One bead's product in an FP32 tile (03 R93; with MX, 07 R216). -/
def beadF32 (t : Tile) (af : Nat) (amx : Bool) (l sl : LineVal) (q j k : Nat) : W32 :=
  let p := toF32 (fpMul (mxDecode t.fmt (weightCode t.fmt t.lines k j)) (mxDecode af (inputCode af l q k)))
  let sw := if t.mx then weightScale t.fmt t.scl j (k / 32) else 127
  let sa := if amx then inputScale af sl q (k / 32) else 127
  if sw = 255 || sa = 255 then toF32 .nan
  else toF32 (fpScale (((sw : Int) - 127) + ((sa : Int) - 127)) (f32 p))

/-- The rod's sum in row order from +0.0 (03 R93). -/
def rodSum (t : Tile) (af : Nat) (amx : Bool) (l sl : LineVal) (q j : Nat) : W32 :=
  (upFrom 0 128).foldl (fun acc k => f32Add acc (beadF32 t af amx l sl q j k)) 0

/-- Whether a line that column `j` of the tile takes weights or scales from is poisoned (03 R100). The scale lines of a
column are those that hold its blocks. -/
def colPoison (t : Tile) (j : Nat) : Bool :=
  t.lines.any (·.p) || (t.mx && (t.scl.getD (mxBlocks t.fmt * j / 256) LineVal.zero).p)

/-- The column's result of one input vector (03 R86, R93). -/
def colResult (t : Tile) (af : Nat) (amx : Bool) (l sl : LineVal) (q j : Nat) : ColRes where
  terms := if mxClass af = some .c16 then [] else (upFrom 0 (mxBlocks af)).map (mxTerm t af amx l sl q j)
  sum := if mxClass af = some .narrow then 0 else rodSum t af amx l sl q j
  poison := colPoison t j || l.p || (amx && sl.p)

/-- The complete row of 128 column results of one input vector (03 R80). -/
def rowResult (t : Tile) (af : Nat) (amx : Bool) (l sl : LineVal) (q : Nat) : List ColRes :=
  (upFrom 0 128).map (colResult t af amx l sl q)

/-- The value range of an untagged exact entry (03 R91). -/
def xMax : Int := 2 ^ 127 - 1
def xMin : Int := -(2 ^ 127) + 3

/-- Saturation of a sum, or of a shifted value, by its sign (03 R91, R98). -/
def xSat (v : Int) : Int × Bool := if v > xMax then (xMax, true) else if v < xMin then (xMin, true) else (v, false)

/-- Adds one term to an entry of an exact tile with anchor `a` (03 R87, R89). An entry that MRAW has carried to the end of the
value range saturates there (R91). -/
def accTerm (a : Int) (en : Entry) (t : Term) : Entry :=
  if t.tag ≠ .none then { en with tag := en.tag.join t.tag }
  else
    let m := roundAt t.s.natAbs t.e a
    let big := m ≥ 2 ^ 96
    let m' := if big then 2 ^ 96 - 1 else m
    let exact := !big && (a ≤ t.e || t.s.natAbs % 2 ^ (a - t.e).toNat == 0)
    let d : Int := if t.s < 0 then -(m' : Int) else m'
    let (x', sat) := xSat (en.x.toInt + d)
    { en with x := BitVec.ofInt 128 x', inexact := en.inexact || !exact || sat }

/-- The reserved pattern of a tag (03 R96). -/
def tagPattern : Tag → W128
  | .none => 0
  | .nan => BitVec.ofNat 128 (2 ^ 127)
  | .pinf => BitVec.ofNat 128 (2 ^ 127 + 1)
  | .ninf => BitVec.ofNat 128 (2 ^ 127 + 2)

/-- The tag that a raw 128-bit value spells (03 R96). -/
def patternTag (x : W128) : Tag :=
  if x = tagPattern .nan then .nan else if x = tagPattern .pinf then .pinf
  else if x = tagPattern .ninf then .ninf else .none

/-- Adds a raw value of source anchor `sa` into an entry of anchor `a` (03 R98). -/
def addRaw (sa a : Int) (raw : W128) (pois : Bool) (en : Entry) : Entry :=
  let en := { en with poison := en.poison || pois }
  match patternTag raw with
  | .none =>
    let v := raw.toInt
    let m := roundAt v.natAbs sa a
    let w : Int := if v < 0 then -(m : Int) else m
    let lost := !(a ≤ sa) && v.natAbs % 2 ^ (a - sa).toNat != 0
    let (w', sat1) := xSat w
    let (x', sat2) := xSat (en.x.toInt + w')
    { en with x := BitVec.ofInt 128 x', inexact := en.inexact || lost || sat1 || sat2 }
  | t => { en with tag := en.tag.join t }

/-- An entry of a tile as a datum: exact mode with anchor `a`, or FP32 (03 R95). -/
def entryFp (fp32 : Bool) (a : Int) (en : Entry) : Fp :=
  match en.tag with
  | .nan => .nan
  | .pinf => .inf false
  | .ninf => .inf true
  | .none => if fp32 then f32 (en.x.truncate 32) else fpOfInt en.x.toInt a

/-- MOUT FP32 (03 R95). -/
def outF32 (fp32 : Bool) (a : Int) (en : Entry) : W32 :=
  if fp32 && en.tag == .none then en.x.truncate 32 else toF32 (entryFp fp32 a en)

/-- MOUT BF16: the value in bits [31:16] (03 R94, R95). -/
def outBf16 (fp32 : Bool) (a : Int) (en : Entry) : W32 :=
  BitVec.ofNat 32 (fpRound fmtBf16 (entryFp fp32 a en) * 65536)

/-- MOUT RAW, word `w` (03 R94 to R96). -/
def outRaw (fp32 : Bool) (en : Entry) (w : Nat) : W32 :=
  let x : W128 := if fp32 then (en.x &&& 0xFFFFFFFF#128) else if en.tag = .none then en.x else tagPattern en.tag
  BitVec.ofNat 32 (x.toNat >>> (32 * w))

/-! ### The casting-out check (03 R101) -/

/-- The residue of a signed integer modulo 255. -/
def res255 (x : Int) : Nat :=
  let m := x.natAbs % 255
  if x < 0 then (255 - m) % 255 else m

/-- The residue that the check unit expects of a block: of its integer in units of 2^(fa + fb). -/
def expectTerm (unit : Int) : List (Fp × Fp) → Nat
  | [] => 0
  | (w, a) :: t =>
    match w, a with
    | .fin nw mw ew, .fin na ma ea =>
      let k := (ew + ea - unit).toNat
      (expectTerm unit t + res255 (if na then -(ma : Int) else ma) * res255 (if nw then -(mw : Int) else mw) % 255
        * 2 ^ (k % 8)) % 255
    | _, _ => expectTerm unit t

/-- The residue that the check unit expects of one bead's product. -/
def expectBead (w a : Fp) : Nat :=
  match w, a with
  | .fin nw mw _, .fin na ma _ =>
    res255 (if na then -(ma : Int) else ma) * res255 (if nw then -(mw : Int) else mw) % 255
  | _, _ => 0

/-- Whether a bead's product is exact in binary32 (03 R103). -/
def beadExact (w a : Fp) : Bool :=
  match fpMul w a with
  | .fin n m e => decide (f32 (toF32 (.fin n m e)) ≠ .nan) && fpEq (f32 (toF32 (.fin n m e))) (.fin n m e)
  | _ => false

/-- The physical rod of logical column `j`: the `j`-th rod whose bit in `fail` is clear (03 R104). -/
def physRodFrom (fail : Nat) : Nat → Nat → Nat → Nat
  | 0, r, _ => r
  | f + 1, r, j => if fail.testBit r then physRodFrom fail f (r + 1) j
    else if j = 0 then r else physRodFrom fail f (r + 1) (j - 1)

def physRod (fail j : Nat) : Nat := physRodFrom fail 132 0 j

end Sys2Proof.Machine
end

