-- ==== Sys2Proof/Machine/VxeArith.lean ====
section
/-!
DEFINITION. The arithmetic of the vector engine: the eight stages over 256 lanes, the table functions, packing and
stochastic rounding (04_vector_engine.md).
-/

namespace Sys2Proof.Machine

/-- A lane of a V register or a word of an operand-cache entry: its bits and its poison mark (04 R107, R134). -/
structure Lane where
  v : W32
  p : Bool
  deriving DecidableEq, Repr

def Lane.zero : Lane := ⟨0, false⟩

/-- A CHAINS entry (06 R195). -/
structure Chain where
  stages    : List Nat
  cvtFmt    : Nat
  addForm   : Nat
  cselPred  : Nat
  cselMask  : Bool
  lutFn     : Nat
  redOp     : Nat
  redG16    : Bool
  redInt    : Bool
  packFmt   : Nat
  packSplit : Bool
  packSr    : Bool
  packSat   : Bool
  packIndex : Bool
  bMul      : Nat
  bAdd      : Nat
  bCsb      : Nat
  bCsc      : Nat
  shf       : W64
  deriving DecidableEq, Repr

/-- The flags that an operation sets in VX_FLAGS (04 R136). -/
structure VFlags where
  invalid  : Bool
  overflow : Bool
  packSat  : Bool
  packNan  : Bool
  poisoned : Bool
  deriving DecidableEq, Repr

def VFlags.none : VFlags := ⟨false, false, false, false, false⟩

def VFlags.join (a b : VFlags) : VFlags :=
  ⟨a.invalid || b.invalid, a.overflow || b.overflow, a.packSat || b.packSat, a.packNan || b.packNan,
   a.poisoned || b.poisoned⟩

/-- The flags of a result computed from inputs (04 R114). -/
def arithFlags (ins : List W32) (out : W32) : VFlags :=
  { VFlags.none with
    invalid := (f32 out).isNan && !ins.any fun w => (f32 w).isNan
    overflow := (f32 out).isInf && ins.all fun w => !(f32 w).isInf && !(f32 w).isNan }

/-- A lane's result with the flags it sets. -/
abbrev LaneOut := Lane × VFlags

/-- Stage latencies (02 R44). -/
def stageLat (c : Nat) : Nat :=
  match c with
  | 0 => 2 | 1 => 3 | 2 => 3 | 3 => 1 | 4 => 6 | 5 => 2 | 6 => 8 | _ => 3

/-- The sum of a chain's stage latencies. -/
def chainLat (stages : List Nat) : Nat := (stages.map stageLat).sum

/-! ### CVT (04 R116, R117) -/

/-- Bits of a source element of CVT, and of a target element of PACK; the codes are the same (04 R116, R125). -/
def elemWidth (c : Nat) : Nat :=
  if c ≤ 2 || c = 7 then 8 else if c ≤ 4 then 6 else if c ≤ 6 then 4 else if c ≤ 9 then 16 else 32

/-- The groups of elements that a register holds: the values of SEL. -/
def elemGroups (c : Nat) : Nat := if c = 11 then 8 else 1024 / (32 * elemWidth c)

/-- The datum of a CVT source code. -/
def cvtDecode (c x : Nat) : Fp :=
  match c with
  | 7 => fpOfInt (x : Int) 0
  | 10 => fpOfInt (sext x 32) 0
  | _ => mxDecode c x

/-- The image of a register's lanes as one number, lane 0 lowest (04 R107). -/
def laneImage : List Lane → Nat
  | [] => 0
  | l :: t => l.v.toNat + 2 ^ 32 * laneImage t

/-- Whether bits `lo` to `lo + w - 1` of a register's image lie in a poisoned lane. -/
def imagePoison (ls : List Lane) (lo w : Nat) : Bool :=
  (ls.getD (lo / 32) Lane.zero).p || (ls.getD ((lo + w - 1) / 32) Lane.zero).p

/-- CVT of group `sel` of source code `c`. -/
def stageCvt (c sel : Nat) (a : List Lane) : List LaneOut :=
  let img := laneImage a
  let w := elemWidth c
  (upFrom 0 256).map fun k =>
    let lo := (256 * sel + k) * w
    let x := bits img lo w
    (⟨toF32 (cvtDecode c x), imagePoison a lo w⟩, VFlags.none)

/-- CVT RAW: `a` and `b` hold words 0, 1 and 2, 3 of each column, anchor `anc` with its mark `ap` (04 R117, R134). -/
def stageCvtRaw (half : Bool) (anc : Int) (ap : Bool) (a b : List Lane) : List LaneOut :=
  (upFrom 0 256).map fun i =>
    if (i % 2 == 1) != half then (⟨0, false⟩, VFlags.none)
    else
      let j := i / 2
      let w := fun (l : List Lane) k => l.getD (2 * j + k) Lane.zero
      let x : W128 := BitVec.ofNat 128 ((w a 0).v.toNat + 2 ^ 32 * (w a 1).v.toNat + 2 ^ 64 * (w b 0).v.toNat
        + 2 ^ 96 * (w b 1).v.toNat)
      let r : Fp := match patternTag x with
        | .nan => .nan
        | .pinf => .inf false
        | .ninf => .inf true
        | .none => fpOfInt x.toInt anc
      (⟨toF32 r, (w a 0).p || (w a 1).p || (w b 0).p || (w b 1).p || ap⟩,
        { VFlags.none with overflow := (f32 (toF32 r)).isInf && !r.isInf })

/-! ### MUL, ADD, CSEL, SHF -/

def zipLanes (f : Lane → Lane → LaneOut) (a b : List Lane) : List LaneOut := List.zipWith f a b

def stageMul (a b : List Lane) : List LaneOut :=
  zipLanes (fun x y => (⟨f32Mul x.v y.v, x.p || y.p⟩, arithFlags [x.v, y.v] (f32Mul x.v y.v))) a b

/-- ADD: form 0 v + B, 1 v - B, 2 B - v. -/
def stageAdd (form : Nat) (a b : List Lane) : List LaneOut :=
  zipLanes (fun x y =>
    let r := if form = 0 then f32Add x.v y.v else if form = 1 then f32Sub x.v y.v else f32Sub y.v x.v
    (⟨r, x.p || y.p⟩, arithFlags [x.v, y.v] r)) a b

/-- The predicates of CSEL (04 R118). -/
def cselTrue (pred : Nat) (x y : W32) : Bool :=
  let a := f32 x
  let b := f32 y
  match pred with
  | 0 => fpEq a b
  | 1 => !fpEq a b
  | 2 => fpLt a b
  | 3 => fpLt a b || fpEq a b
  | 4 => fpLt b a
  | _ => fpLt b a || fpEq a b

/-- CSEL: SELECT gives v or C, MASK gives 1.0 or 0.0. -/
def stageCsel (pred : Nat) (mask : Bool) (a b c : List Lane) : List LaneOut :=
  List.zipWith (fun (x : Lane × Lane) z =>
    let t := cselTrue pred x.1.v x.2.v
    if mask then ((⟨if t then 0x3F800000#32 else 0, x.1.p || x.2.p⟩ : Lane), VFlags.none)
    else (⟨if t then x.1.v else z.v, x.1.p || x.2.p || z.p⟩, VFlags.none)) (List.zip a b) c

/-- SHF permutes lanes within each group of 16 (04 R119). -/
def stageShf (pat : W64) (a : List Lane) : List LaneOut :=
  (upFrom 0 256).map fun i => (a.getD (16 * (i / 16) + bits pat.toNat (4 * (i % 16)) 4) Lane.zero, VFlags.none)

/-! ### LUT (04 R121 to R123) -/

/-- Knot `i` of EXP: 2^(i/256), by eight nested square roots of 2^(256 k + i) with k = 40. -/
def expKnot (i : Nat) : W32 :=
  if i % 256 = 0 then toF32 (.fin false 1 (i / 256))
  else
    let r := isqrt (isqrt (isqrt (isqrt (isqrt (isqrt (isqrt (isqrt (2 ^ (256 * 40 + i)))))))))
    toF32 (.fin false (2 * r + 1) (-41))

/-- Bits of log2 of `x` / 2^128, `x` in [2^128, 2^129), below the point: `n` of them, most significant first. -/
def log2Bits : Nat → Nat → Nat → Nat
  | 0, _, acc => acc
  | n + 1, x, acc =>
    let y := (x * x) >>> 128
    if y ≥ 2 ^ 129 then log2Bits n (y / 2) (2 * acc + 1) else log2Bits n y (2 * acc)

/-- Knot `i` of LOG: log2(1 + i/256), to 64 bits and a sticky bit before the one rounding. -/
def logKnot (i : Nat) : W32 :=
  if i = 0 then 0 else if i = 256 then 0x3F800000#32
  else toF32 (.fin false (2 * log2Bits 64 ((256 + i) * 2 ^ 120) 0 + 1) (-65))

/-- Knot `i` of RCP: 1/(1 + i/256). -/
def rcpKnot (i : Nat) : W32 := toF32 (fpQuot 256 0 (256 + i) 0)

/-- The square root of n/d, with a sticky bit. -/
def fpSqrtQuot (n d : Nat) : Fp :=
  let x := n * 2 ^ 120 / d
  let r := isqrt x
  .fin false (2 * r + b2n (r * r != x || n * 2 ^ 120 % d != 0)) (-61)

/-- Knot `i` of RSQRT: for m' below 2, and for m' at or above 2. -/
def rsqrtKnot (high : Bool) (i : Nat) : W32 :=
  toF32 (if high then fpSqrtQuot 128 (256 + i) else fpSqrtQuot 256 (256 + i))

/-- The knots of an interpolation: k(i) + t × (k(i+1) - k(i)), each operation rounded (04 R121). -/
def interp (k0 k1 t : W32) : W32 := f32Add k0 (f32Mul t (f32Sub k1 k0))

/-- Interpolation in a table at the reduced argument `u`, an exact binary32 value in [0, 256). -/
def tableAt (knot : Nat → W32) (u : W32) : W32 :=
  match f32 u with
  | .fin n m e =>
    let i := (fpFloor n m e).toNat
    interp (knot i) (knot (i + 1)) (f32Sub u (toF32 (fpOfInt i 0)))
  | _ => toF32 .nan

/-- The significand m in [1, 2) and the exponent of a positive finite datum that is not 0. -/
def fpNorm (m : Nat) (e : Int) : Fp × Int := (.fin false m (-(m.log2 : Int)), e + m.log2)

/-- 2^`k` as an exact factor. -/
def f32Scale (k : Int) (y : W32) : W32 := toF32 (fpScale k (f32 y))

def lutExp (x : W32) : W32 :=
  match f32 x with
  | .nan => toF32 .nan
  | .inf n => if n then 0 else toF32 (.inf false)
  | .fin _ _ _ =>
    let y := f32Mul x 0x3FB8AA3B#32
    match f32 y with
    | .fin n m e =>
      if m = 0 then 0x3F800000#32
      else
        let k := fpFloor n m e
        let u := f32Mul 0x43800000#32 (f32Sub y (toF32 (fpOfInt k 0)))
        -- DEDUCED: where u rounds to 256 the table's last knot stands (notes/assumptions/2.md)
        if u = 0x43800000#32 then f32Scale k (expKnot 256) else f32Scale k (tableAt expKnot u)
    | _ => Config.expEnd x

def lutLog (x : W32) : W32 :=
  match f32 x with
  | .nan => toF32 .nan
  | .inf n => if n then toF32 .nan else toF32 (.inf false)
  | .fin n m e =>
    if m = 0 then toF32 (.inf true) else if n then toF32 .nan
    else
      let (s, k) := fpNorm m e
      let u := toF32 (fpScale 8 (fpAdd s (.fin true 1 0)))
      f32Mul (f32Add (toF32 (fpOfInt k 0)) (tableAt logKnot u)) 0x3F317218#32

def lutRcp (x : W32) : W32 :=
  match f32 x with
  | .nan => toF32 .nan
  | .inf n => BitVec.ofNat 32 (b2n n * 2 ^ 31)
  | .fin n m e =>
    if m = 0 then toF32 (.inf n)
    else
      let (s, k) := fpNorm m e
      let u := toF32 (fpScale 8 (fpAdd s (.fin true 1 0)))
      let r := f32Scale (-k) (tableAt rcpKnot u)
      if n then f32Neg r else r

def lutRsqrt (x : W32) : W32 :=
  match f32 x with
  | .nan => toF32 .nan
  | .inf n => if n then toF32 .nan else 0
  | .fin n m e =>
    if m = 0 then toF32 (.inf false) else if n then toF32 .nan
    else
      let (s, k) := fpNorm m e
      if k % 2 = 0 then
        f32Scale (-(k / 2)) (tableAt (rsqrtKnot false) (toF32 (fpScale 8 (fpAdd s (.fin true 1 0)))))
      else
        f32Scale (-((k - 1) / 2)) (tableAt (rsqrtKnot true) (toF32 (fpScale 8 (fpAdd s (.fin true 1 0)))))

/-- The activation table (04 R123), from operand-cache entry `entry`. -/
structure ActTable where
  valid : Bool
  lo    : W32
  hi    : W32
  sc    : W32
  knots : List Lane
  entry : Nat
  deriving DecidableEq, Repr

def ActTable.zero : ActTable := ⟨false, 0, 0, 0, [], 0⟩

/-- 255 / (hi - lo), rounded once (04 R123). -/
def actScale (lo hi : W32) : W32 :=
  match f32 (f32Sub hi lo) with
  | .fin n m e => if m = 0 then toF32 (.inf n) else
      match fpQuot 255 0 m e with
      | .fin _ a b => toF32 (.fin n a b)
      | x => toF32 x
  | .inf n => BitVec.ofNat 32 (b2n n * 2 ^ 31)
  | .nan => toF32 .nan

/-- Whether lo and hi make a valid table (04 R123). -/
def actValid (lo hi : W32) : Bool :=
  !(f32 lo).isNan && !(f32 lo).isInf && !(f32 hi).isNan && !(f32 hi).isInf && fpLt (f32 lo) (f32 hi)

/-- The index of ACT: min(floor(u), 254). Where u is no number no index changes the result, which is none either. -/
def actIndex (u : W32) : Nat :=
  match f32 u with
  | .fin n m e => min (fpFloor n m e).toNat 254
  | _ => 254

def lutAct (t : ActTable) (x : W32) : Lane :=
  let k := fun i => t.knots.getD i Lane.zero
  if !t.valid then ⟨toF32 .nan, false⟩
  else if (f32 x).isNan then ⟨toF32 .nan, false⟩
  else if !fpLt (f32 t.lo) (f32 x) then k 0
  else if !fpLt (f32 x) (f32 t.hi) then k 255
  else
    let u := f32Mul (f32Sub x t.lo) t.sc
    let i := actIndex u
    ⟨interp (k i).v (k (i + 1)).v (f32Sub u (toF32 (fpOfInt i 0))), (k i).p || (k (i + 1)).p⟩

/-- LUT: 0 EXP, 1 LOG, 2 RCP, 3 RSQRT, 4 ACT. -/
def stageLut (fn : Nat) (t : ActTable) (a : List Lane) : List LaneOut :=
  a.map fun x =>
    match fn with
    | 0 => (⟨lutExp x.v, x.p⟩, arithFlags [x.v] (lutExp x.v))
    | 1 => (⟨lutLog x.v, x.p⟩, arithFlags [x.v] (lutLog x.v))
    | 2 => (⟨lutRcp x.v, x.p⟩, arithFlags [x.v] (lutRcp x.v))
    | 3 => (⟨lutRsqrt x.v, x.p⟩, arithFlags [x.v] (lutRsqrt x.v))
    | _ =>
      let r := lutAct t x.v
      (⟨r.v, r.p || x.p⟩, { arithFlags [x.v] r.v with invalid := !t.valid || (arithFlags [x.v] r.v).invalid })

/-! ### RED (04 R120) -/

def redPair (op : Nat) (x y : Lane) : LaneOut :=
  let a := f32 x.v
  let b := f32 y.v
  let p := x.p || y.p
  if op = 0 then (⟨f32Add x.v y.v, p⟩, arithFlags [x.v, y.v] (f32Add x.v y.v))
  else if a.isNan || b.isNan then (⟨toF32 .nan, p⟩, VFlags.none)
  else if a.isZero && b.isZero then
    (⟨if op = 1 then x.v &&& y.v else x.v ||| y.v, p⟩, VFlags.none)
  else if op = 1 then (⟨if fpLt a b then y.v else x.v, p⟩, VFlags.none)
  else (⟨if fpLt b a then y.v else x.v, p⟩, VFlags.none)

/-- One level of the tree: values 2i and 2i + 1 combine into value i. -/
def redLevel (op : Nat) : List Lane → List Lane × VFlags
  | x :: y :: t =>
    let r := redPair op x y
    let (ls, f) := redLevel op t
    (r.1 :: ls, r.2.join f)
  | l => (l, VFlags.none)

/-- `n` levels of the tree. -/
def redLevels (op : Nat) : Nat → List Lane → List Lane × VFlags
  | 0, l => (l, VFlags.none)
  | n + 1, l =>
    let (l', f) := redLevel op l
    let (r, g) := redLevels op n l'
    (r, f.join g)

/-- RED: the lanes, and the flags of the whole tree. -/
def stageRed (op : Nat) (g16 : Bool) (a : List Lane) : List Lane × VFlags :=
  let (r, f) := redLevels op (if g16 then 4 else 8) a
  ((upFrom 0 256).map fun i =>
    if g16 then (if i % 16 = 0 then r.getD (i / 16) Lane.zero else Lane.zero)
    else if i = 0 then r.getD 0 Lane.zero else Lane.zero, f)

/-- The S destination of RED: FP32, or INT rounded to nearest even and saturating; with the INVALID it sets. -/
def redScalar (int : Bool) (l : Lane) : W64 × Bool :=
  if !int then (l.v.setWidth 64, false)
  else
    match f32 l.v with
    | .nan => (0, true)
    | .inf n => (if n then BitVec.ofNat 64 (2 ^ 63) else BitVec.ofNat 64 (2 ^ 63 - 1), false)
    | .fin n m e =>
      let r := roundAt m e 0
      let v : Int := if n then -(r : Int) else r
      (if v > 2 ^ 63 - 1 then BitVec.ofNat 64 (2 ^ 63 - 1) else if v < -(2 ^ 63) then BitVec.ofNat 64 (2 ^ 63)
        else BitVec.ofInt 64 v, false)

/-! ### PACK (04 R124 to R128) -/

def mix64 (z : W64) : W64 :=
  let z := (z ^^^ (z >>> 30)) * 0xBF58476D1CE4E5B9#64
  let z := (z ^^^ (z >>> 27)) * 0x94D049BB133111EB#64
  z ^^^ (z >>> 31)

/-- The stochastic-rounding word of a lane (04 R126). -/
def srWord (seed : W64) (index : Bool) (lcore : Nat) (ccyc base : W64) (lane : Nat) : W32 :=
  let key := if index then mix64 (seed ^^^ 2#64)
    else mix64 (seed ^^^ (BitVec.ofNat 64 lcore <<< 52) ^^^ 1#64)
  let ctr := if index then base + BitVec.ofNat 64 lane else (ccyc <<< 8) ||| BitVec.ofNat 64 lane
  BitVec.ofNat 32 ((mix64 (key ^^^ mix64 ctr)).toNat >>> 32)

/-- The float format of a PACK target; none for an integer target. -/
def packFormat (c : Nat) : Option FpFormat :=
  match c with
  | 0 => some fmtE4M3 | 1 => some fmtE5M2 | 3 => some fmtE3M2 | 4 => some fmtE2M3 | 5 => some fmtE2M1
  | 8 => some fmtBf16 | 9 => some fmtFp16 | _ => none

/-- A magnitude on the grid of step 2^`q`: by RNE, or by SR with a word (04 R125, R127). -/
def roundGrid (sr : Option W32) (m : Nat) (e q : Int) : Nat :=
  match sr with
  | none => roundAt m e q
  | some w =>
    let g := scaleDown m e q
    if q ≤ e then g
    else
      let k := (q - e).toNat
      let f := (m % 2 ^ k) * 2 ^ 32 / 2 ^ k
      if w.toNat < f then g + 1 else g

/-- The largest finite code of a target, without its sign (04 R125). -/
def maxCode (c : Nat) : Nat :=
  match c with
  | 0 => 0x7E | 1 => 0x7B | 3 => 0x1F | 4 => 0x1F | 5 => 0x7 | 8 => 0x7F7F | _ => 0x7BFF

/-- What lies beyond a float target's largest finite value: an infinity, which sets OVERFLOW where the lane was finite (R114), or the
largest value with PACK_SAT. -/
def packOver (c : Nat) (f : FpFormat) (sat neg finite : Bool) : Nat × VFlags :=
  if c = 8 || c = 9 || (c = 1 && !sat) then (infCode f neg, { VFlags.none with overflow := finite })
  else (withSign f neg (maxCode c), { VFlags.none with packSat := true })

/-- An integer target's value: range and saturation. -/
def packInt (c : Nat) (v : Int) : Nat × VFlags :=
  let lo : Int := if c = 2 then -128 else if c = 6 then -8 else 0
  let hi : Int := if c = 2 then 127 else if c = 6 then 7 else 255
  let w := elemWidth c
  if v > hi then (wrapInt hi w, { VFlags.none with packSat := true })
  else if v < lo then (wrapInt lo w, { VFlags.none with packSat := true })
  else (wrapInt v w, VFlags.none)

/-- The code of one lane in a target (04 R125, R127). -/
def packLane (c : Nat) (sat : Bool) (sr : Option W32) (x : W32) : Nat × VFlags :=
  match packFormat c, f32 x with
  | some f, .nan =>
    if c = 8 then (0x7FC0, VFlags.none) else if c = 9 then (0x7E00, VFlags.none)
    else if c ≤ 1 then (0x7F, VFlags.none) else (withSign f false 0, { VFlags.none with packNan := true })
  | some f, .inf n => packOver c f sat n false
  | some f, .fin n m e =>
    let q := gridExp f m e
    match encodeGrid f (roundGrid sr m e q) q with
    | some k => if k > maxCode c then packOver c f sat n true else (withSign f n k, VFlags.none)
    | none => packOver c f sat n true
  | none, .nan => (0, { VFlags.none with packNan := true })
  | none, .inf n => packInt c (if n then -1000 else 1000)
  | none, .fin n m e =>
    let r := roundGrid sr m e 0
    packInt c (if n then -(r : Int) else r)

/-- The element that a lane gives (04 R124). -/
def packElem (split : Bool) (lane : Nat) : Nat := if split then (lane % 2) * 128 + lane / 2 else lane

/-- The lane that gives element `k`. -/
def packLaneOf (split : Bool) (k : Nat) : Nat := if split then 2 * (k % 128) + k / 128 else k

/-- PACK: the lanes of Vd that group `sel` covers, with the flags (04 R124, R134). -/
def stagePack (c sel : Nat) (split sat : Bool) (sr : Nat → Option W32) (a : List Lane) :
    List (Nat × Lane) × VFlags :=
  let w := elemWidth c
  let codes := (upFrom 0 256).map fun k =>
    let i := packLaneOf split k
    let l := a.getD i Lane.zero
    (packLane c sat (sr i) l.v, l.p)
  let img := codes.foldr (fun x acc => x.1.1 + 2 ^ w * acc) 0
  let pois := fun i => codes.zipIdx.any fun x => x.1.2 && (x.2 * w / 32 == i || (x.2 * w + w - 1) / 32 == i)
  ((upFrom 0 (8 * w)).map fun i => (8 * w * sel + i, ⟨BitVec.ofNat 32 (img >>> (32 * i)), pois i⟩),
   codes.foldl (fun f x => f.join x.1.2) VFlags.none)

end Sys2Proof.Machine
end

