-- ==== Sys2Proof/Machine/CoreState.lean ====
section
/-!
DEFINITION. The state of one core, as plain data: registers, scratchpad, tallies, landing unit, matrix and vector
engines, stream engines, message engine, cycle checker and run state (INVENTORY.md, "Every core").
-/

namespace Sys2Proof.Machine

/-! ### Registers (06 R180, 04 R107, R129, R134) -/

/-- An S register with its poison mark. -/
structure SVal where
  v : W64
  p : Bool
  deriving DecidableEq, Repr

/-- An A register with its poison mark. -/
structure AVal where
  v : W48
  p : Bool
  deriving DecidableEq, Repr

/-- A P register with its poison mark. -/
structure PVal where
  v : Bool
  p : Bool
  deriving DecidableEq, Repr

/-- The register files. Lane i of Vn is at key 256 n + i of `v`; word i of OCe at key 256 e + i of `oc`. -/
structure Regs where
  s  : SMap SVal
  a  : SMap AVal
  p  : SMap PVal
  v  : SMap Lane
  oc : SMap Lane
  deriving DecidableEq, Repr

/-! ### What the cycle checker tracks (02 R52) -/

/-- A tracked resource: RKIND 0 S, 1 A, 2 P, 3 V, 4 operand-cache entry, 5 scratchpad line (02 R55), and its number. -/
structure Res where
  kind  : Nat
  index : Nat
  deriving DecidableEq, Repr

/-- What a write brings. -/
inductive Payload where
  /-- An S register. -/
  | s (x : W64) (p : Bool)
  /-- An A register. -/
  | a (x : W48) (p : Bool)
  /-- A P register. -/
  | pr (x : Bool) (p : Bool)
  /-- Lanes of a V register or words of an operand-cache entry. -/
  | lanes (l : List (Nat × Lane))
  /-- Bytes of a scratchpad line from an offset in it, and their poison. -/
  | bytes (off : Nat) (d : List Byte) (p : Bool)
  /-- Unpredictable content (02 R53). -/
  | junk
  deriving DecidableEq, Repr

/-- A write under way: it takes effect at `ready` (02 R43); `vld` says that a VLD writes a V register (04 R132). -/
structure PWrite where
  id    : Nat
  res   : Res
  issue : Nat
  ready : Nat
  eng   : Engine
  kvi   : Nat
  pay   : Payload
  vld   : Bool
  deriving DecidableEq, Repr

/-- An engine's access to a scratchpad line in a ccyc; `dest` is the write under way that it feeds. -/
structure Access where
  time  : Nat
  eng   : Engine
  write : Bool
  line  : Nat
  kvi   : Nat
  dest  : Option Nat
  deriving DecidableEq, Repr

/-- A violation of the schedule (02 R53 to R56). -/
structure Viol where
  time   : Nat
  eng    : Engine
  sub    : Nat
  rkind  : Nat
  rindex : Nat
  a      : Nat
  b      : Nat
  kvi    : Nat
  dest   : Option Nat
  deriving DecidableEq, Repr

/-- A stage unit's use by a chain (04 R131). -/
structure StageUse where
  time  : Nat
  stage : Nat
  kvi   : Nat
  deriving DecidableEq, Repr

/-- The checker. `seen` holds, for each engine, the ccyc after its last issue; `stamps` the engines and stamps of the words taken
whose ccyc has not passed; `wcnt` the audit write counters. -/
structure Checker where
  acc     : List Access
  viol    : List Viol
  stages  : List StageUse
  wcnt    : SMap (BitVec 8)
  chkCnt  : W32
  trip    : Bool
  lastSub : Nat
  seen    : SMap Nat
  stamps  : List (Nat × Nat)
  deriving DecidableEq, Repr

/-! ### Tallies (10) -/

/-- The kinds of change to a tally (10 R285, R287). -/
inductive TKind where
  | set | inc | dec
  deriving DecidableEq, Repr

/-- A change to T `idx`, or to the arrival tally of window `idx`, in the ccyc in progress. -/
structure TChange where
  arrival : Bool
  idx     : Nat
  kind    : TKind
  n       : W32
  eng     : Engine
  kvi     : Nat
  deriving DecidableEq, Repr

/-- The tallies and their registers (10 R308). `chg` holds the changes of the ccyc in progress and `old` the values
that the tallies changed in the ccyc before it held until then: what a TWAIT does not see yet (R286). The arrival tally
of window n is at key 128 + n of `t`. -/
structure Tallies where
  t      : SMap W32
  chg    : List TChange
  old    : SMap (Option W32)
  oldAt  : Nat
  uf     : Bool
  ovf    : Bool
  ovfIdx : Nat
  ufCnt  : W32
  tmoCnt : W32
  wait   : SMap W64
  deriving DecidableEq, Repr

/-! ### Traffic on the planes (01 R32) -/

/-- Who sent a packet: the device, the logical core (0xFF for a hub or the command processor), and whether it came over
an NDX port (05 R164, LD_REJECT_SRC). -/
structure Source where
  dev    : Nat
  core   : Nat
  fabric : Bool
  deriving DecidableEq, Repr

/-- Where an answer goes. -/
inductive Reply where
  /-- Nobody waits. -/
  | none
  /-- A transaction of a core of this device (09 R265). -/
  | core (c txn : Nat)
  /-- A requester on another device: the port its request came by, its device, agent, tag, the request's address, the
  type of the answer, the request's class, and the DEPART and BUDGET of the answer to a VC0 READ (13 R382, R385, R401). -/
  | fabric (port dev agent tag addr ans : Nat) (sched : Bool) (depart budget : Nat)
  /-- A host access; `hpa` or BAR2 offset. -/
  | host (addr : Nat)
  /-- A queue operation of a core's context (11 R326): the operation's code of R347, and the sequence of a send. -/
  | queue (core ctx member op seq : Nat)
  /-- A total of combining queue `qid` of this device (11 R338). -/
  | total (qid : Nat)
  /-- Part of a request that was cut at a granule (08 R227): the request, and the part's place in its data. -/
  | part (id off : Nat)
  deriving DecidableEq, Repr

/-- What a packet to a landing unit is (05 R154, R155). -/
inductive PktKind where
  /-- DMA0 data of this core: no window (R155). -/
  | dma
  /-- The old value of a DATOM: no window (R155). -/
  | datom
  /-- A write by another agent: one open window, and an arrival increment. -/
  | write
  /-- A record or a pad of a queue ring (11 R318): a write; the queue. -/
  | record (qid : Nat)
  /-- A host or command-processor access: no window check, no tally (R163). -/
  | host
  deriving DecidableEq, Repr

/-- Where a packet stands in a transfer whose destinations may coincide (09 R258): the issuing core, the engine, the slot,
the mark of the transfer, and the number of the request. -/
structure Walk where
  core : Nat
  out  : Bool
  slot : Nat
  mark : Nat
  req  : Nat
  deriving DecidableEq, Repr

/-- A packet bound for a landing unit: 0 to 256 payload bytes at a local address (05 R157). `cal` names the pseudo-channel
and the slot that a scheduled read's line comes from (08 R248); `walk` is the place in its transfer (09 R258). -/
structure LinePkt where
  addr   : Nat
  data   : List Byte
  poison : Bool
  sched  : Bool
  src    : Source
  kind   : PktKind
  reply  : Reply
  cal    : Option (Nat × Nat)
  walk   : Option Walk
  deriving DecidableEq, Repr

/-- An atomic operation on 4 or 8 bytes (06 R189, R198), and whether an operand is poisoned (00 R18). -/
structure AtomOp where
  w8  : Bool
  aop : BitVec 3
  sgn : Bool
  b   : W64
  c   : W64
  p   : Bool
  deriving DecidableEq, Repr

/-- What a request asks of memory. -/
inductive MemReq where
  | read (len : Nat)
  | write (data : List Byte) (poison : List Bool)
  | atom (op : AtomOp)
  /-- A patrol scrub of a granule (08 R244). -/
  | scrub
  deriving DecidableEq, Repr

/-- A destination of read data: a core, its local address, and the kind of packet. -/
structure Dest where
  core : Nat
  addr : Nat
  kind : PktKind
  deriving DecidableEq, Repr

/-- A request to a DPA, HBM or a scratchpad: `resv` is the calendar slot a scheduled request carries (08 R234). -/
structure Request where
  dpa   : Nat
  req   : MemReq
  sched : Bool
  resv  : Option Nat
  port  : Nat
  src   : Source
  dests : List Dest
  reply : Reply
  deriving DecidableEq, Repr

/-- An answer to a transaction of a core: its status, and old bytes of an atomic. -/
structure Answer where
  txn    : Nat
  status : Status
  cause  : Nat
  pc     : Nat
  slot   : Nat
  deriving DecidableEq, Repr

/-- A queue operation on its way to a placer, or a combining hub (11 R314, R316, R326, R337). -/
inductive QOp where
  | opn (cls : Nat)
  | close
  | send (seq : Nat) (words : List W64) (poison : Bool)
  | csend (key : W32) (exact : Bool) (x : W128) (poison : Bool)
  /-- A total of a combining queue (11 R338). -/
  | total (seq : Nat) (sat partl : Bool) (words : List W64) (poison : Bool)
  deriving DecidableEq, Repr

/-- A queue request: the handle, the sender's device, core and context, the member of a multicast context, the class of its connection,
and the TBT at which it came to the placer (11 R317). -/
structure QReq where
  handle : Nat
  dev    : Nat
  core   : Nat
  ctx    : Nat
  member : Nat
  cls    : Nat
  op     : QOp
  reply  : Reply
  at0    : Nat
  deriving DecidableEq, Repr

/-- A placer's answer to a core: the status, the operation (5 for credit that comes back), the credit, and, for an
accepted open of a multicast queue, the members' numbers and handles (11 R322, R326, R335). -/
structure QAns where
  core   : Nat
  ctx    : Nat
  member : Nat
  op     : Nat
  status : Status
  credit : Nat
  seq    : Nat
  mcast  : Option (List (Nat × Nat))
  deriving DecidableEq, Repr

/-- What is under way between units of the device. -/
inductive Msg where
  /-- A packet for the landing unit of a core. -/
  | line (core : Nat) (p : LinePkt)
  /-- A read or an atomic for the landing unit of a core. -/
  | remote (core : Nat) (r : Request)
  /-- A request for a hub. -/
  | hub (r : Request)
  /-- An answer for a transaction of a core. -/
  | answer (core : Nat) (a : Answer)
  /-- A queue request for a placer. -/
  | queue (q : QReq)
  /-- A placer's answer for a core. -/
  | qans (a : QAns)
  /-- A packet for the transmit side of a port, its class of the scheduled plane, and the request's issuer. -/
  | fabric (h : Header) (data : List Byte) (sched : Bool) (reply : Reply)
  /-- An answer to whoever asked: its status, the cause and the slot of 09 R280, and what was read. -/
  | reply (r : Reply) (status : Status) (cause pc slot : Nat) (data : List Byte) (poison : Bool)
  /-- A record of a queue has become visible at its ring, or lay outside its window; its sender is answered (11 R321,
  R326). -/
  | placed (qid addr : Nat) (ok : Bool) (r : Reply)
  deriving DecidableEq, Repr

/-! ### Landing unit (05) -/

/-- A landing window: LWn_BASE, LWn_LINES, LWn_CTRL (05 R164). -/
structure Window where
  first : Nat
  count : Nat
  src   : Nat
  ovf   : Bool
  deriving DecidableEq, Repr

def Window.closed : Window := ⟨0, 0, 0, false⟩

/-- A packet held in the landing buffer: its number in order of arrival, the lines not yet placed, and its window. -/
structure Held where
  no    : Nat
  pkt   : LinePkt
  lines : List (Nat × List Byte)
  win   : Option Nat
  deriving DecidableEq, Repr

/-- The write of a landing-unit atomic that has read its line (10 R304): its place, its bytes and their mark, and the answer with
the old value and its mark. -/
structure AtomW where
  addr  : Nat
  data  : List Byte
  p     : Bool
  reply : Reply
  old   : List Byte
  oldP  : Bool
  deriving DecidableEq, Repr

/-- The landing unit and the scratchpad registers (05 R164); `usedR` and `usedW` are the lines that the landing unit
itself has read and written in ccyc `usedAt`; `placed` lists what transfers with coinciding destinations have placed: the
place in the transfer, the address and the length (09 R258). `arrNo` counts arrivals, by which `remote` numbers the reads and
atomics too; `place`, `serve` and `atom` say that lines are placed, a read is served, an atomic begins at the end of the ccyc in
progress, with the stored errors that this meets; `atomW` is the atomic that has still to write. -/
structure Landing where
  win      : SMap Window
  buf      : List Held
  remote   : List (Nat × Request)
  arrNo    : Nat
  place    : Option (List EccObs)
  serve    : Option (List EccObs)
  atom     : Option (List EccObs)
  atomW    : Option AtomW
  rejCnt   : W32
  rejSrc   : W32
  lines    : W64
  hwm      : Nat
  init     : Bool
  ueSeen   : Bool
  ceCnt    : W32
  ueCnt    : W32
  ueLine   : Nat
  usedAt   : Nat
  usedR    : List Nat
  usedW    : List Nat
  placed   : List (Walk × Nat × Nat)
  deriving DecidableEq, Repr

/-! ### Matrix engine (03) -/

/-- An MLDW, MMUL or MRAW under way, with the lines that its feed has read (03 R78). `lines` and `scl` are in the order
read; a line's place in the whole feed is `fed`; `ap` says that the line operand came from a poisoned A register. -/
structure MxOp where
  id    : Nat
  kind  : Nat
  stamp : Nat
  fmt   : Nat
  mx    : Bool
  line  : Nat
  sline : Nat
  n     : Nat
  row   : Nat
  acc   : Bool
  sa    : Int
  kvi   : Nat
  lines : List LineVal
  scl   : List LineVal
  fed   : Nat
  ap    : Bool
  used  : Bool
  bad   : Bool
  ecc   : List EccObs
  rods  : List RodError
  deriving DecidableEq, Repr

/-- The mode and anchor of a beam tile (03 R82). -/
structure TileMode where
  fp32   : Bool
  anchor : Int
  deriving DecidableEq, Repr

def TileMode.reset : TileMode := ⟨true, 0⟩

/-- The matrix engine. The beam's entry of row r, column j is at key 128 r + j. -/
structure Mxe where
  tile    : Tile
  ops     : List MxOp
  loadAt  : Option Nat
  lastEnd : Nat
  beam    : SMap Entry
  modes   : SMap TileMode
  trip    : Bool
  resCnt  : W32
  vecs    : W64
  rodFail : BitVec 132
  rodPend : BitVec 132
  deriving DecidableEq, Repr

/-! ### Vector engine (04) -/

/-- A chain under way: source A (two registers of a RAW pair), the registers and entries read so far, the lanes after the
stages passed, its V write and its S write. `early` lists the violations of the operand-cache reads before a guarded issue. -/
structure VxOp where
  id    : Nat
  kvi   : Nat
  stamp : Nat
  chain : Chain
  f     : VopFields
  a     : List Lane
  b     : List Lane
  sx    : SVal
  guard : Option Guard
  early : List Viol
  cur   : List Lane
  vals  : List (Res × List Lane)
  dest  : Nat
  sdest : Option Nat
  ccyc  : W64
  flags : VFlags
  used  : Bool
  deriving DecidableEq, Repr

/-- A transposing read under way (05 R147): the lines read so far, its sixteen register writes, and whether its A register was
poisoned. -/
structure TrOp where
  id    : Nat
  kvi   : Nat
  src   : List Nat
  tw    : Nat
  dests : List Nat
  lines : List LineVal
  bad   : Bool
  ap    : Bool
  ecc   : List EccObs
  deriving DecidableEq, Repr

/-- The vector engine's own state (04 R136). -/
structure Vxe where
  ops    : List VxOp
  tr     : List TrOp
  lut    : ActTable
  flags  : VFlags
  chains : W64
  seed   : W64
  srSeq  : W64
  poisCnt : W32
  svc    : Bool
  deriving DecidableEq, Repr

/-! ### Stream engines (09) -/

/-- A descriptor slot (09 R254, R282): `desc` is the 128-byte descriptor as held; `at0` the DGO's stamp; `pos` the
stream offset of the next request; `rix` its number in its fill; `mark` tells its transfers apart. -/
structure Slot where
  state  : Nat
  desc   : List Byte
  rctx   : Nat
  gated  : Bool
  cause  : Nat
  head   : Nat
  tail   : Nat
  req    : Nat
  at0    : Nat
  raise  : Bool
  tally  : Nat
  inc    : W32
  pos    : Nat
  rix    : Nat
  fault  : Bool
  kvi    : Nat
  mark   : Nat
  deriving DecidableEq, Repr

def Slot.idle : Slot := ⟨0, [], 0, false, 0, 0, 0, 0, 0, false, 0, 0, 0, 0, false, 0, 0⟩

/-- A transaction of a core (09 R265): its request, and the pieces (packets, members) still to be placed or
acknowledged, `own` of them those that land in this core, and `unpl` those of these that are not yet placed. `cslot` is the slot that
the request carries;
`bytes` is counted on completion; `buf` holds
the lines that an outbound request has read so far, `bad` says that such a read broke the schedule (02 R53). `atom` is the
operation of a DATOM, and `sent` says that the request has left: a DATOM may wait (R265, 10 R296). -/
structure Txn where
  id    : Nat
  out   : Bool
  slot  : Nat
  fill  : Nat
  req   : Nat
  sched : Bool
  datom : Bool
  left  : Nat
  own   : Nat
  unpl  : Nat
  cslot : Nat
  bytes : Nat
  addr  : Nat
  lcl   : Nat
  rctx  : Nat
  dead  : Bool
  raise : Bool
  tally : Nat
  kvi   : Nat
  atom  : Option AtomOp
  sent  : Bool
  buf   : List LineVal
  bad   : Bool
  ecc   : List EccObs
  walk  : Option Walk
  deriving DecidableEq, Repr

/-- The stream engines of a core: DMA0 slot s at key s of `slots`, DMA1 slot s at key 16 + s. -/
structure DmaUnit where
  slots    : SMap Slot
  txns     : List Txn
  hwm      : Nat
  errCnt   : W32
  bytesIn  : W64
  bytesOut : W64
  deriving DecidableEq, Repr

/-! ### Message engine (11) -/

/-- A connection of a sender context: the member's number (64 for the context's own queue), its handle, and the credit that
is left (11 R322, R335). -/
structure SMember where
  idx    : Nat
  handle : Nat
  credit : Nat
  deriving DecidableEq, Repr

/-- A sender context (11 R313): state 0 CLOSED, 1 OPENING, 2 OPEN, 3 CLOSING; `members` holds the queue, or the members of
a multicast queue. -/
structure SCtx where
  state   : Nat
  cls     : Nat
  handle  : Nat
  seq     : W32
  mcast   : Bool
  members : List SMember
  deriving DecidableEq, Repr

def SCtx.closed : SCtx := ⟨0, 0, 0, 0, false, []⟩

/-- An operation that is not yet answered: its context, sequence, code, tally, and the answers still to come (0 for a close
that waits for the sends of its context); `el` says that it is an elastic send or open (11 R325), `bad` that a member has refused it
(R335). -/
structure SendOut where
  ctx   : Nat
  seq   : Nat
  op    : Nat
  raise : Bool
  tally : Nat
  left  : Nat
  rctx  : Nat
  kvi   : Nat
  el    : Bool
  bad   : Bool
  deriving DecidableEq, Repr

/-- A send or open that waits (11 R323, R325): what it becomes, the credit that it takes, and what it sends. -/
structure QWait where
  out  : SendOut
  size : Nat
  msgs : List Msg
  deriving DecidableEq, Repr

/-- The running handler: its index, queue, record, the ccyc of its dispatch, its budget. -/
structure Handler where
  hidx   : Nat
  qid    : Nat
  recNo  : Nat
  at0    : Nat
  budget : Nat
  deriving DecidableEq, Repr

/-- The message engine (11 R344). -/
structure Mse where
  ctx     : SMap SCtx
  outs    : List SendOut
  wait    : Option QWait
  handler : Option Handler
  sent    : W64
  disp    : W64
  curHdr  : W64
  noHdl   : W32
  qfCnt   : W32
  readers : List Nat
  held    : Bool
  deriving DecidableEq, Repr

/-! ### Run state -/

/-- What an engine waits for, and so what ends a hold or a wait (10 R291, R292). -/
inductive Await where
  /-- TWAIT: a tally reaches n. -/
  | tally (arrival : Bool) (idx : Nat) (n : W32)
  /-- A ring gate of a DMA engine's slot (09 R271). -/
  | gate (idx : Nat) (n : W32) (slot : Nat)
  /-- A FENCE (06 R187, 10 R300). -/
  | fence (kind scope : Nat)
  /-- Credit, or the limit of 11 R325: the QID, and the credit that the send takes. -/
  | queue (qid size : Nat)
  deriving DecidableEq, Repr

/-- A hold of the core (02 R48), or a wait of one engine in service mode: the engine, what it awaits, the ccyc in which
it began, and its timeout. -/
structure Wait where
  eng   : Engine
  what  : Await
  start : Nat
  tmo   : Option Nat
  kvi   : Nat
  deriving DecidableEq, Repr

/-- A run context (09 R277): the job and the run's index. -/
structure RunCtx where
  used : Bool
  job  : Nat
  run  : Nat
  done : Bool
  deriving DecidableEq, Repr

def RunCtx.free : RunCtx := ⟨false, 0, 0, false⟩

/-- Why a core has stopped (16 R494 STOP). -/
inductive Stop where
  | no | own | job | deadline
  deriving DecidableEq, Repr

/-- What the core executes. Of several engines that begin to wait at one stamp the first has the `hold`, the others stand in `waits`.
Without a hold `waits` are the waits of engines in service mode. `mode` is CC_STATUS.MODE without the hold: 0 idle, 1 scheduled, 2
service. `begin0` is the
first ccyc of the block; `succ` the branch's choice; `after` the run's successor block that waits for the dispatch of the records below
`upTo` (11 R328), or at a stop point; `hnext` the next block of a handler that waits at a stop point (12 R361); `startCtx` the run
context whose block 0 waits for a handler since ccyc `startAt` (R331); `replay` says that the ccyc in which a hold began counts as hold
(09 R271), so that the pipelines' time stands for one ccyc more. -/
structure RunState where
  mode    : Nat
  block   : Nat
  begin0  : Nat
  replay  : Bool
  succ    : Option Nat
  after   : Option Nat
  hnext   : Option Nat
  upTo    : Nat
  startCtx : Option Nat
  startAt : Nat
  job     : Nat
  run     : Nat
  image   : Nat
  det     : Bool
  audit   : Bool
  ctx     : Nat
  c0      : RunCtx
  c1      : RunCtx
  hold    : Option Wait
  waits   : List Wait
  stop    : Stop
  stopAt  : Nat
  runCcyc : W64
  holdCcyc : W64
  progress : Nat
  slip    : Bool
  deriving DecidableEq, Repr

/-! ### Events already fixed -/

/-- What the pipelines of a core do at a fixed ccyc of their time. -/
inductive PEv where
  /-- The MXE's feed reads line u (scale line u when `scale`). -/
  | feed (op : Nat) (scale : Bool) (u : Nat)
  /-- A weight load begins, and ends. -/
  | loadBegin (op : Nat)
  | loadEnd (op : Nat)
  /-- Input vector q enters bead row 0. -/
  | vector (op q : Nat)
  /-- Column results reach a beam row; an empty list for results that are unpredictable (02 R53). `faults` lists, for each
rod error, the residues that the check expects of the term and of the bead product, and whether the product is exact. -/
  | beam (row : Nat) (acc : Bool) (cols : List ColRes) (faults : List (RodError × Nat × Nat × Bool)) (kvi : Nat)
  /-- Raw values reach a beam row; an empty list for unpredictable ones. -/
  | raw (row : Nat) (sa : Int) (vals : List (W128 × Bool))
  /-- MANC or MCLR takes effect. -/
  | clear (tile : Nat) (mode : TileMode)
  /-- A chain reads an operand-cache entry. -/
  | ocRead (op entry : Nat)
  /-- A chain issues (k = 0), or enters stage k; the last gives the result. -/
  | stage (op k : Nat)
  /-- A transposing read reads its lines 4k to 4k + 3; with k = 16 its registers are known. -/
  | transpose (op k : Nat)
  /-- The activation table of a LUTLD comes into use. -/
  | lut (t : ActTable)
  /-- DMA1 reads a line of a request; the last one sends it. -/
  | dmaLine (txn : Nat) (k : Nat)
  deriving DecidableEq, Repr

/-- What happens at a fixed ccyc of the island's time, holds or not (02 R48). -/
inductive NEv where
  /-- A landing line becomes visible. -/
  | place (addr : Nat) (d : List Byte) (poison : Bool)
  /-- A packet's last line is visible: the arrival tally, the acknowledgement. -/
  | arrive (win : Option Nat) (p : LinePkt)
  /-- The write of an atomic is visible: its requester gets the old value. -/
  | atomDone (r : Reply) (old : List Byte) (p : Bool)
  deriving DecidableEq, Repr

/-- A fault that a core raises, before the log gives it its index (16 R481), with the run context it belongs to. -/
structure RawFault where
  cls   : Nat
  stop  : Bool
  eng   : Nat
  kvi   : Nat
  ccyc  : W64
  spec0 : W64
  spec1 : W64
  status : Status
  rctx  : Nat
  deriving DecidableEq, Repr

/-- The time of a core island: `now` counts its ccyc, `p` those in which its pipelines moved (holds left out). -/
structure CTime where
  now : Nat
  p   : Nat
  deriving DecidableEq, Repr

/-- One core. `fc` is the free-value counter while a command acts on the core, 0 between commands; `flt` and `tx` hand faults and
messages to the rest of the device; both are empty between commands. -/
structure Core where
  tm    : CTime
  regs  : Regs
  mem   : SMap Byte
  pois  : SMap Bool
  pend  : List PWrite
  pev   : List (Nat × PEv)
  nev   : List (Nat × NEv)
  ck    : Checker
  tl    : Tallies
  lu    : Landing
  mx    : Mxe
  vx    : Vxe
  dm    : DmaUnit
  ms    : Mse
  rn    : RunState
  ids   : Nat
  fc    : Nat
  flt   : List RawFault
  tx    : List Msg
  deriving DecidableEq, Repr

def Core.reset : Core where
  tm := ⟨0, 0⟩
  regs := ⟨[], [], [], [], []⟩
  mem := []
  pois := []
  pend := []
  pev := []
  nev := []
  ck := ⟨[], [], [], [], 0, false, 0, [], []⟩
  tl := ⟨[], [], [], 0, false, false, 0, 0, 0, []⟩
  lu := ⟨[], [], [], 0, none, none, none, none, 0, 0, 0, 0, true, false, 0, 0, 0, 0, [], [], []⟩
  mx := ⟨Tile.zero, [], none, 0, [], [], false, 0, 0, 0, 0⟩
  vx := ⟨[], [], ActTable.zero, VFlags.none, 0, 0, 0, 0, false⟩
  dm := ⟨[], [], 0, 0, 0, 0⟩
  ms := ⟨[], [], none, none, 0, 0, 0, 0, 0, [], false⟩
  rn := ⟨0, 0, 0, false, none, none, none, 0, none, 0, 0, 0, 0, false, false, 0, RunCtx.free, RunCtx.free, none, [], .no, 0, 0, 0, 0, false⟩
  ids := 0
  fc := 0
  flt := []
  tx := []

end Sys2Proof.Machine
end

