-- ==== Sys2Proof/Machine/DevState.lean ====
section
/-!
DEFINITION. The state of the rest of the device, as plain data: programs and jobs, memory calendars, queues, clocks,
ports, rings, faults and management (INVENTORY.md).
-/

namespace Sys2Proof.Machine

/-! ### Programs and jobs (06, 15) -/

/-- A BLOCKS entry (06 R172). -/
structure Block where
  length : Nat
  next   : Nat
  mode   : Nat
  start  : List Nat
  deriving DecidableEq, Repr

/-- A HANDLERS entry (11 R327). -/
structure HandlerEntry where
  block  : Nat
  valid  : Bool
  budget : Nat
  deriving DecidableEq, Repr

/-- An audit tag (07 R211). -/
structure AuditTag where
  word  : Nat
  eng   : Nat
  rkind : Nat
  all   : Bool
  lpos  : Nat
  ridx  : Nat
  gen   : Nat
  deriving DecidableEq, Repr

/-- A core image: its tables, after relocation (06 R170). `descs` holds, for each entry, one copy a buffer set
(15 R464). -/
structure CoreImage where
  streams  : List (List W128)
  blocks   : List Block
  chains   : List Nat
  descs    : List (List (List Byte))
  windows  : List (Nat × Nat × Nat)
  handlers : List HandlerEntry
  audit    : List AuditTag
  deriving DecidableEq, Repr

def CoreImage.empty : CoreImage := ⟨[], [], [], [], [], [], []⟩

/-- A binding (15 R461). -/
structure Binding where
  kind  : Nat
  role  : Nat
  sets  : Nat
  value : Nat
  size  : Nat
  param : Nat
  slot  : Nat
  deriving DecidableEq, Repr

/-- A run of a job (00 R23): its index, start instant, buffer set, deadline in µs,
the cores that have not begun and those that have not reached END, what its record reports, the die events granted when its first
scheduled ccyc came and when it ended (12 R355), the
first SLIP and POISON_USE record of it, the fault that ends it (TBT, core, index, status), and the ring, tag and class of its record. -/
structure Run where
  idx      : Nat
  start    : Nat
  set      : Nat
  deadline : Nat
  delay    : Nat
  toBegin  : List Nat
  toEnd    : List Nat
  hold     : Nat
  ccyc     : Nat
  stretch0 : Option Nat
  stretch1 : Nat
  slip     : Option Nat
  poison   : Option Nat
  halted   : Bool
  fault    : Option (Nat × Nat × Nat × Status)
  op       : Nat
  pcap     : Nat
  ring     : Nat
  tag      : Nat
  cls      : Nat
  deriving DecidableEq, Repr

/-- A start that waits for its TBT (14 R443). -/
structure PendStart where
  cmd      : Nat
  tbt      : Nat
  set      : Nat
  deadline : Nat
  deriving DecidableEq, Repr

/-- The parameters of START_PERIODIC (12 R372, 15 R470). -/
structure Periodic where
  num      : Nat
  den      : Nat
  epoch    : Nat
  nsets    : Nat
  limit    : Nat
  deadline : Nat
  tick     : Nat
  tag      : Nat
  cls      : Nat
  stopped  : Bool
  deriving DecidableEq, Repr

/-- A job slot (14 R445, 15 R457). `images` are the core images as patched at ARM, `base` as LOAD left them; `calRel` lists the
RELOC entries of kind CAL_SLOT with their bindings (15 R466). -/
structure Job where
  state     : Nat
  det       : Bool
  periodic  : Bool
  audit     : Bool
  ring      : Nat
  runs      : W64
  fwpriv    : Bool
  isa3      : Bool
  op        : Nat
  seed      : W64
  placement : List Nat
  images    : List CoreImage
  base      : List CoreImage
  calRel    : List (Nat × Nat)
  bindings  : List Binding
  sets      : Nat
  mcGroups  : List (Nat × Nat)
  circuits  : List (Nat × Nat)
  progId    : W64
  progDg    : List Byte
  wgtDg     : List Byte
  digest    : Nat
  fabSched  : Bool
  runIdx    : Nat
  live      : List Run
  starts    : List PendStart
  per       : Option Periodic
  stopCmd   : List Nat
  lastStretch : W64
  lastEnd   : W64
  faulting  : Bool
  deriving DecidableEq, Repr

def Job.empty : Job where
  state := 0
  det := false
  periodic := false
  audit := false
  ring := 0
  runs := 0
  fwpriv := false
  isa3 := false
  op := 0
  seed := 0
  placement := []
  images := []
  base := []
  calRel := []
  bindings := []
  sets := 0
  mcGroups := []
  circuits := []
  progId := 0
  progDg := []
  wgtDg := []
  digest := 0
  fabSched := false
  runIdx := 0
  live := []
  starts := []
  per := none
  stopCmd := []
  lastStretch := 0
  lastEnd := 0
  faulting := false

/-! ### Memory calendars (08) -/

/-- A calendar entry (08 R249 CALq_n): KIND, RES, PEND, and the kind and reservation that the pending change brings. -/
structure CalEntry where
  kind  : Nat
  res   : Nat
  pend  : Bool
  kind2 : Nat
  res2  : Nat
  deriving DecidableEq, Repr

def CalEntry.elastic : CalEntry := ⟨0, 0, false, 0, 0⟩

/-- A reservation (08 R230, R249): its queues, by pseudo-channel, in arrival order (R235); requests served and the highest
depth, by hub; `gone` says that it is released (R233). -/
structure Resv where
  valid  : Bool
  dir    : Nat
  runs   : Nat
  maxgap : Nat
  job    : Nat
  first  : Nat
  pcs    : List Nat
  cores  : List Nat
  queues : SMap (List Request)
  served : SMap W32
  hwm    : SMap Nat
  gone   : Bool
  deriving DecidableEq, Repr

def Resv.free : Resv := ⟨false, 0, 0, 0, 0, 0, [], [], [], [], [], false⟩

/-- An elastic request in a pseudo-channel's queue: its source 0 C-die, 1 port, 2 host, 3 hub (08 R242). -/
structure ElReq where
  src : Nat
  req : Request
  deriving DecidableEq, Repr

/-- The elastic queue of a pseudo-channel, and the source whose turn comes next. -/
structure ElQueue where
  reqs : List ElReq
  turn : Nat
  deriving DecidableEq, Repr

def ElQueue.empty : ElQueue := ⟨[], 0⟩

/-- Lines on their way from a pseudo-channel: the slot's TBT, the slot, the line's bytes, and the request (08 R239). -/
structure Egress where
  pc   : Nat
  slot : Nat
  tbt  : Nat
  off  : Nat
  data : List Byte
  pois : Bool
  req  : Request
  deriving DecidableEq, Repr

/-- A write acknowledgement that leaves at a TBT (08 R238). -/
structure WrAck where
  id    : Nat
  tbt   : Nat
  pc    : Nat
  slot  : Nat
  sched : Bool
  reply : Reply
  bytes : Nat
  deriving DecidableEq, Repr

/-- A combining entry (11 R337): queue and key, the 160-bit sum, count, tag, poison, the TBT of its first
contribution, and whether it is a reserved one. -/
structure CombEntry where
  qid    : Nat
  key    : Nat
  sum    : Int
  count  : Nat
  tag    : Tag
  poison : Bool
  first  : Nat
  resv   : Bool
  deriving DecidableEq, Repr

/-- One hub (08 R249, 11 R346). -/
structure Hub where
  stackUp  : BitVec 3
  calRun   : Bool
  init     : Bool
  cfence   : Bool
  therm    : Bool
  frame    : W64
  ceCnt    : W32
  ueCnt    : W32
  ueDpa    : W64
  slipCnt  : W32
  misCnt   : W32
  ovrCnt   : W32
  lentCnt  : W32
  elHwm    : Nat
  temp     : Nat
  tempStk  : Nat
  comb     : List CombEntry
  combRes  : Nat
  combHwm  : Nat
  combRef  : W32
  combDel  : W64
  combPar  : W32
  deriving DecidableEq, Repr

def Hub.reset : Hub :=
  ⟨0, false, true, false, false, 0, 0, 0, 0, 0, 0, 0, 0, 0, 0, 0, [], 0, 0, 0, 0, 0⟩

/-- A request of another device that was cut at a granule: the parts still to come, the data come, its poison, the first status that
was not OK with its cause, pseudo-channel and slot, and who is answered. -/
structure Join where
  left   : Nat
  parts  : List (Nat × List Byte)
  poison : Bool
  bad    : Option (Status × Nat × Nat × Nat)
  reply  : Reply
  deriving DecidableEq, Repr

/-- The memory subsystem: HBM bytes by DPA, poison by burst, calendars by 64 p + n, reservations, elastic queues,
lines and acknowledgements under way, bursts that await the poison codeword by pseudo-channel, the last run that each
pseudo-channel cut off (its number since TBT 0, plus 1), and how often each burst was corrected. -/
structure Hbm where
  mem    : SMap Byte
  pois   : SMap Bool
  cal    : SMap CalEntry
  resv   : SMap Resv
  el     : SMap ElQueue
  egress : List Egress
  acks   : List WrAck
  store  : List (Nat × Nat)
  last   : SMap Nat
  fixed  : SMap Nat
  deriving DecidableEq, Repr

/-! ### Queues (11) -/

/-- A connection at a placer (11 R314, R322). -/
structure Conn where
  dev    : Nat
  core   : Nat
  ctx    : Nat
  member : Nat
  cls    : Nat
  deriving DecidableEq, Repr

/-- A record that a placer has placed (11 R318, R328): its count, size, header, words, whether in the spill ring, the
core it is assigned to, the connection whose credit it holds, and whether it is released. -/
structure PRec where
  no     : Nat
  at0    : Nat
  size   : Nat
  hdr    : W64
  words  : List W64
  spill  : Bool
  core   : Option Nat
  conn   : Option Conn
  pad    : Bool
  ready  : Bool
  done   : Bool
  deriving DecidableEq, Repr

/-- A queue: its descriptor (11 R312) and its placer's state (R313, R324). -/
structure Queue where
  state   : Nat
  kind    : Nat
  group   : Bool
  policy  : Nat
  hbm     : Bool
  rlog    : Nat
  hmode   : Bool
  bal     : Bool
  fab     : Bool
  exact   : Bool
  home    : Nat
  reader  : Nat
  hidx    : Nat
  job     : Nat
  rbase   : Nat
  sbase   : Nat
  scred   : Nat
  maxconn : Nat
  slog    : Nat
  head    : Nat
  tail    : Nat
  drops   : W32
  refused : W32
  expect  : Nat
  ctmo    : Nat
  dq      : Nat
  anchor  : Nat
  keys    : Nat
  members : List (Nat × Nat)
  conns   : List Conn
  recs    : List PRec
  shead   : Nat
  stail   : Nat
  totals  : Nat
  deriving DecidableEq, Repr

def Queue.zero : Queue where
  state := 0
  kind := 0
  group := false
  policy := 0
  hbm := false
  rlog := 0
  hmode := false
  bal := false
  fab := false
  exact := false
  home := 0
  reader := 0
  hidx := 0
  job := 0
  rbase := 0
  sbase := 0
  scred := 0
  maxconn := 0
  slog := 0
  head := 0
  tail := 0
  drops := 0
  refused := 0
  expect := 0
  ctmo := 0
  dq := 0
  anchor := 0
  keys := 0
  members := []
  conns := []
  recs := []
  shead := 0
  stail := 0
  totals := 0

/-! ### Clocks and time (12) -/

/-- A clock island: CK_ISLi (12 R374), the ccyc of its last stretch and of its last independent one, the stretches taken
since calibration (R352 to R354), a notice that PL has not granted, and the corrections of its timebase copy (R364). -/
structure Island where
  present : Bool
  clocked : Bool
  pend    : Nat
  slipped : Bool
  failed  : Bool
  xlat    : Nat
  last    : Option Nat
  indep   : Option Nat
  taken   : Nat
  notice  : Bool
  skew    : Nat
  deriving DecidableEq, Repr

def Island.off : Island := ⟨false, false, 0, false, false, 0, none, none, 0, false, 0⟩

/-- Clocks and time (12 R374). `plNow` counts PL's ccyc, `plLast` is that of its last die event. `change` is a change of
operating point that waits or is under way: the point, who asked (a command, or the throttle), and when; `joined` holds the
SET_OP commands that come after it (17 R515). `valid` counts the valid edges in a row within 8 ticks (R366), `steps` the
steps that are due, `timeAt` the TBT of the last time message, `offset` the count's last offset from its reference (R366, R367), `latch`
holds TM_TBT[63:32] for the next read of the upper word, `aligned` says that the first alignment has been, `stepped` that the count has
been stepped (R365). -/
structure Clocks where
  tbt      : W64
  run      : Bool
  latch    : Option W32
  master   : Bool
  locked   : Bool
  holdover : Bool
  refLost  : Bool
  ppsSeen  : Bool
  stopped  : Bool
  op       : Nat
  hostOp   : Nat
  change   : Option (Nat × Option Nat × Nat)
  joined   : List Nat
  stopAt   : Nat
  ppsTbt   : W64
  ppsErr   : W32
  steer    : W32
  holdTbt  : W64
  ppsBad   : W32
  syncErr  : W32
  upstream : W32
  stretch  : W64
  indepCnt : W32
  slipCnt  : W32
  opChg    : W32
  lastStop : W32
  isl      : SMap Island
  plNow    : Nat
  plLast   : Option Nat
  valid    : Nat
  lastPps  : Option Nat
  ppsOut   : Bool
  lost     : List Reference
  steps    : List (Nat × Int)
  aligned  : Bool
  stepped  : Bool
  timeAt   : Option Nat
  offset   : Option Int
  deriving DecidableEq, Repr

/-! ### Fabric (13) -/

/-- What a VC3 packet of this device carries (13 R382; notes/assumptions/64.md). -/
inductive Own where
  | time (b : TimeBody)
  | mgmt (b : MgmtBody)
  | auth (b : AuthBody)
  deriving DecidableEq, Repr

/-- A packet at a port: its header (CIRC is the circuit's ID at this device until the packet leaves), payload, scheduled class, the TBT of
its arrival, the port by which it came from another device, how often it was replayed, who waits for its answer, and what it carries in
VC3. -/
structure TxPkt where
  hdr   : Header
  data  : List Byte
  sched : Bool
  at0   : Nat
  via   : Option Nat
  reps  : Nat
  reply : Reply
  own   : Option Own
  deriving DecidableEq, Repr

/-- An aperture (13 R407): APn_CTRL, APn_BASE, APn_LIMIT. -/
structure Aperture where
  ctrl  : W64
  base  : W64
  limit : W64
  deriving DecidableEq, Repr

def Aperture.none : Aperture := ⟨0, 0, 0⟩

/-- A fabric calendar entry (13 R415 FCALs). -/
structure FCal where
  res   : Bool
  circ  : Nat
  pend  : Bool
  res2  : Bool
  circ2 : Nat
  deriving DecidableEq, Repr

def FCal.free : FCal := ⟨false, 0, false, false, 0⟩

/-- One NDX port (13 R415). `txq` and `waitq` hold the packets admitted, and those not yet admitted (R398); `replayQ` those that
no ACKSEQ covers, `again` the SEQs to be replayed (R387). `acks` lists the entries of the next ACKs: device, class, TAG, agent,
STATUS. `bad` counts each lane's windows above the limit in a row, `counts` its errors of the last window, `ueTbt` the times
of uncorrectable codewords (R404); `drops` are the aperture drops of the millisecond (R408); `busy` is the end of the packet
on the wire; `asym` is the link's asymmetry, `tDep` and `tArr` the TBT at which the last time packet left and came (12 R367); `slotSeen`
the last fabric slot that was served, `lastInj` the last injection above THRESH, `credAt` the last
credit of each VC. -/
structure Port where
  state    : Nat
  cause    : Nat
  width    : Nat
  spare    : Bool
  enc      : Bool
  authOk   : Bool
  calSusp  : Bool
  cfg      : W32
  active   : BitVec 5
  failed   : BitVec 5
  peer     : W32
  dly      : Nat
  since    : Nat
  txPkt    : W64
  rxPkt    : W64
  replays  : W32
  replay2  : W32
  crcCnt   : W32
  fecUe    : W32
  apDrop   : W32
  spoof    : W32
  lateCnt  : W32
  lentCnt  : W32
  badPkt   : W32
  qhwm     : W32
  cal      : SMap FCal
  ap       : SMap Aperture
  txq      : List TxPkt
  replayQ  : List TxPkt
  again    : List Nat
  nak      : Option Nat
  seqTx    : Nat
  seqRx    : Nat
  credit   : List Nat
  owed     : List Nat
  acks     : List (Nat × Bool × Nat × Nat × Nat)
  bad      : List Nat
  ueTbt    : List Nat
  drops    : Nat
  retrain  : Bool
  cert     : List Byte
  nonces   : List Byte
  key      : List Byte
  encCount : W64
  lastInj  : Nat
  waitq    : List TxPkt
  busy     : Nat
  slotSeen : Nat
  credAt   : List Nat
  counts   : List Nat
  asym     : Int
  tDep     : Option Nat
  tArr     : Option Nat
  deriving DecidableEq, Repr

/-- A circuit entry (13 R416 CIRCc). -/
structure Circ where
  valid  : Bool
  origin : Bool
  term   : Bool
  out    : Nat
  next   : Nat
  dst    : Nat
  core   : Nat
  nslot  : Nat
  fgap   : Nat
  budget : Nat
  cnt    : W32
  job    : Nat
  gone   : Bool
  deriving DecidableEq, Repr

def Circ.none : Circ := ⟨false, false, false, 0, 0, 0, 0, 0, 0, 0, 0, 0, false⟩

/-- A request to another device that awaits its answer: its tag and agent (13 R381: a tag is unique among an agent's), the port
it left by, who asked, its class, the device, its type. -/
structure OutReq where
  tag   : Nat
  agent : Nat
  port  : Nat
  reply : Reply
  sched : Bool
  dev   : Nat
  type  : Nat
  deriving DecidableEq, Repr

/-- A destination whose route has changed (13 R390): the device, the port that still has to drain, and the packets and entries of
acknowledgements that wait for it. -/
structure Moved where
  dev  : Nat
  port : Nat
  pkts : List TxPkt
  acks : List (Nat × Bool × Nat × Nat × Nat)
  deriving DecidableEq, Repr

/-- The device fabric block and the master's tables (13 R410 to R416). `map` and `ids` are the cluster map and the IDs assigned,
by serial; `heard` and `sent` the TBT of the last heartbeat; `newRt` route entries that wait for the frame boundary; `moved` the
destinations whose new packets wait for the old port to drain (R390); `inq` the requests of other devices that have not been answered, in
the order in which they came (R389); `frame` the frame in progress. -/
structure Fabric where
  devId    : Nat
  idValid  : Bool
  role     : Nat
  epoch    : Nat
  masterId : Nat
  dropIdx  : Nat
  drops    : SMap (W64 × W64)
  rt       : SMap W32
  circ     : SMap Circ
  map      : List (List Byte × Nat)
  ids      : List (List Byte × Nat)
  heard    : Nat
  sent     : Nat
  newRt    : List (Nat × W32)
  moved    : List Moved
  inq      : List Reply
  out      : List OutReq
  frame    : Nat
  deriving DecidableEq, Repr

/-! ### Host interface (14) -/

/-- A completion record that waits for its ring (14 R437). -/
structure CRec where
  tag     : Nat
  status  : Status
  delayed : Bool
  cls     : Nat
  dvalid  : Bool
  runrec  : Bool
  detail  : W32
  start   : W64
  info    : W64
  notify  : Bool
  deriving DecidableEq, Repr

/-- A command, queued or executing: the TBT of its doorbell, of its admission, and of its execution's beginning; the deferral
limit of its ring at its fetch, in ms (14 R434); `mute` says that its record is discarded (14 R456), `acted` that it
has acted and waits for its end. -/
structure Cmd where
  id    : Nat
  ring  : Nat
  p     : Packet
  cls   : Nat
  bell  : Nat
  admitAt : Nat
  begin0 : Nat
  delay : Nat
  defer : Nat
  mute  : Bool
  acted : Bool
  deriving DecidableEq, Repr

/-- A submission and completion ring (14 R429 to R434): `waiting` holds the records still to be written, `open_` counts the
fetched commands without a record, `bell` is the TBT of the last doorbell. RINGr_DEFER stands in `Cfg`. -/
structure Ring where
  sqbase  : W64
  cqbase  : W64
  ctrl    : W32
  head    : W32
  cqtail  : W32
  sqTail  : W32
  cqHead  : W32
  waiting : List CRec
  open_   : Nat
  bell    : Nat
  deriving DecidableEq, Repr

def Ring.zero : Ring := ⟨0, 0, 0, 0, 0, 0, 0, [], 0, 0⟩

/-- An HDM decoder (14 R424); `map` is the DPA that its committed window maps to, as HDMn_DPA gave it at the commit
(notes/assumptions/59.md). -/
structure Hdm where
  dpa    : W64
  base   : Nat
  size   : Nat
  commit : Bool
  err    : Bool
  map    : Nat
  deriving DecidableEq, Repr

/-- The command processor and the host port (14). `flip` is a bias flip in progress: its first page, its pages, and whether to
device bias; `bias` is true for a page in device bias; `drain` is the DRAIN that waits, with the TBT of its timeout (0 none). -/
structure HostIf where
  state    : Nat
  cxl      : Bool
  width    : Nat
  rate     : Nat
  fcause   : Nat
  hdm0     : Hdm
  hdm1     : Hdm
  bias     : SMap Bool
  biasPage : W64
  biasN    : W32
  biasDir  : Bool
  flip     : Option (Nat × Nat × Bool)
  biasErr  : Bool
  rings    : SMap Ring
  fwrun    : Bool
  cqLost   : W32
  elastic  : List Cmd
  bulk     : List Cmd
  stalled  : List Cmd
  exec     : List Cmd
  drain    : Option (Nat × Nat)
  keys     : List (List Byte)
  fwVer    : W32
  trVer    : W32
  deriving DecidableEq, Repr

/-- Registers that the host writes and the device stores clamped (14 R434, 16 R488, 17 R511) or whole. A ring that `defer` does
not list holds 100. -/
structure Cfg where
  wdLimit : Nat
  defer   : SMap Nat
  bar2Sel : Nat
  rsAuto  : Bool
  pcap    : Nat
  mbLen   : Nat
  deriving DecidableEq, Repr

/-! ### Faults, capture, reset (16) -/

/-- A fault record of the log (16 R481). -/
structure FRec where
  cls    : Nat
  stop   : Bool
  capt   : Bool
  ack    : Bool
  source : Nat
  seq    : W32
  tbt    : W64
  ccyc   : W64
  kvi    : W32
  loc    : W32
  prog   : W64
  run    : W64
  spec0  : W64
  spec1  : W64
  deriving DecidableEq, Repr

/-- The fault and capture block (16 R503). The log's record i is at key i; `capIdx` is the record that triggered the capture, 0xFFFF
where none did; `stops` the instants at which cores have stopped. -/
structure Faults where
  log     : SMap (Option FRec)
  head    : Nat
  seq     : W32
  lost    : W32
  capV    : Bool
  capL    : Bool
  capB    : Bool
  capC    : Bool
  capT    : Nat
  capSkip : W32
  capTbt  : W64
  capCores : List Nat
  capCmd  : Option Nat
  capIdx  : Nat
  rsBusy  : Nat
  rsCount : W32
  rsLast  : W32
  rsCmds  : List Nat
  rsT0    : Nat
  autoAt  : Option Nat
  spare   : SMap Nat
  pendCore : List Nat
  stops   : List (Nat × Nat)
  deriving DecidableEq, Repr

/-! ### Management (17) -/

/-- A ledger entry (17 R517). -/
structure LEntry where
  tbt  : W64
  seq  : W32
  type : Nat
  data : List Byte
  deriving DecidableEq, Repr

/-- An SPDM session's state (17 R504, R505). -/
structure Spdm where
  version : Bool
  algo    : Bool
  session : Bool
  final   : Bool
  key     : List Byte
  transcript : List Byte
  deriving DecidableEq, Repr

/-- A digest record under way or in the ring (15 R475). `ins` and `outs` are the ranges of HBM, address and length, that its
INPUT and OUTPUT digests are over (R477). -/
structure Digest where
  state  : Nat
  job    : Nat
  status : Status
  sign   : Bool
  skip   : Bool
  run    : Nat
  start  : W64
  stop   : W64
  ccyc   : W64
  stretch : W64
  config : W128
  prog   : List Byte
  wgt    : List Byte
  inp    : List Byte
  outp   : List Byte
  sig    : List Byte
  set    : Nat
  ins    : List (Nat × Nat)
  outs   : List (Nat × Nat)
  deriving DecidableEq, Repr

def Digest.empty : Digest := ⟨0, 0, .ok, false, false, 0, 0, 0, 0, 0, 0, [], [], [], [], [], 0, [], []⟩

/-- The MSS (17). `queue` holds the requests of the mailbox and of MSS commands that it has not served, oldest first (R506); `tid` is the
PLDM terminus ID. `lastThr` is the TBT of the last throttle step, `lastBad` the last at which the limits of R514 did not hold. `fltSec`
and `fltCnt` count the fault copies of the second in progress (16 R485). Flash content that a package reset keeps: the remap record, the
ledger, the image, the roots, the
chain; fuses: the SVN, and the rods disabled at manufacture (03 R104). -/
structure MssState where
  up       : Bool
  restart  : Bool
  throttle : Nat
  pcapPend : Option Nat
  pcapErr  : Bool
  pcapAct  : Nat
  alert    : BitVec 7
  pwr1     : Nat
  pwr10    : Nat
  tmax     : W32
  sensors  : SMap W32
  rails    : SMap W64
  lastThr  : Option Nat
  lastBad  : Nat
  ledger   : SMap (Option LEntry)
  ledNext  : Nat
  ledSeq   : W32
  ledBuf   : List LEntry
  ledLost  : Nat
  fltSec   : Nat
  fltCnt   : Nat
  mbStatus : W32
  queue    : List Transport
  tid      : Nat
  mbReq    : SMap Byte
  mbRsp    : SMap Byte
  spdm     : Spdm
  draws    : Nat
  eid      : BitVec 8
  roots    : List (List Byte)
  chain    : List Byte
  serial   : List Byte
  image    : List Byte
  update   : Bool
  fuseSvn  : Nat
  fuseRods : List (Nat × Nat)
  remapCores : List Nat
  remapRods  : List (Nat × Nat)
  pendRemapCores : List Nat
  pendRemapRods  : List (Nat × Nat)
  digests  : SMap Digest
  digNext  : Nat
  hashing  : List Nat
  signing  : List Nat
  portLed  : SMap Nat
  deriving DecidableEq, Repr

/-! ### Pins (18) -/

/-- The pins (18 R531): inputs as driven, straps as latched, the THERMTRIP latch, boundary scan. -/
structure Pins where
  pwrok    : Bool
  perstN   : Bool
  straps   : BitVec 4
  latched  : Bool
  trip     : Bool
  scan     : List (Nat × Bool)
  deriving DecidableEq, Repr

/-- What the registers held when the hcyc in progress began, before its hardware events: what RC fields count, the bits of MG_ALERT and of
CAP_STATUS.LOCKED that its events have set (00 R13); and the lower half of a 64-bit read that has come (R15). -/
structure Hcyc where
  cores    : SMap Core
  hubs     : SMap Hub
  ports    : SMap Port
  ppsBad   : W32
  indepCnt : W32
  slipCnt  : W32
  cqLost   : W32
  lost     : W32
  capSkip  : W32
  alerts   : BitVec 7
  locks    : Bool
  half     : Option (Nat × W32)
  deriving DecidableEq, Repr

/-- What left the device at one of its interfaces (the model's own record). -/
inductive Out where
  /-- Data of a read by the host: a register, BAR2 or CXL.mem, with the poison indication. -/
  | data (addr : Nat) (bytes : List Byte) (poison : Bool)
  /-- A completion record written to a ring. -/
  | record (ring : Nat) (slot : Nat) (bytes : List Byte)
  /-- A result buffer written to host memory, or to HBM. -/
  | buffer (addr : Nat) (bytes : List Byte)
  /-- An MSI-X vector. -/
  | vector (n : Nat)
  /-- A packet sent on a port. -/
  | packet (port : Nat) (h : Header) (data : List Byte)
  /-- A packet of VC3 that this device sends (13 R382). -/
  | own (port : Nat) (h : Header) (b : Own)
  /-- The copy of a bad packet, forwarded by cut-through and ended with a stomp code (13 R387). -/
  | stomp (port : Nat) (h : Header)
  /-- A link word sent on a port. -/
  | link (port : Nat) (w : LinkWord)
  /-- A message of the MSS. -/
  | message (t : Transport) (bytes : List Byte)
  /-- A snoop's answer: RspIHitI. -/
  | snoop (hpa : Nat)
  deriving DecidableEq, Repr

end Sys2Proof.Machine
end

