-- ==== Sys2Proof/Machine/State.lean ====
section
/-!
DEFINITION. The whole state of the part, its faults and refusals, and the state after a package reset
(INVENTORY.md, "State").
-/

namespace Sys2Proof.Machine

/-- The part. Cores are kept by logical number, hubs, ports, job slots, queues by their number; `mcg` and `qgrp` hold the
multicast and queue-group maps with the job that owns each; `joins` holds the requests cut at a granule, under their identity
(08 R227); `plane` holds what is under way between units, each under
its identity. -/
structure State where
  pending : List Instr
  cores   : SMap Core
  hubs    : SMap Hub
  hbm     : Hbm
  joins   : List (Nat × Join)
  jobs    : SMap Job
  queues  : SMap Queue
  recNo   : Nat
  mcg     : SMap (BitVec 128)
  mcgJob  : SMap Nat
  qgrp    : SMap (BitVec 128)
  qgrpJob : SMap Nat
  clk     : Clocks
  ports   : SMap Port
  fab     : Fabric
  host    : HostIf
  cfg     : Cfg
  fl      : Faults
  mss     : MssState
  pins    : Pins
  hc      : Hcyc
  plane   : SMap (Option Msg)
  nextId  : Nat
  freeCtr : Nat
  out     : List Out
  deriving DecidableEq, Repr

/-- Why a step stops with a fault: no command of the part does. -/
inductive Fault where
  deriving DecidableEq, Repr

/-- Why a command is refused. -/
inductive Refusal where
  /-- The command has no meaning yet. Raised by `exec` only. Safe: the model stops. -/
  | notModelled (mnemonic : String)
  /-- The operands are no encoding of the operation: a reserved field value, or a register number beyond its file
  (06 R175, R179), which the loader refuses, so no engine ever holds such a word. Raised by the engine operations. Safe:
  the model stops. -/
  | reservedEncoding
  /-- The command names a port, hub, core, ring, job slot or pseudo-channel that the part does not have. Safe: the model
  stops. -/
  | noSuchUnit
  deriving DecidableEq, Repr

/-- A port after a package reset (13 R415). -/
def Port.reset : Port where
  state := 0
  cause := 0
  width := 0
  spare := false
  enc := false
  authOk := false
  calSusp := false
  cfg := 0x1080
  active := 0
  failed := 0
  peer := 0
  dly := 0
  since := 0
  txPkt := 0
  rxPkt := 0
  replays := 0
  replay2 := 0
  crcCnt := 0
  fecUe := 0
  apDrop := 0
  spoof := 0
  lateCnt := 0
  lentCnt := 0
  badPkt := 0
  qhwm := 0
  cal := []
  ap := []
  txq := []
  replayQ := []
  again := []
  nak := none
  seqTx := 0
  seqRx := 0
  credit := [32, 64, 64, 8]
  owed := [0, 0, 0, 0]
  acks := []
  bad := [0, 0, 0, 0, 0]
  ueTbt := []
  drops := 0
  retrain := false
  cert := []
  nonces := []
  key := []
  encCount := 0
  lastInj := 0
  waitq := []
  busy := 0
  slotSeen := 0
  credAt := [0, 0, 0, 0]
  counts := [0, 0, 0, 0, 0]
  asym := 0
  tDep := none
  tArr := none

/-- Clocks after a package reset (12 R374, R375). -/
def Clocks.reset : Clocks where
  tbt := 0
  run := false
  latch := none
  master := false
  locked := false
  holdover := false
  refLost := false
  ppsSeen := false
  stopped := false
  op := 0
  hostOp := 0
  change := none
  joined := []
  stopAt := 0
  ppsTbt := 0
  ppsErr := 0
  steer := 0
  holdTbt := 0
  ppsBad := 0
  syncErr := 0
  upstream := 0
  stretch := 0
  indepCnt := 0
  slipCnt := 0
  opChg := 0
  lastStop := 0
  isl := []
  plNow := 0
  plLast := none
  valid := 0
  lastPps := none
  ppsOut := false
  lost := []
  steps := []
  aligned := false
  stepped := false
  timeAt := none
  offset := none

/-- The fabric block after a package reset (13 R416). -/
def Fabric.reset : Fabric :=
  ⟨0, false, 0, 0, 0, 0, [], [], [], [], [], 0, 0, [], [], [], [], 0⟩

/-- The host interface after a package reset: state BOOT (14 R423, R433, R444). FW_VER and TR_VER are firmware's; the
model's values are those of notes/assumptions/3.md. -/
def HostIf.reset : HostIf where
  state := 1
  cxl := false
  width := 0
  rate := 0
  fcause := 0
  hdm0 := ⟨0, 0, 0, false, false, 0⟩
  hdm1 := ⟨0, 0, 0, false, false, 0⟩
  bias := []
  biasPage := 0
  biasN := 0
  biasDir := false
  flip := none
  biasErr := false
  rings := []
  fwrun := false
  cqLost := 0
  elastic := []
  bulk := []
  stalled := []
  exec := []
  drain := none
  keys := []
  fwVer := 3
  trVer := 1

/-- The fault and capture block after a package reset (16 R503). -/
def Faults.reset : Faults where
  log := []
  head := 0
  seq := 0
  lost := 0
  capV := false
  capL := false
  capB := false
  capC := false
  capT := 0
  capSkip := 0
  capTbt := 0
  capCores := []
  capCmd := none
  capIdx := 0xFFFF
  rsBusy := 0
  rsCount := 0
  rsLast := 0
  rsCmds := []
  rsT0 := 0
  autoAt := none
  spare := []
  pendCore := []
  stops := []

/-- The MSS after a package reset, with flash and fuses as notes/assumptions/3.md names them (17 R526). -/
def MssState.reset : MssState where
  up := false
  restart := false
  throttle := 0
  pcapPend := none
  pcapErr := false
  pcapAct := 0
  alert := 0
  pwr1 := 0
  pwr10 := 0
  tmax := 0
  sensors := []
  rails := []
  lastThr := none
  lastBad := 0
  ledger := []
  ledNext := 0
  ledSeq := 0
  ledBuf := []
  ledLost := 0
  fltSec := 0
  fltCnt := 0
  mbStatus := 0
  queue := []
  tid := 0
  mbReq := []
  mbRsp := []
  spdm := ⟨false, false, false, false, [], []⟩
  draws := 0
  eid := 0
  roots := []
  chain := []
  serial := []
  image := []
  update := false
  fuseSvn := 0
  remapCores := []
  remapRods := []
  fuseRods := []
  pendRemapCores := []
  pendRemapRods := []
  digests := []
  digNext := 0
  hashing := []
  signing := []
  portLed := []

/-- The part right after a package reset: BOOT has begun nothing yet, every register holds its reset value. -/
def State.reset : State where
  pending := []
  cores := []
  hubs := []
  hbm := ⟨[], [], [], [], [], [], [], [], [], []⟩
  joins := []
  jobs := []
  queues := []
  recNo := 0
  mcg := []
  mcgJob := []
  qgrp := []
  qgrpJob := []
  clk := Clocks.reset
  ports := []
  fab := Fabric.reset
  host := HostIf.reset
  cfg := ⟨50000, [], 0, false, 0, 0⟩
  fl := Faults.reset
  mss := MssState.reset
  pins := ⟨false, false, 0, false, false, []⟩
  hc := ⟨[], [], [], 0, 0, 0, 0, 0, 0, 0, false, none⟩
  plane := []
  nextId := 0
  freeCtr := 0
  out := []

end Sys2Proof.Machine
end

