-- ==== Sys2Proof/Machine/Table.lean ====
section
/-!
DEFINITION. Sparse tables: the one form in which every large store of the part is held. `d` is the value that a key
which is not listed holds.
-/

namespace Sys2Proof.Machine

/-- The value at key `k`. -/
def tget {β : Type} (d : β) : SMap β → Nat → β
  | [], _ => d
  | (k', v) :: t, k => if k = k' then v else tget d t k

/-- The table without key `k`. -/
def terase {β : Type} (k : Nat) : SMap β → SMap β
  | [] => []
  | (k', v) :: t => if k = k' then terase k t else (k', v) :: terase k t

/-- The table with `(k, v)` set in front of the first greater key. -/
def tinsert {β : Type} (k : Nat) (v : β) : SMap β → SMap β
  | [] => [(k, v)]
  | (k', v') :: t => if k < k' then (k, v) :: (k', v') :: t else (k', v') :: tinsert k v t

/-- The table with `v` at key `k`. A key that holds the default is not listed. -/
def tput {β : Type} [DecidableEq β] (d : β) (m : SMap β) (k : Nat) (v : β) : SMap β :=
  if v = d then terase k m else tinsert k v (terase k m)

/-- The table with the value at key `k` changed. -/
def tmod {β : Type} [DecidableEq β] (d : β) (m : SMap β) (k : Nat) (f : β → β) : SMap β :=
  tput d m k (f (tget d m k))

/-- The table without the keys that `p` names. -/
def tdrop {β : Type} (p : Nat → Bool) : SMap β → SMap β
  | [] => []
  | (k, v) :: t => if p k then tdrop p t else (k, v) :: tdrop p t

/-- The keys of a table are in strictly rising order, all of them at or above `lo`. -/
def trising {β : Type} : Nat → SMap β → Bool
  | _, [] => true
  | lo, (k, _) :: t => decide (lo ≤ k) && trising (k + 1) t

/-- No entry of the table holds the default. -/
def tnodefault {β : Type} [DecidableEq β] (d : β) : SMap β → Bool
  | [] => true
  | (_, v) :: t => !decide (v = d) && tnodefault d t

/-- The canonical form of a table. -/
def twf {β : Type} [DecidableEq β] (d : β) (m : SMap β) : Bool := trising 0 m && tnodefault d m

/-- The bytes of `n` consecutive addresses from `a`; an address that is not listed reads 0 (05 R165, 08 R251). -/
def readBytes (m : SMap Byte) (a : Nat) : Nat → List Byte
  | 0 => []
  | n + 1 => tget 0 m a :: readBytes m (a + 1) n

/-- Writes bytes at consecutive addresses from `a`. -/
def writeBytes (m : SMap Byte) (a : Nat) : List Byte → SMap Byte
  | [] => m
  | b :: t => writeBytes (tput 0 m a b) (a + 1) t

/-- Sets a mark at each of `n` consecutive keys from `a`. -/
def setMarks (m : SMap Bool) (a : Nat) (v : Bool) : Nat → SMap Bool
  | 0 => m
  | n + 1 => setMarks (tput false m a v) (a + 1) v n

/-- Whether one of `n` consecutive keys from `a` is marked. -/
def anyMark (m : SMap Bool) (a : Nat) : Nat → Bool
  | 0 => false
  | n + 1 => tget false m a || anyMark m (a + 1) n

/-- A byte memory is in its canonical form: addresses strictly rising, and no entry equal to 0, which an unlisted address reads
as. -/
abbrev Memory.wf (m : SMap Byte) : Bool := twf 0 m

end Sys2Proof.Machine
end

