-- ==== Sys2Proof/Machine/Ops.lean ====
section
/-!
DEFINITION. The named operations over one core's registers, scratchpad, tallies and cycle checker, on which every engine
operation is built (02, 05, 06, 10, 16).
-/

namespace Sys2Proof

/-- The code of an engine (02 R56). -/
def Engine.code : Engine → Nat
  | .seq => 0 | .mxe => 1 | .vxe => 2 | .dma0 => 3 | .dma1 => 4 | .mse => 5

/-- The engine of a stream engine's name. -/
def Dma.engine : Dma → Engine
  | .inbound => .dma0
  | .outbound => .dma1

end Sys2Proof

namespace Sys2Proof.Machine

/-! ### What a core sees of the rest of the device -/

/-- The device around a core while a command acts on it: its logical number, the timebase, the device ID, the core image
that it runs, the job's seed, the run's index since arming, its buffer set, the firmware privilege, and the device's
limits for the outstanding transactions. -/
structure Env where
  core   : Nat
  tbt    : W64
  dev    : Nat
  img    : CoreImage
  seed   : W64
  runNo  : Nat
  set    : Nat
  fwpriv : Bool
  isa3   : Bool
  job    : Nat
  /-- What the stream engines consult: circuits, ports, multicast groups. -/
  circ   : SMap Circ
  ports  : SMap Port
  mcg    : SMap (BitVec 128)
  /-- A change of operating point waits: cores wait at stop points (12 R361). -/
  opWait : Bool
  deriving DecidableEq, Repr

/-- The KVI index of a word of a stream (06 R167). -/
def kviWord (e : Engine) (image word : Nat) : Nat := fld e.code 29 3 + fld image 22 7 + fld word 0 22

/-- The KVI index of an entry of a table section (06 R167). -/
def kviEntry (image sect idx : Nat) : Nat := fld 6 29 3 + fld image 22 7 + fld sect 18 4 + fld idx 0 18

def Core.kvi (c : Core) (e : Engine) (word : Nat) : Nat := kviWord e c.rn.image word

/-! ### Free values -/

/-- Draws the next number of the free-value counter (00 R16; notes/assumptions/2.md). -/
def Core.draw (c : Core) : Core × Nat := ({ c with fc := c.fc + 1 }, c.fc)

/-! ### Faults and stops (16 R481, R482; 02 R53) -/

/-- Drops the operations that had not issued when the core stopped (02 R53): those of the array and of the VXE whose
stamp is still to come, and what they would write. -/
def Core.dropUnissued (c : Core) : Core :=
  { c with
    mx := { c.mx with ops := c.mx.ops.filter fun o => o.stamp ≤ c.tm.p }
    vx := { c.vx with ops := c.vx.ops.filter fun o => o.stamp ≤ c.tm.p }
    pend := c.pend.filter fun w => w.issue ≤ c.tm.p }

/-- Stops the core: it issues nothing from the next ccyc on, and a hold ends so that what has issued completes. -/
def Core.halt (c : Core) (why : Stop) : Core :=
  if c.rn.stop = .no then
    Core.dropUnissued { c with rn := { c.rn with stop := why, stopAt := c.tm.now, hold := none, waits := [] } }
  else c

/-- Raises a fault of a core in a run context: its record goes to the log when the command is done; a stopping class
stops the core. -/
def Core.raiseIn (c : Core) (ctx cls : Nat) (stop : Bool) (eng kvi : Nat) (s0 s1 : Nat) (st : Status) : Core :=
  let f : RawFault := ⟨cls, stop, eng, kvi, c.rn.runCcyc, BitVec.ofNat 64 s0, BitVec.ofNat 64 s1, st, ctx⟩
  let c := { c with flt := c.flt ++ [f] }
  if stop then c.halt .own else c

/-- Raises a fault of the run that the core computes. -/
def Core.raise (c : Core) (cls : Nat) (stop : Bool) (eng kvi : Nat) (s0 s1 : Nat) (st : Status) : Core :=
  c.raiseIn c.rn.ctx cls stop eng kvi s0 s1 st

/-- ADDR (16 R482): the address, the cause and the kind of the access. -/
def Core.addrFault (c : Core) (e : Engine) (kvi addr cause kind : Nat) : Core :=
  c.raise 0x04 true e.code kvi addr (cause + 16 * kind) .efault

/-- POISON_USE (16 R482, 00 R18): the use, the resource kind and number, and the DPA of a poisoned line. VX_POISON_CNT counts those
of the VXE (04 R136). -/
def Core.poisonUse (c : Core) (e : Engine) (kvi use rkind rindex dpa : Nat) : Core :=
  { c with vx := { c.vx with poisCnt := if e = Engine.vxe then satAdd c.vx.poisCnt 1 else c.vx.poisCnt } }.raise 0x07 false e.code kvi (fld use 0 3 + fld rkind 3 4 + fld rindex 7 9) dpa .epoison

/-- DMA_ERR (09 R279, R280) and its stop are raised through this one place. -/
def Core.dmaErr (c : Core) (ctx : Nat) (e : Engine) (kvi s0 s1 : Nat) : Core :=
  { c with dm := { c.dm with errCnt := satAdd c.dm.errCnt 1 } }.raiseIn ctx 0x09 true e.code kvi s0 s1 .efault

/-- The DPA of a local address of logical core `core` (01 R30). -/
def scrDpa (core addr : Nat) : Nat := 0x100000000000 + core * 0x2000000 + addr

/-! ### Scratchpad geometry (05 R137 to R140) -/

def lineCount : Nat := 131072
def scrBytes : Nat := 0x2000000
def bankOf (line : Nat) : Nat := (line / 64 + line % 64) % 64
def ringLat (line : Nat) : Nat := if bankOf line < 16 then 5 else if bankOf line < 40 then 8 else 11
/-- The read latency under RL (05 R140, 06 R184). -/
def readLat (rl : Bool) (line : Nat) : Nat := if rl then 11 else ringLat line

/-! ### The cycle checker (02 R39, R52 to R56, R59 to R61) -/

/-- Whether the checker watches: not in service mode (02 R35). -/
def Core.checked (c : Core) : Bool := c.rn.mode != 2

def Core.addViol (c : Core) (v : Viol) : Core := { c with ck := { c.ck with viol := c.ck.viol ++ [v] } }

/-- Registers an access to a line by an engine in ccyc `t` of the pipelines' time. -/
def Core.access (c : Core) (t : Nat) (e : Engine) (write : Bool) (line kvi : Nat) (dest : Option Nat) : Core :=
  { c with ck := { c.ck with acc := c.ck.acc ++ [⟨t, e, write, line, kvi, dest⟩] } }

/-- The write under way whose pending window a read at `t` meets: that with the latest ready ccyc, of equals the later
issued (02 R56). -/
def latest : List PWrite → Option PWrite
  | [] => none
  | w :: t =>
    match latest t with
    | none => some w
    | some x => if x.ready < w.ready || (x.ready == w.ready && x.issue ≤ w.issue && x.id ≤ w.id) then some w else some x

def Core.pending (c : Core) (r : Res) : Option PWrite :=
  latest (c.pend.filter fun w => w.res = r && w.issue < c.tm.p && c.tm.p < w.ready)

/-- The key of a tracked resource in the audit counters. -/
def Res.key (r : Res) : Nat := r.kind + 8 * r.index

/-- The audit tag of a read of a word (07 R211). -/
def auditTag (env : Env) (e : Engine) (word : Nat) (r : Res) (lpos : Nat) : Option Nat :=
  (env.img.audit.find? fun t => t.word = word && t.eng = e.code && t.rkind = r.kind
    && (if r.kind = 5 then t.all || t.lpos = lpos else t.ridx = r.index)).map (·.gen)

/-- EARLY_READ: the read falls in the pending window of a write (02 R39). -/
def Core.earlyRead (c : Core) (e : Engine) (kvi : Nat) (r : Res) (dest : Option Nat) : Core × Bool :=
  match c.pending r with
  | some w => (c.addViol ⟨c.tm.p, e, 1, r.kind, r.index, w.ready - c.tm.p, w.kvi, kvi, dest⟩, true)
  | none => (c, false)

/-- STALE_READ: in an audit build the read finds another write count than its tag states (02 R61). -/
def Core.staleRead (c : Core) (env : Env) (e : Engine) (kvi : Nat) (r : Res) (lpos : Nat) (dest : Option Nat) : Core × Bool :=
  if !c.rn.audit then (c, false)
  else
    match auditTag env e (kvi % 2 ^ 22) r lpos with
    | none => (c, false)
    | some g =>
      let n := (tget 0 c.ck.wcnt r.key).toNat
      if g = n then (c, false)
      else (c.addViol ⟨c.tm.p, e, 7, r.kind, r.index, g, n, kvi, dest⟩, true)

/-- The read checks of one tracked read (02 R39, R61): the violations it makes. `dest` is the write that the read feeds,
where the read comes after the word's issue. The last component says whether the read broke an obligation. -/
def Core.checkRead (c : Core) (env : Env) (e : Engine) (kvi : Nat) (r : Res) (lpos : Nat) (dest : Option Nat) :
    Core × Bool :=
  if !c.checked then (c, false)
  else
    let x := c.earlyRead e kvi r dest
    let y := x.1.staleRead env e kvi r lpos dest
    (y.1, x.2 || y.2)

/-! ### Register reads and writes (06 R180, 04 R134) -/

/-- A tracked read of S. A read that breaks the schedule brings an unpredictable value (02 R53). -/
def Core.readS (c : Core) (env : Env) (e : Engine) (kvi r : Nat) : Core × SVal :=
  let v := tget ⟨0, false⟩ c.regs.s r
  match c.checkRead env e kvi ⟨0, r⟩ 0 none with
  | (c, false) => (c, v)
  | (c, true) => ({ c with fc := c.fc + 1 }, ⟨Config.free64 c.fc, v.p⟩)

/-- A tracked read of A. -/
def Core.readA (c : Core) (env : Env) (e : Engine) (kvi r : Nat) : Core × AVal :=
  let v := tget ⟨0, false⟩ c.regs.a r
  match c.checkRead env e kvi ⟨1, r⟩ 0 none with
  | (c, false) => (c, v)
  | (c, true) => ({ c with fc := c.fc + 1 }, ⟨(Config.free64 c.fc).truncate 48, v.p⟩)

/-- A tracked read of P. -/
def Core.readP (c : Core) (env : Env) (e : Engine) (kvi r : Nat) : Core × PVal :=
  let v := tget ⟨false, false⟩ c.regs.p r
  match c.checkRead env e kvi ⟨2, r⟩ 0 none with
  | (c, false) => (c, v)
  | (c, true) => ({ c with fc := c.fc + 1 }, ⟨Config.freeBit c.fc, v.p⟩)

/-- The 256 lanes of a V register, or words of an operand-cache entry. -/
def lanesOf (m : SMap Lane) (r : Nat) : List Lane := (upFrom (256 * r) 256).map (tget Lane.zero m)

/-- A tracked read of V. -/
def Core.readV (c : Core) (env : Env) (e : Engine) (kvi r : Nat) : Core × List Lane :=
  ((c.checkRead env e kvi ⟨3, r⟩ 0 none).1, lanesOf c.regs.v r)

/-- A tracked read of an operand-cache entry, for the write `dest`. -/
def Core.readOc (c : Core) (env : Env) (e : Engine) (kvi r : Nat) (dest : Option Nat) : Core × List Lane :=
  ((c.checkRead env e kvi ⟨4, r⟩ 0 dest).1, lanesOf c.regs.oc r)

/-- A write under way from `issue` to `ready` (02 R43); answers its identity too. -/
def Core.post (c : Core) (r : Res) (issue ready : Nat) (e : Engine) (kvi : Nat) (pay : Payload) : Core × Nat :=
  ({ c with pend := c.pend ++ [⟨c.ids, r, issue, ready, e, kvi, pay, false⟩], ids := c.ids + 1 }, c.ids)

/-- A VLD's write of a V register (04 R132). -/
def Core.postVld (c : Core) (r : Res) (issue ready kvi : Nat) (pay : Payload) : Core × Nat :=
  ({ c with pend := c.pend ++ [⟨c.ids, r, issue, ready, .vxe, kvi, pay, r.kind == 3⟩], ids := c.ids + 1 }, c.ids)

def Core.postS (c : Core) (e : Engine) (kvi r lat : Nat) (x : W64) (p : Bool) : Core :=
  (c.post ⟨0, r⟩ c.tm.p (c.tm.p + lat) e kvi (.s x p)).1
def Core.postA (c : Core) (e : Engine) (kvi r lat : Nat) (x : W48) (p : Bool) : Core :=
  (c.post ⟨1, r⟩ c.tm.p (c.tm.p + lat) e kvi (.a x p)).1
def Core.postP (c : Core) (e : Engine) (kvi r lat : Nat) (x : Bool) (p : Bool) : Core :=
  (c.post ⟨2, r⟩ c.tm.p (c.tm.p + lat) e kvi (.pr x p)).1

/-- Fills in what the write `id` brings. -/
def Core.fill (c : Core) (id : Nat) (pay : Payload) : Core :=
  { c with pend := c.pend.map fun w => if w.id = id && w.pay ≠ .junk then { w with pay := pay } else w }

/-- Lanes put into a register file from key `base` on. -/
def putLanes (m : SMap Lane) (base : Nat) : List (Nat × Lane) → SMap Lane
  | [] => m
  | (i, l) :: t => putLanes (tput Lane.zero m (base + i) l) base t

/-! ### Scratchpad lines (05 R149 to R153) -/

/-- Lines read, or reserved, in the ccyc in progress: by the engines and by the landing unit. -/
def Core.readsNow (c : Core) : List Nat :=
  ((c.ck.acc.filter fun x => x.time = c.tm.p && !x.write).map (·.line))
    ++ (if c.lu.usedAt = c.tm.now then c.lu.usedR else [])

def Core.writesNow (c : Core) : List Nat :=
  ((c.ck.acc.filter fun x => x.time = c.tm.p && x.write).map (·.line))
    ++ (if c.lu.usedAt = c.tm.now then c.lu.usedW else [])

/-- Whether an access to a line finds an idle port and its bank idle in this ccyc (05 R42, R144, R154, R162). -/
def Core.portFree (c : Core) (write : Bool) (line : Nat) : Bool :=
  (if write then c.writesNow.length < 2 else c.readsNow.length < 4)
    && !((c.readsNow ++ c.writesNow).any fun l => bankOf l = bankOf line)

/-- The landing unit, or an elastic line read, takes a port in this ccyc. -/
def Core.usePort (c : Core) (write : Bool) (line : Nat) : Core :=
  let same := c.lu.usedAt = c.tm.now
  let r := if same then c.lu.usedR else []
  let w := if same then c.lu.usedW else []
  { c with lu := { c.lu with
    usedAt := c.tm.now
    usedR := if write then r else r ++ [line]
    usedW := if write then w ++ [line] else w } }

/-- The poison mark and content of a line, as stored. -/
def Core.lineNow (c : Core) (line : Nat) : LineVal :=
  ⟨BitVec.ofNat 2048 (leVal (readBytes c.mem (256 * line) 256)), tget false c.pois line⟩

/-- An uncorrectable word found in a line (05 R150, R151; 16 R482). -/
def Core.lineUe (c : Core) (env : Env) (eng kvi line : Nat) : Core :=
  let c := { c with
    pois := tput false c.pois line true
    lu := { c.lu with ueCnt := satAdd c.lu.ueCnt 1, ueLine := line, ueSeen := true } }
  c.raise 0x06 false eng kvi (fld line 1 17) (scrDpa env.core (256 * line)) .ok

def Core.lineCe (c : Core) : Core := { c with lu := { c.lu with ceCnt := satAdd c.lu.ceCnt 1 } }

/-- The stored errors that a read of a line meets, as the command names them: `k` is the line's place in the word's read
order. -/
def Core.eccRead (c : Core) (env : Env) (eng kvi line k : Nat) : List EccObs → Core
  | [] => c
  | o :: t =>
    let c := c.eccRead env eng kvi line k t
    if o.line ≠ k then c else if o.ue then c.lineUe env eng kvi line else c.lineCe

/-- Reads a whole line through the correction path. -/
def Core.readLine (c : Core) (env : Env) (eng kvi line k : Nat) (ecc : List EccObs) : Core × LineVal :=
  let c := c.eccRead env eng kvi line k ecc
  (c, c.lineNow line)

/-- Whether a write of `n` bytes at offset `off` covers part only of some 64-bit word (05 R151). -/
def partialWord (off n : Nat) : Bool := off % 8 != 0 || (off + n) % 8 != 0

/-- Free bytes at consecutive addresses. -/
def freeBytes (fc : Nat) : Nat → Nat → List Byte
  | _, 0 => []
  | i, n + 1 => Config.freeByte fc i :: freeBytes fc (i + 1) n

/-- The words of a narrow write's ends that are merged: first its start, then its end. -/
def mergedWords (addr n : Nat) : List Nat :=
  (if addr % 8 ≠ 0 then [addr / 8] else [])
    ++ (if (addr + n) % 8 ≠ 0 && ((addr + n) / 8 ≠ addr / 8 || addr % 8 = 0) then [(addr + n) / 8] else [])

/-- Stores bytes within one line (05 R143, R151): a whole line clears the mark, a narrower write keeps it, poisoned data
sets it. -/
def Core.storeBytes (c : Core) (addr : Nat) (d : List Byte) (p : Bool) : Core :=
  let line := addr / 256
  { c with
    mem := writeBytes c.mem addr d
    pois := if p then tput false c.pois line true
      else if d.length = 256 then tput false c.pois line false else c.pois }

/-- What a write of `d` at `addr` brings once the words it merges with are read (05 R151). A correctable error is counted. An
uncorrectable one is reported; its word is stored with unpredictable content around the new bytes, and the line is poisoned. `words`
lists the merged words with their place. -/
def Core.mergeWrite (c : Core) (env : Env) (eng kvi : Nat) (ecc : List EccObs) :
    List (Nat × Nat) → Nat → List Byte → Bool → Core × Nat × List Byte × Bool
  | [], addr, d, p => (c, addr, d, p)
  | (w, k) :: t, addr, d, p =>
    match ecc.find? fun o => o.word = k with
    | none => c.mergeWrite env eng kvi ecc t addr d p
    | some o =>
      if !o.ue then c.lineCe.mergeWrite env eng kvi ecc t addr d p
      else
        let before := addr - 8 * w
        let after := 8 * w + 8 - (addr + d.length)
        let free := freeBytes c.fc 0 8
        ({ c with fc := c.fc + 1 }.lineUe env eng kvi (addr / 256)).mergeWrite env eng kvi ecc t (addr - before)
          (free.take before ++ d ++ (free.drop before).take after) true

/-- A write through the correction path: the words of its ends that it covers in part are merged (05 R151). -/
def Core.merged (c : Core) (env : Env) (eng kvi addr : Nat) (d : List Byte) (p : Bool) (ecc : List EccObs) :
    Core × Nat × List Byte × Bool :=
  c.mergeWrite env eng kvi ecc (if d.isEmpty then [] else (mergedWords addr d.length).zipIdx) addr d p

/-! ### Writes that take effect (02 R43) -/

def Core.bumpAudit (c : Core) (r : Res) : Core :=
  if c.rn.audit then { c with ck := { c.ck with wcnt := tput 0 c.ck.wcnt r.key (tget 0 c.ck.wcnt r.key + 1) } } else c

/-- 256 free lanes. -/
def freeLanes (n : Nat) : List (Nat × Lane) := (upFrom 0 256).map fun i => (i, ⟨Config.free32 (n + i), false⟩)

/-- Unpredictable content for a resource (02 R53). -/
def Core.junk (c : Core) (r : Res) : Core :=
  let n := c.fc
  let c := { c with fc := n + 1 }
  match r.kind with
  | 0 =>
    { c with regs := { c.regs with s := tput ⟨0, false⟩ c.regs.s r.index (SVal.mk (Config.free64 n) false) } }
  | 1 =>
    { c with regs := { c.regs with a := tput ⟨0, false⟩ c.regs.a r.index (AVal.mk ((Config.free64 n).truncate 48) false) } }
  | 2 =>
    { c with regs := { c.regs with p := tput ⟨false, false⟩ c.regs.p r.index (PVal.mk (Config.freeBit n) false) } }
  | 3 =>
    { c with
      fc := n + 256
      regs := { c.regs with v := putLanes c.regs.v (256 * r.index) (freeLanes n) } }
  | 4 =>
    { c with
      fc := n + 256
      regs := { c.regs with oc := putLanes c.regs.oc (256 * r.index) (freeLanes n) } }
  | _ => { c with mem := writeBytes c.mem (256 * r.index) (freeBytes n 0 256) }

/-- A write takes effect. -/
def Core.commit (c : Core) (w : PWrite) : Core :=
  let c := c.bumpAudit w.res
  let i := w.res.index
  match w.pay with
  | .s x p => { c with regs := { c.regs with s := tput ⟨0, false⟩ c.regs.s i ⟨x, p⟩ } }
  | .a x p => { c with regs := { c.regs with a := tput ⟨0, false⟩ c.regs.a i ⟨x, p⟩ } }
  | .pr x p => { c with regs := { c.regs with p := tput ⟨false, false⟩ c.regs.p i ⟨x, p⟩ } }
  | .lanes l =>
    if w.res.kind = 3 then { c with regs := { c.regs with v := putLanes c.regs.v (256 * i) l } }
    else { c with regs := { c.regs with oc := putLanes c.regs.oc (256 * i) l } }
  | .bytes off d p => c.storeBytes (256 * i + off) d p
  | .junk => c.junk w.res

/-- Whether write `x` comes before `y` among writes that land together: engine order, then issue (02 R54). -/
def landsFirst (x y : PWrite) : Bool :=
  x.eng.code < y.eng.code || (x.eng.code == y.eng.code && (x.issue < y.issue || (x.issue == y.issue && x.id ≤ y.id)))

def insertBy {α : Type} (le : α → α → Bool) (a : α) : List α → List α
  | [] => [a]
  | b :: t => if le a b then a :: b :: t else b :: insertBy le a t

/-- A stable sort by insertion. -/
def sortBy {α : Type} (le : α → α → Bool) (l : List α) : List α := l.foldr (insertBy le) []

/-- The WRITE_PORT violations of registers (02 R39, R54): every write after the first that lands on one register in
this ccyc, which is the ccyc before its ready ccyc (04 R132). `seen` lists the writes that came before. -/
-- DESIGN CHOICE: RKIND names the register, not a write port (notes/assumptions/49.md)
def portViols (t : Nat) (all : List PWrite) : List PWrite → List PWrite → List Viol
  | _, [] => []
  | seen, w :: rest =>
    let more := portViols t all (w :: seen) rest
    if w.res.kind < 4 && seen.any fun x => x.res = w.res then
      ⟨t, w.eng, 3, w.res.kind, w.res.index, (all.filter fun x => x.res = w.res).length, 1, w.kvi, some w.id⟩ :: more
    else more

/-- The writes that become ready by now take effect, in the order of their ready ccyc, then of R54. -/
def Core.commitReady (c : Core) : Core :=
  let due := c.pend.filter fun w => w.ready ≤ c.tm.p
  let due := sortBy (fun x y => x.ready < y.ready || (x.ready == y.ready && landsFirst x y)) due
  due.foldl Core.commit { c with pend := c.pend.filter fun w => !(w.ready ≤ c.tm.p) }

/-! ### The ccyc ends: ports, banks, the record (02 R53, R54) -/

/-- The port and bank violations of the accesses of one ccyc, in the order of R54. `nr`, `nw` count the accesses before,
`banks` lists the banks reached. -/
def accViols (t total_r total_w : Nat) : Nat → Nat → List Nat → List Access → List Viol
  | _, _, _, [] => []
  | nr, nw, banks, x :: rest =>
    let b := bankOf x.line
    let nr' := if x.write then nr else nr + 1
    let nw' := if x.write then nw + 1 else nw
    let v2 : List Viol := if !x.write && nr' > 4 then [⟨t, x.eng, 2, 6, 0, total_r, 4, x.kvi, x.dest⟩] else []
    let v3 : List Viol := if x.write && nw' > 2 then [⟨t, x.eng, 3, 7, 0, total_w, 2, x.kvi, x.dest⟩] else []
    let v4 : List Viol := if banks.contains b then [⟨t, x.eng, 4, 8, b, b, x.eng.code, x.kvi, x.dest⟩] else []
    v2 ++ v3 ++ v4 ++ accViols t total_r total_w nr' nw' (b :: banks) rest

/-- The first violation in the order of R54. -/
def firstViol : List Viol → Option Viol
  | [] => none
  | v :: t =>
    match firstViol t with
    | none => some v
    | some x => if x.eng.code < v.eng.code || (x.eng.code == v.eng.code && x.sub < v.sub) then some x else some v

/-- Marks what a violating access feeds as unpredictable (02 R53). -/
def Core.spoil (c : Core) (v : Viol) : Core :=
  let hit : PWrite → Bool := fun w => match v.dest with
    | some d => w.id = d
    | none => w.eng = v.eng && w.kvi = v.kvi && v.time ≤ w.issue
  { c with
    pend := c.pend.map fun w => if hit w then { w with pay := .junk } else w
    mx := { c.mx with ops := c.mx.ops.map fun o => if v.dest = some o.id then { o with bad := true } else o }
    vx := { c.vx with tr := c.vx.tr.map fun o => if v.dest = some o.id then { o with bad := true } else o }
    dm := { c.dm with txns := c.dm.txns.map fun x =>
      if x.out && v.eng = .dma1 && v.dest = some x.id then { x with bad := true } else x } }

/-- The V register file accepts one VLD write in a ccyc (04 R132): of several that land in ccyc `t`, those after the first bring
unpredictable content. -/
-- DESIGN CHOICE: the spec names no violation for them (notes/assumptions/50.md)
def Core.vldLimit (c : Core) (t : Nat) : Core :=
  match sortBy landsFirst (c.pend.filter fun w => w.vld && w.ready = t + 1) with
  | [] => c
  | x :: _ => { c with pend := c.pend.map fun w =>
      if w.vld && w.ready = t + 1 && w.id ≠ x.id then { w with pay := .junk } else w }

/-- The checker at the end of a ccyc: it evaluates the accesses of the ccyc, counts the violations, and raises SCHED for
the first, unless the core had stopped before this ccyc (02 R53 to R55). -/
def Core.checkerEnd (c : Core) : Core :=
  let t := c.tm.p
  let acc := sortBy (fun (x y : Access) => x.eng.code ≤ y.eng.code) (c.ck.acc.filter fun x => x.time = t)
  let land := sortBy landsFirst (c.pend.filter fun w => w.ready = t + 1)
  let nr := (acc.filter fun x => !x.write).length
  let nw := (acc.filter fun x => x.write).length
  let vs := c.ck.viol.filter (fun v => v.time = t)
    ++ (if c.checked then accViols t nr nw 0 0 [] acc ++ portViols t land [] land else [])
  let c := { c with ck := { c.ck with
    acc := c.ck.acc.filter fun x => t < x.time
    viol := c.ck.viol.filter fun v => t < v.time
    stages := c.ck.stages.filter fun x => t < x.time
    stamps := c.ck.stamps.filter fun x => t < x.2 } }
  match firstViol vs with
  | none => c
  | some v =>
    let c := vs.foldl Core.spoil c
    let c := { c with ck := { c.ck with chkCnt := satAdd c.ck.chkCnt vs.length } }
    if c.rn.stop ≠ .no && c.rn.stopAt < c.tm.now then c
    else
      let c := { c with ck := { c.ck with trip := true, lastSub := v.sub } }
      c.raise 0x01 true v.eng.code v.kvi
        (fld v.sub 0 4 + fld v.rkind 4 4 + fld v.rindex 8 17 + fld (min (vs.length - 1) 255) 32 8)
        (fld v.a 0 32 + fld v.b 32 32) .efault

/-! ### Tallies (10 R285 to R290) -/

/-- The key of a tally: Ti at i, the arrival tally of window n at 128 + n. -/
def tallyKey (arrival : Bool) (idx : Nat) : Nat := if arrival then 128 + idx else idx

def Core.addChange (c : Core) (x : TChange) : Core := { c with tl := { c.tl with chg := c.tl.chg ++ [x] } }

/-- Raises T `t` by `n` on a completion (10 R285). -/
def Core.complete (c : Core) (e : Engine) (t : Nat) (n : W32) : Core := c.addChange ⟨false, t, .inc, n, e, 0xFFFFFFFF⟩

/-- The value of a tally as applied. -/
def Core.tally (c : Core) (arrival : Bool) (idx : Nat) : W32 := tget 0 c.tl.t (tallyKey arrival idx)

/-- The value that a TWAIT issued now evaluates: every change of two ccyc ago or earlier (10 R286). -/
def Core.seenTally (c : Core) (arrival : Bool) (idx : Nat) : W32 :=
  match if c.tl.oldAt = c.tm.now then tget none c.tl.old (tallyKey arrival idx) else none with
  | some v => v
  | none => c.tally arrival idx

/-- Sets a tally, keeping what it held for the TWAITs of the next ccyc. -/
def Core.putTally (c : Core) (k : Nat) (v : W32) : Core :=
  { c with tl := { c.tl with
    t := tput 0 c.tl.t k v
    old := if tget none c.tl.old k = none then tput none c.tl.old k (some (tget 0 c.tl.t k)) else c.tl.old } }

/-- A replacement (10 R285). -/
def Core.applySet (c : Core) (x : TChange) : Core := c.putTally (tallyKey x.arrival x.idx) x.n

/-- An increment, which saturates (10 R289, 05 R158). -/
def Core.applyInc (c : Core) (x : TChange) : Core :=
  let k := tallyKey x.arrival x.idx
  let v := tget 0 c.tl.t k
  if v.toNat + x.n.toNat ≤ 0xFFFFFFFF then c.putTally k (v + x.n)
  else
    let c := c.putTally k 0xFFFFFFFF
    if x.arrival then
      { c with lu := { c.lu with win := tmod Window.closed c.lu.win x.idx fun w => { w with ovf := true } } }
    else { c with tl := { c.tl with ovf := true, ovfIdx := x.idx } }

/-- SPEC0 of TALLY_UNDERFLOW and WAIT_TIMEOUT (10 R309). -/
def tallySpec0 (arrival : Bool) (idx : Nat) (gate : Bool) (slot value : Nat) : Nat :=
  fld (idx % 128) 0 7 + fld (b2n arrival) 7 1 + fld (if arrival then idx / 128 else 0) 8 1 + fld (b2n gate) 9 1
    + fld slot 10 4 + fld value 32 32

/-- A decrement; one that would go below zero is not applied and raises TALLY_UNDERFLOW (10 R288). -/
def Core.applyDec (c : Core) (x : TChange) : Core :=
  let k := tallyKey x.arrival x.idx
  let v := tget 0 c.tl.t k
  if x.n.toNat ≤ v.toNat then c.putTally k (v - x.n)
  else
    let c := { c with tl := { c.tl with uf := true, ufCnt := satAdd c.tl.ufCnt 1 } }
    c.raise 0x02 true x.eng.code x.kvi (tallySpec0 x.arrival x.idx false 0 v.toNat) x.n.toNat .efault

/-- The tally changes of the ccyc, applied at its end in the order of R287. -/
def Core.talliesEnd (c : Core) : Core :=
  let chg := c.tl.chg
  let c := { c with tl := { c.tl with chg := [], old := [], oldAt := c.tm.now + 1 } }
  let c := (chg.filter fun x => x.kind = .set).foldl Core.applySet c
  let c := (chg.filter fun x => x.kind = .inc).foldl Core.applyInc c
  (sortBy (fun (x y : TChange) => x.eng.code ≤ y.eng.code) (chg.filter fun x => x.kind = .dec)).foldl Core.applyDec c

/-- The ccyc in progress ends. -/
def Core.close (c : Core) : Core :=
  let c := ((c.vldLimit c.tm.p).checkerEnd).talliesEnd
  if c.rn.stop = .no then c else c.dropUnissued

/-! ### Waits and holds (10 R291, R292, R308; 02 R48) -/

/-- The wait-for record of an engine (10 R308). -/
def waitRecord : Await → Nat
  | .tally a i n => fld 1 0 2 + fld (b2n a) 2 1 + fld i 3 8 + fld n.toNat 32 32
  | .gate i n _ => fld 1 0 2 + fld i 3 8 + fld 1 11 1 + fld n.toNat 32 32
  | .fence k s => fld 2 0 2 + fld k 3 2 + fld s 5 2
  | .queue q _ => fld 3 0 2 + fld q 12 20

/-- The engine begins to wait: a hold of the core in scheduled mode, which it shares with an engine that began to wait at the same
stamp; a wait of the engine alone in service mode. -/
def Core.beginWait (c : Core) (e : Engine) (w : Await) (record : Nat) (tmo : Option Nat) (kvi : Nat) : Core :=
  let c := { c with tl := { c.tl with wait := tput 0 c.tl.wait e.code (BitVec.ofNat 64 record) } }
  let x : Wait := ⟨e, w, c.tm.now, tmo, kvi⟩
  if c.rn.mode = 2 || c.rn.hold.isSome then { c with rn := { c.rn with waits := c.rn.waits ++ [x] } }
  else { c with rn := { c.rn with hold := some x } }

/-- The wait of an engine ends (10 R308). The hold of the core goes on while another engine shares it. -/
def Core.endWait (c : Core) (e : Engine) : Core :=
  let others := c.rn.waits.filter fun w => w.eng ≠ e
  { c with
    tl := { c.tl with wait := tput 0 c.tl.wait e.code 0 }
    rn := match c.rn.hold with
      | some w => if w.eng = e then { c.rn with hold := others.head?, waits := others.drop 1 } else { c.rn with waits := others }
      | none => { c.rn with waits := others } }

/-- The wait of an engine. -/
def Core.waitOf (c : Core) (e : Engine) : Option Wait :=
  match c.rn.hold with
  | some w => if w.eng = e then some w else c.rn.waits.find? fun w => w.eng = e
  | none => c.rn.waits.find? fun w => w.eng = e

/-- WAIT_TIMEOUT (10 R291, R309; 02 R49): the core stops; its wait-for record stays for the capture. -/
def Core.waitTimeout (c : Core) (e : Engine) (kvi s0 n tmo : Nat) : Core :=
  { c with tl := { c.tl with tmoCnt := satAdd c.tl.tmoCnt 1 } }.raise 0x03 true e.code kvi s0 (n + fld tmo 32 32) .efault

end Sys2Proof.Machine
end

