-- ==== Sys2Proof/Machine/Operands.lean ====
section
/-!
DEFINITION. The operand forms: the second operand of arithmetic, line operands and their geometries, memory addresses,
tally operands and the n of a tally operation, VOP's operand specifiers, and the chain entry (04, 05, 06, 07).
-/

namespace Sys2Proof.Machine

/-! ### SEQ operands (06 R188, R189) -/

/-- src2: IMM when I = 1, S[B] when I = 0 (06 R188). -/
def Core.src2 (c : Core) (env : Env) (kvi : Nat) (f : Arith) : Core × SVal :=
  if f.i then (c, ⟨f.imm, false⟩) else c.readS env .seq kvi f.b.toNat

/-- A poisoned register operand raises POISON_USE once, for the first in the order of the word's fields
(16 R482): `l` lists the operands as resource kind, number, and mark. -/
def Core.usePoison (c : Core) (e : Engine) (kvi use : Nat) : List (Nat × Nat × Bool) → Core
  | [] => c
  | (k, r, p) :: t => if p then c.poisonUse e kvi use k r 0 else c.usePoison e kvi use t

/-- The local address A[A] + OFF of a memory operation (06 R189), modulo 2^48. -/
def Core.memAddr (c : Core) (env : Env) (kvi : Nat) (f : MemOp) : Core × Nat × Bool :=
  let (c, a) := c.readA env .seq kvi f.a.toNat
  (c, (a.v + f.off.signExtend 48).toNat, a.p)

/-- Bytes of an access of a SIZE code. -/
def sizeBytes (s : BitVec 2) : Nat := 2 ^ s.toNat

/-- The ADDR cause of a scratchpad access of `n` bytes: 3 beyond the scratchpad, 4 misaligned (05 R138, R143). -/
def scrCause (addr n : Nat) : Option Nat :=
  if addr ≥ scrBytes then some 3 else if addr % n ≠ 0 then some 4 else none

/-! ### Line operands (06 R183) -/

/-- The offset that AEN adds: bits [24:8] of A[AREG]; with the mark of the register. -/
def Core.lineBase (c : Core) (env : Env) (e : Engine) (kvi : Nat) (l : LineOp) : Core × Nat × Bool :=
  if l.aen then
    let (c, a) := c.readA env e kvi l.areg.toNat
    (c, bits a.v.toNat 8 17, a.p)
  else (c, 0, false)

/-- The line number: LINE plus the offset, modulo 2^17. -/
def lineAt (base : Nat) (line : BitVec 17) : Nat := (base + line.toNat) % lineCount

/-- The four lines of VLD, VST and OCFILL (04 R109), none where they leave their row or column (R133). -/
def fourLines (line : Nat) (col : Bool) : Option (List Nat) :=
  if col then
    if line / 64 ≤ 2044 then some [line, line + 64, line + 128, line + 192] else none
  else if line % 64 ≤ 60 then some [line, line + 1, line + 2, line + 3] else none

/-- The four lines of a strided read, none where one leaves the scratchpad (05 R145, R146). -/
def strideLines (line : Nat) (d : Int) : Option (List Nat) :=
  let ok := fun (k : Nat) => (line : Int) + k * d ≥ 0 && (line : Int) + k * d < lineCount
  if ok 0 && ok 1 && ok 2 && ok 3 then
    some [line, ((line : Int) + d).toNat, ((line : Int) + 2 * d).toNat, ((line : Int) + 3 * d).toNat]
  else none

/-- The 64 source lines of a transposing read (05 R147), none where they leave their row or column. -/
def transposeLines (line : Nat) (shape : Bool) : Option (List Nat) :=
  if shape then
    if line / 64 ≤ 2048 - 64 then some ((upFrom 0 64).map fun s => line + 64 * s) else none
  else if line % 64 = 0 then some ((upFrom 0 64).map fun s => line + s) else none

/-- Lmax of a set of lines under RL. -/
def maxLat (rl : Bool) (ls : List Nat) : Nat := (ls.map (readLat rl)).foldl max 0

/-- Reads lines in one ccyc for an engine: the checks, the ports, the content (05 R142, R152). `k` is the first line's
place in the word's read order. -/
def Core.readLines (c : Core) (env : Env) (e : Engine) (kvi : Nat) (dest : Option Nat) (ecc : List EccObs) :
    Nat → List Nat → Core × List LineVal
  | _, [] => (c, [])
  | k, l :: t =>
    let c := (c.checkRead env e kvi ⟨5, l⟩ k dest).1
    let c := c.access c.tm.p e false l kvi dest
    let (c, v) := c.readLine env e.code kvi l k ecc
    let (c, vs) := c.readLines env e kvi dest ecc (k + 1) t
    (c, v :: vs)

/-- The lanes of lines in order: line u is lanes 64 u to 64 u + 63 (04 R107), a poisoned line marks its lanes (R134). -/
def linesToLanes : Nat → List LineVal → List (Nat × Lane)
  | _, [] => []
  | u, l :: t => ((upFrom 0 64).map fun i => (64 * u + i, Lane.mk (l.v.extractLsb' (32 * i) 32) l.p))
      ++ linesToLanes (u + 1) t

/-- The bytes of lanes. -/
def lanesBytes (l : List Lane) : List Byte := l.flatMap fun x => leBytes x.v.toNat 4

/-- Line u of a V register's image, with its mark (04 R134). -/
def laneLine (l : List Lane) (u : Nat) : List Byte × Bool :=
  let x := (l.drop (64 * u)).take 64
  (lanesBytes x, x.any (·.p))

/-- Element width in bytes of a strided read's W. -/
def strideWidth (w : BitVec 2) : Nat := if w = 0 then 4 else if w = 1 then 2 else 1

/-- The lanes of a strided read (05 R145): element m of line k becomes element 64 k + m; bytes beyond 256 w are 0. -/
def strideLanes (w : BitVec 2) (b0 : Nat) (ls : List LineVal) : List (Nat × Lane) :=
  let n := strideWidth w
  let per := 4 / n
  (upFrom 0 256).map fun i =>
    let el := (upFrom 0 per).map fun j =>
      let e := per * i + j
      let l := ls.getD (e / 64) LineVal.zero
      if e < 256 then (bits l.v.toNat (8 * (b0 + 4 * (e % 64))) (8 * n), l.p) else (0, false)
    (i, Lane.mk (BitVec.ofNat 32 (el.foldr (fun x acc => x.1 + 2 ^ (8 * n) * acc) 0)) (el.any (·.2)))

/-- Transposed line `t` of 64 source lines (05 R147): its bytes as 32-bit lanes. -/
def transposedLine (tw t : Nat) (ls : List LineVal) : List Lane :=
  let el := fun (s i w : Nat) => bits (ls.getD s LineVal.zero).v.toNat (w * i) w
  let mk := fun (s : Nat) => (ls.getD s LineVal.zero).p
  (upFrom 0 64).map fun i =>
    match tw with
    | 0 => ⟨BitVec.ofNat 32 (el i t 32), mk i⟩
    | 1 =>
      let q := i / 32
      let s := 2 * (i % 32)
      ⟨BitVec.ofNat 32 (el s (2 * t + q) 16 + 2 ^ 16 * el (s + 1) (2 * t + q) 16), mk s || mk (s + 1)⟩
    | _ =>
      let q := i / 16
      let s := 4 * (i % 16)
      ⟨BitVec.ofNat 32 (el s (4 * t + q) 8 + 2 ^ 8 * el (s + 1) (4 * t + q) 8 + 2 ^ 16 * el (s + 2) (4 * t + q) 8
        + 2 ^ 24 * el (s + 3) (4 * t + q) 8), mk s || mk (s + 1) || mk (s + 2) || mk (s + 3)⟩

/-- Register Vd + `k` of a transposing read: transposed lines 4k to 4k + 3. -/
def transposedReg (tw k : Nat) (ls : List LineVal) : List (Nat × Lane) :=
  ((upFrom 0 4).flatMap fun u => transposedLine tw (4 * k + u) ls).zipIdx.map fun x => (x.2, x.1)

/-! ### Tally operands (06 R185, R186, 07 R207) -/

/-- The number of the tally or window that an operand names. -/
def tallyIdx (t : TallyOp) : Nat := if t.form then t.idx.toNat + (if t.lhi then 128 else 0) else t.idx.toNat

/-- n of a tally operation, with its poison use. -/
def Core.tallyN (c : Core) (env : Env) (e : Engine) (kvi : Nat) : NSrc → Core × W32
  | .imm n => (c, n)
  | .reg r =>
    let (c, x) := c.readS env e kvi r.toNat
    (c.usePoison e kvi 0 [(0, r.toNat, x.p)], x.v.truncate 32)

/-! ### VOP operands (06 R194, R195) -/

/-- The CHAINS entry that 128 bits spell. -/
def chainOf (x : Nat) : Chain where
  stages := (upFrom 0 (bits x 0 4)).map fun k => bits x (3 * k + 4) 3
  cvtFmt := bits x 28 4
  addForm := bits x 32 2
  cselPred := bits x 34 3
  cselMask := bitAt x 37
  lutFn := bits x 38 3
  redOp := bits x 41 2
  redG16 := bitAt x 43
  redInt := bitAt x 44
  packFmt := bits x 45 4
  packSplit := bitAt x 49
  packSr := bitAt x 50
  packSat := bitAt x 51
  packIndex := bitAt x 52
  bMul := bits x 53 2
  bAdd := bits x 55 2
  bCsb := bits x 57 2
  bCsc := bits x 59 2
  shf := BitVec.ofNat 64 (x >>> 64)

/-- The operand specifier of a binding. -/
def specOf (f : VopFields) (b : Nat) : Spec :=
  match b with
  | 1 => f.opx
  | 2 => f.opy
  | _ => f.opz

/-- The bindings that a stage names: B, then C (16 R482). -/
def stageBindings (ch : Chain) (st : Nat) : List Nat :=
  match st with
  | 1 => [ch.bMul]
  | 2 => [ch.bAdd]
  | 3 => if ch.cselMask then [ch.bCsb] else [ch.bCsb, ch.bCsc]
  | _ => []

/-- Offsets from the stamp at which each stage is entered: E1 = c + 1, and stage k + 1 at Ek + lk (04 R113). -/
def stageTimes : Nat → List Nat → List (Nat × Nat)
  | _, [] => []
  | e, s :: t => (s, e) :: stageTimes (e + stageLat s) t

/-- Whether the chain converts a RAW pair of registers (04 R117). -/
def isRaw (ch : Chain) : Bool := ch.stages.contains 0 && ch.cvtFmt = 11

/-- Whether the chain reads S[SX] (04 R112). -/
def readsSx (ch : Chain) : Bool :=
  isRaw ch || (ch.stages.contains 7 && ch.packSr && ch.packIndex)

/-- The offset, from the ccyc before the stamp, at which an operand-cache entry that a chain names as operand is read:
two ccyc before the first stage that names it is entered (04 R112, R113). -/
def ocReadAt (ch : Chain) (f : VopFields) (entry : Nat) : Option Nat :=
  (stageTimes 1 ch.stages).findSome? fun s =>
    if (stageBindings ch s.1).any fun b => b ≠ 0 && (specOf f b).kind = 3 && (specOf f b).idx.toNat = entry
    then some (s.2 - 1) else none

end Sys2Proof.Machine
end

