-- ==== Sys2Proof/Machine/Flags.lean ====
section
/-!
DEFINITION. The flag computations: comparisons and predicate logic of SEQ, the condition of a branch, and the sticky flags
of the vector engine (04 R136, 06 R188, R191).
-/

namespace Sys2Proof.Machine

/-- CMP (06 R188): 0 EQ, 1 NE, 2 LT, 3 GE signed, 4 LTU, 5 GEU unsigned. -/
def cmpFn (fn : Nat) (a b : W64) : Bool :=
  match fn with
  | 0 => a == b
  | 1 => a != b
  | 2 => a.slt b
  | 3 => !a.slt b
  | 4 => a.ult b
  | _ => !a.ult b

/-- PLOG (06 R188): 0 AND, 1 OR, 2 XOR, 3 ANDN, 4 NOT. -/
def plogFn (fn : Nat) (a b : Bool) : Bool :=
  match fn with
  | 0 => a && b
  | 1 => a || b
  | 2 => a != b
  | 3 => a && !b
  | _ => !a

/-- The condition of BR on an S register (06 R191). -/
def brCond (cond : BitVec 2) (s : W64) (p : Bool) : Bool :=
  match cond.toNat with
  | 0 => s == 0
  | 1 => s != 0
  | 2 => s.msb
  | _ => p

/-- The sticky flags that an operation adds to VX_FLAGS (04 R136). -/
def Core.setFlags (c : Core) (f : VFlags) : Core := { c with vx := { c.vx with flags := c.vx.flags.join f } }

/-- VX_FLAGS as a register (04 R136). -/
def flagsWord (f : VFlags) : Nat :=
  b2n f.invalid + 2 * b2n f.overflow + 4 * b2n f.packSat + 8 * b2n f.packNan + 16 * b2n f.poisoned

/-- A value read by AOP (06 R189): 0 ADD, 1 MIN, 2 MAX, 3 SWAP, 4 CAS, on `w8` 8 bytes or 4. The old value, and the new
one. -/
def atomNew (o : AtomOp) (old : W64) : W64 :=
  let w := if o.w8 then 64 else 32
  let n := fun (x : W64) => x.toNat % 2 ^ w
  let lt := fun (x y : W64) => if o.sgn then sext (n x) w < sext (n y) w else n x < n y
  match o.aop.toNat with
  | 0 => BitVec.ofNat 64 ((n old + n o.b) % 2 ^ w)
  | 1 => if lt o.b old then BitVec.ofNat 64 (n o.b) else BitVec.ofNat 64 (n old)
  | 2 => if lt old o.b then BitVec.ofNat 64 (n o.b) else BitVec.ofNat 64 (n old)
  | 3 => BitVec.ofNat 64 (n o.b)
  | _ => if n old = n o.c then BitVec.ofNat 64 (n o.b) else BitVec.ofNat 64 (n old)

/-- Bytes of an atomic. -/
def atomLen (o : AtomOp) : Nat := if o.w8 then 8 else 4

end Sys2Proof.Machine
end

