-- ==== Sys2Proof/Machine/Pipe.lean ====
section
/-!
DEFINITION. What the pipelines of a core do at the ccyc that their timing fixes: the operand feed and the array, the beam,
the stages of the vector engine, transposing reads, and the line reads of outbound streams (03, 04, 05, 09).
-/

namespace Sys2Proof.Machine

/-- Puts an event of the pipelines `dt` ccyc ahead. -/
def Core.later (c : Core) (dt : Nat) (e : PEv) : Core := { c with pev := c.pev ++ [(c.tm.p + dt, e)] }

/-- The run's ccyc of pipeline time `t` (02 R57 CC_RUN_CCYC). -/
def Core.runAt (c : Core) (t : Nat) : Nat := (c.rn.runCcyc.toNat + t) - c.tm.p

/-! ### The operand feed (03 R78) -/

def Core.mxOp (c : Core) (id : Nat) : Option MxOp := c.mx.ops.find? fun o => o.id = id

def Core.setMxOp (c : Core) (o : MxOp) : Core :=
  { c with mx := { c.mx with ops := c.mx.ops.map fun x => if x.id = o.id then o else x } }

def Core.dropMxOp (c : Core) (id : Nat) : Core :=
  { c with mx := { c.mx with ops := c.mx.ops.filter fun x => x.id ≠ id } }

/-- Operand lines, and scale lines, that an operation's feed reads: kind 0 MLDW, 1 MMUL, 2 MRAW. -/
def MxOp.lineN (o : MxOp) : Nat :=
  match o.kind with
  | 0 => 128 / mxPerLine o.fmt
  | 1 => ceilDiv o.n (mxPerLine o.fmt)
  | _ => 8

def MxOp.scaleN (o : MxOp) : Nat :=
  if !o.mx then 0
  else match o.kind with
  | 0 => mxScaleLines o.fmt
  | 1 => ceilDiv o.n (mxVecPerScale o.fmt)
  | _ => 0

/-- The ccyc, from the stamp less 16, at which the feed reads line `u`, or scale line `u` (03 R78). -/
def MxOp.feedAt (o : MxOp) (scale : Bool) (u : Nat) : Nat :=
  match o.kind, scale with
  | 0, true => u
  | 0, false => 4 + u * mxPerLine o.fmt
  | 1, true => u * mxVecPerScale o.fmt * mxOcc o.fmt
  | 1, false => 4 + u * mxPerLine o.fmt * mxOcc o.fmt
  | _, _ => 4 + u / 4

/-- One line of the feed is read now, and the next one is put ahead. The first poisoned line raises POISON_USE
(03 R100). -/
def Core.feedLine (c : Core) (env : Env) (id : Nat) (scale : Bool) (u : Nat) : Core :=
  match c.mxOp id with
  | none => c
  | some o =>
    let line := if scale then o.sline + u else o.line + u
    let c := (c.checkRead env .mxe o.kvi ⟨5, line⟩ o.fed (some id)).1
    let c := c.access c.tm.p .mxe false line o.kvi (some id)
    let (c, v) := c.readLine env 1 o.kvi line o.fed o.ecc
    let v := { v with p := v.p || o.ap }
    let c := if v.p && !o.used then c.poisonUse .mxe o.kvi 4 5 line (scrDpa env.core (256 * line)) else c
    let o := { o with
      fed := o.fed + 1
      used := o.used || v.p
      lines := if scale then o.lines else o.lines ++ [v]
      scl := if scale then o.scl ++ [v] else o.scl }
    c.setMxOp o

/-- A feed's reads of this ccyc, and when its next ones come (03 R78): an MRAW reads four lines in each of two ccyc. -/
def Core.doFeed (c : Core) (env : Env) (id : Nat) (scale : Bool) (u : Nat) : Core :=
  match c.mxOp id with
  | none => c
  | some o =>
    if o.kind = 2 then
      let c := (upFrom u 4).foldl (fun (c : Core) k => c.feedLine env id false k) c
      if u = 0 then c.later 1 (.feed id false 4) else c
    else
      let c := c.feedLine env id scale u
      let n := if scale then o.scaleN else o.lineN
      if u + 1 < n then c.later (o.feedAt scale (u + 1) - o.feedAt scale u) (.feed id scale (u + 1)) else c

/-! ### The array (03 R75, R76, R80) -/

/-- The MXE_LOAD_OVERLAP violation (02 R56). -/
def Core.overlap (c : Core) (o : MxOp) (load : Nat) : Core :=
  c.addViol ⟨c.tm.p, .mxe, 5, 9, 0, c.runAt load, c.runAt c.tm.p, o.kvi, some o.id⟩

/-- A weight load begins. -/
def Core.loadBegin (c : Core) (id : Nat) : Core :=
  match c.mxOp id with
  | none => c
  | some o =>
    let c := if c.checked && c.tm.p < c.mx.lastEnd then c.overlap o c.tm.p else c
    { c with mx := { c.mx with loadAt := some c.tm.p } }.later 128 (.loadEnd id)

/-- A weight load ends: the tile is in place. -/
def Core.loadEnd (c : Core) (id : Nat) : Core :=
  match c.mxOp id with
  | none => c
  | some o =>
    let free := (upFrom 0 o.lineN).map fun k => LineVal.mk (Config.freeLine (c.fc + k)) false
    { c with
      fc := if o.bad then c.fc + o.lineN else c.fc
      mx := { c.mx with tile := ⟨true, o.fmt, o.mx, if o.bad then free else o.lines, o.scl⟩ } }.dropMxOp id

/-- What the check expects of a rod error (03 R101). -/
def rodExpect (t : Tile) (af : Nat) (l : LineVal) (q : Nat) (e : RodError) : RodError × Nat × Nat × Bool :=
  let bead := (mxDecode t.fmt (weightCode t.fmt t.lines e.place e.column), mxDecode af (inputCode af l q e.place))
  (e, expectTerm (mxFine t.fmt + mxFine af) (blockPairs t af l q e.column e.place), expectBead bead.1 bead.2,
    beadExact bead.1 bead.2)

/-- Whether a weight load is under way. -/
def Core.loading (c : Core) : Option Nat :=
  match c.mx.loadAt with
  | some l => if l ≤ c.tm.p && c.tm.p < l + 128 then some l else none
  | none => none

/-- Input vector `q` enters bead row 0 (03 R80), or the raw row of an MRAW enters the beam (R98). -/
-- DEDUCED: the raw row of an MRAW overlaps a weight load as an input vector does (notes/assumptions/55.md)
def Core.vector (c : Core) (id q : Nat) : Core :=
  match c.mxOp id with
  | none => c
  | some o =>
    let hit := if c.checked then c.loading else none
    let c := match hit with
      | some l => c.overlap o l
      | none => c
    let bad := o.bad || hit.isSome
    let c := { c with mx := { c.mx with vecs := c.mx.vecs + 1 } }
    if o.kind = 2 then
      let vals := (upFrom 0 128).map fun j =>
        let l := o.lines.getD (j / 16) LineVal.zero
        (BitVec.ofNat 128 (bits l.v.toNat (128 * (j % 16)) 128), l.p)
      let c := { c with mx := { c.mx with lastEnd := c.tm.p + 2 } }
      (c.later 262 (.raw o.row o.sa (if bad then [] else vals))).dropMxOp id
    else
      let line := o.lines.getD (q / mxPerLine o.fmt) LineVal.zero
      let scl := o.scl.getD (q / mxVecPerScale o.fmt) LineVal.zero
      let cols := if bad then [] else rowResult c.mx.tile o.fmt o.mx line scl q
      let errs := (o.rods.filter fun e => e.vector = q).map (rodExpect c.mx.tile o.fmt line q)
      let c := { c with mx := { c.mx with lastEnd := c.tm.p + mxOcc o.fmt } }
      let c := c.later (mxLat o.fmt) (.beam ((o.row + q) % 512) (o.acc || false) cols errs o.kvi)
      if q + 1 < o.n then c.later (mxOcc o.fmt) (.vector id (q + 1)) else c.dropMxOp id

/-! ### The beam (03 R82 to R102) -/

def tileMode (c : Core) (row : Nat) : TileMode := tget TileMode.reset c.mx.modes (row / 64)

/-- One column's result arrives at its entry (03 R85, R87, R89, R93). -/
def arrive (m : TileMode) (acc : Bool) (en : Entry) (r : ColRes) : Entry :=
  if m.fp32 then
    let old : W32 := en.x.truncate 32
    let v := if acc then f32Add old r.sum else r.sum
    ⟨v.setWidth 128, false, .none, (acc && en.poison) || r.poison⟩
  else
    let base := if acc then en else Entry.zero
    let e := r.terms.foldl (accTerm m.anchor) base
    { e with poison := e.poison || r.poison }

/-- A row of results arrives. -/
def putRow (beam : SMap Entry) (row : Nat) (f : Nat → Entry → Entry) : SMap Entry :=
  (upFrom 0 128).foldl (fun b j => tput Entry.zero b (128 * row + j) (f j (tget Entry.zero b (128 * row + j)))) beam

/-- Unpredictable entries of a beam row (02 R53). -/
def freeEntry (n : Nat) (en : Entry) : Entry :=
  ⟨Config.free128 n, Config.freeBit n, .none, en.poison⟩

/-- The casting-out check of one rod error at the beam (03 R101, R102). -/
def Core.residue (c : Core) (row kvi : Nat) (x : RodError × Nat × Nat × Bool) : Core :=
  let (e, term, bead, exact) := x
  let m := tileMode c row
  let k := 128 * row + e.column
  let want := if m.fp32 then bead else term
  let n := c.fc
  let caught := e.observe.toNat ≠ want && (!m.fp32 || exact)
  let en := tget Entry.zero c.mx.beam k
  let en := { freeEntry n en with poison := en.poison || caught }
  let c := { c with fc := n + 1, mx := { c.mx with beam := tput Entry.zero c.mx.beam k en } }
  if !caught then c
  else
    let prod := physRod c.mx.rodFail.toNat e.column
    let blk := if m.fp32 then e.place / 32 else e.place
    let c := { c with mx := { c.mx with
      trip := true
      resCnt := satAdd c.mx.resCnt 1
      rodPend := c.mx.rodPend ||| BitVec.ofNat 132 (2 ^ prod) } }
    c.raise 0x05 true 1 kvi
      (fld prod 0 8 + fld e.column 8 7 + fld row 16 9 + fld blk 25 3 + fld (b2n m.fp32) 28 1 + fld want 32 8
        + fld e.observe.toNat 40 8)
      (fld e.vector 0 10 + fld (if m.fp32 then e.place else 0) 10 7) .efault

/-- What reaches the beam at the end of this ccyc, then the clears issued in it (03 R83, R100). -/
def Core.beamEvent (c : Core) (x : PEv) : Core :=
  match x with
  | .beam row acc cols faults kvi =>
    if cols.isEmpty then
      { c with
        fc := c.fc + 128
        mx := { c.mx with beam := putRow c.mx.beam row fun j en => freeEntry (c.fc + j) en } }
    else
      let m := tileMode c row
      let c := { c with mx := { c.mx with
        beam := putRow c.mx.beam row fun j en => arrive m acc en (cols.getD j ⟨[], 0, false⟩) } }
      faults.foldl (fun (c : Core) f => c.residue row kvi f) c
  | .raw row sa vals =>
    if vals.isEmpty then
      { c with
        fc := c.fc + 128
        mx := { c.mx with beam := putRow c.mx.beam row fun j en => freeEntry (c.fc + j) en } }
    else
      let m := tileMode c row
      { c with mx := { c.mx with
        beam := putRow c.mx.beam row fun j en =>
          let v := vals.getD j (0, false)
          addRaw sa m.anchor v.1 v.2 en } }
  | _ => c

def Core.clearEvent (c : Core) (x : PEv) : Core :=
  match x with
  | .clear tile mode =>
    { c with mx := { c.mx with
      beam := tdrop (fun k => k / (128 * 64) == tile) c.mx.beam
      modes := tput TileMode.reset c.mx.modes tile mode } }
  | _ => c

/-- The events of the ccyc in progress that come about at its end. -/
def isBeam : PEv → Bool
  | .beam .. => true
  | .raw .. => true
  | _ => false

def isClear : PEv → Bool
  | .clear .. => true
  | _ => false

def Core.beamEnd (c : Core) : Core :=
  let now := (c.pev.filter fun x => x.1 = c.tm.p && (isBeam x.2 || isClear x.2)).map (·.2)
  let c := { c with pev := c.pev.filter fun x => !(x.1 = c.tm.p && (isBeam x.2 || isClear x.2)) }
  let c := (now.filter isBeam).foldl Core.beamEvent c
  (now.filter isClear).foldl Core.clearEvent c

/-! ### The vector engine (04 R113 to R135) -/

def Core.vxOp (c : Core) (id : Nat) : Option VxOp := c.vx.ops.find? fun o => o.id = id

def Core.setVxOp (c : Core) (o : VxOp) : Core :=
  { c with vx := { c.vx with ops := c.vx.ops.map fun x => if x.id = o.id then o else x } }

def Core.dropVxOp (c : Core) (id : Nat) : Core :=
  { c with vx := { c.vx with ops := c.vx.ops.filter fun x => x.id ≠ id } }

/-- A chain takes a poisoned operand: one POISON_USE for the chain (04 R134). -/
def Core.chainPoison (c : Core) (o : VxOp) (rkind rindex : Nat) (p : Bool) : Core × VxOp :=
  if p && !o.used then
    (c.poisonUse .vxe o.kvi 0 rkind rindex 0, { o with used := true })
  else (c, o)

/-- The resource kind and number that a specifier names (16 R482). -/
def specRes (s : Spec) : Nat × Nat :=
  match s.kind.toNat with
  | 1 => (3, s.idx.toNat)
  | 2 => (0, s.idx.toNat)
  | _ => (4, s.idx.toNat)

/-- 256 lanes of one value. -/
def broadcast (w : W32) (p : Bool) : List Lane := (upFrom 0 256).map fun _ => ⟨w, p⟩

/-- The register or entry that a specifier names. -/
def resOf (s : Spec) : Res := ⟨(specRes s).1, (specRes s).2⟩

/-- The V and S registers that a chain reads at its issue, each one once (04 R112): source A, a RAW pair's second register, the
operands, S[SX]. -/
def chainRegs (ch : Chain) (f : VopFields) : List Res :=
  let used := ch.stages.flatMap (stageBindings ch)
  let a := if f.srca.kind = 1 then
      Res.mk 3 f.srca.idx.toNat :: (if isRaw ch then [Res.mk 3 (f.srca.idx.toNat + 1)] else []) else []
  let ops := ([1, 2, 3].filter fun b => used.contains b && ((specOf f b).kind = 1 || (specOf f b).kind = 2)).map
    fun b => resOf (specOf f b)
  (a ++ ops ++ if readsSx ch then [Res.mk 0 f.sx.toNat] else []).foldl (fun l r => if l.contains r then l else l ++ [r]) []

/-- Reads one register for a chain: a V register, or an S register, broadcast; S[SX] also as the 64-bit value. -/
def Core.chainRead (env : Env) (x : Core × VxOp) (r : Res) : Core × VxOp :=
  if r.kind = 3 then
    let y := x.1.readV env .vxe x.2.kvi r.index
    (y.1, { x.2 with vals := x.2.vals ++ [(r, y.2)] })
  else
    let y := x.1.readS env .vxe x.2.kvi r.index
    (y.1, { x.2 with
      vals := x.2.vals ++ [(r, broadcast (y.2.v.truncate 32) y.2.p)]
      sx := if r.index = x.2.f.sx.toNat then y.2 else x.2.sx })

/-- The lanes of a register or entry that a chain has read. -/
def VxOp.val (o : VxOp) (r : Res) : List Lane :=
  match o.vals.find? fun x => x.1 = r with
  | some x => x.2
  | none => broadcast 0 false

/-- The lanes of an operand; zero where the specifier names none. -/
def VxOp.operand (o : VxOp) (s : Spec) : List Lane := if s.kind = 0 then broadcast 0 false else o.val (resOf s)

/-- Whether the lanes of source A that a chain's first stage takes are poisoned. -/
def srcPoison (o : VxOp) : Bool :=
  match o.chain.stages with
  | 0 :: _ =>
    if isRaw o.chain then o.a.any (·.p) || o.b.any (·.p)
    else
      let w := elemWidth o.chain.cvtFmt
      let lo := 256 * o.f.sel.toNat * w / 32
      ((o.a.drop lo).take (8 * w)).any (·.p)
  | _ => o.a.any (·.p)

/-- The stage units that a chain will enter: one that another chain enters in the same ccyc is an overlap, against the
later chain (04 R131). -/
def Core.enterStages (c : Core) (o : VxOp) : Core :=
  if !c.checked then c
  else (stageTimes 1 o.chain.stages).foldl (fun (c : Core) x =>
    let t := c.tm.p + x.2
    let c := match c.ck.stages.find? (fun (u : StageUse) => u.time = t && u.stage = x.1) with
      | some u => c.addViol ⟨t, .vxe, 6, 10, x.1, x.1, u.kvi, o.kvi, some o.dest⟩
      | none => c
    { c with ck := { c.ck with stages := c.ck.stages ++ [⟨t, x.1, o.kvi⟩] } }) c

/-- The chain issues: its guard, its V and S operands (04 R113). A suppressed chain does nothing more (06 R178). -/
def Core.chainIssue (c : Core) (env : Env) (o : VxOp) : Core :=
  let (c, go) := match o.guard with
    | none => (c, true)
    | some g =>
      let (c, p) := c.readP env .vxe o.kvi g.p.toNat
      ((if p.p then c.poisonUse .vxe o.kvi 2 2 g.p.toNat 0 else c), p.v != g.inverted)
  if !go then { c with pend := c.pend.filter fun w => w.id ≠ o.dest && o.sdest ≠ some w.id }.dropVxOp o.id
  else
    let c := o.early.foldl (fun (c : Core) v => c.addViol { v with time := c.tm.p }) c
    let c := { c with vx := { c.vx with chains := c.vx.chains + 1, svc := c.rn.mode = 2 } }
    let c := c.enterStages o
    let (c, o) := (chainRegs o.chain o.f).foldl (Core.chainRead env) (c, o)
    let a := o.operand o.f.srca
    let b := if isRaw o.chain then o.val ⟨(specRes o.f.srca).1, o.f.srca.idx.toNat + 1⟩ else []
    let o := { o with a := a, b := b, cur := a }
    if o.chain.stages.isEmpty then
      (c.fill o.dest (.lanes (a.zipIdx.map fun x => (x.2, x.1)))).dropVxOp o.id
    else (c.setVxOp o).later 1 (.stage o.id 1)

/-- An operand of a stage by its binding. -/
def bound (o : VxOp) (b : Nat) : List Lane := if b = 0 then broadcast 0 false else o.operand (specOf o.f b)

/-- The result of stage `st` on the lanes that enter it, with the flags it sets. -/
def stageOut (env : Env) (vx : Vxe) (o : VxOp) (svc : Bool) (st : Nat) : List (Nat × Lane) × VFlags :=
  let ch := o.chain
  let all := fun (l : List LaneOut) =>
    (l.zipIdx.map fun x => (x.2, x.1.1), l.foldl (fun f x => f.join x.2) VFlags.none)
  match st with
  | 0 =>
    if ch.cvtFmt = 11 then all (stageCvtRaw o.f.half (sext o.sx.v.toNat 12) o.sx.p o.a o.b)
    else all (stageCvt ch.cvtFmt o.f.sel.toNat o.cur)
  | 1 => all (stageMul o.cur (bound o ch.bMul))
  | 2 => all (stageAdd ch.addForm o.cur (bound o ch.bAdd))
  | 3 => all (stageCsel ch.cselPred ch.cselMask o.cur (bound o ch.bCsb) (bound o ch.bCsc))
  | 4 => all (stageLut ch.lutFn vx.lut o.cur)
  | 5 => all (stageShf ch.shf o.cur)
  | 6 =>
    let r := stageRed ch.redOp ch.redG16 o.cur
    (r.1.zipIdx.map fun x => (x.2, x.1), r.2)
  | _ =>
    let word := fun lane => srWord vx.seed ch.packIndex env.core (if svc then vx.srSeq else o.ccyc) o.sx.v lane
    let r := stagePack ch.packFmt o.f.sel.toNat ch.packSplit ch.packSat
      (fun lane => if ch.packSr then some (word lane) else none) o.cur
    if o.sx.p && readsSx ch then (r.1.map fun (x : Nat × Lane) => (x.1, Lane.mk x.2.v true), r.2) else r

/-- The chain enters stage `k`. -/
def Core.chainStage (c : Core) (env : Env) (o : VxOp) (k : Nat) : Core :=
  let st := o.chain.stages.getD (k - 1) 0
  -- poison uses: source A at the first stage, then the operands in the order of 16 R482
  let (c, o) := if k = 1 then
      c.chainPoison o (specRes o.f.srca).1 (specRes o.f.srca).2 (srcPoison o)
    else (c, o)
  let (c, o) := (stageBindings o.chain st).foldl (fun (x : Core × VxOp) b =>
    if b = 0 then x
    else x.1.chainPoison x.2 (specRes (specOf o.f b)).1 (specRes (specOf o.f b)).2 ((bound o b).any (·.p))) (c, o)
  let (c, o) := if (st = 0 || st = 7) && readsSx o.chain then c.chainPoison o 0 o.f.sx.toNat o.sx.p else (c, o)
  let (c, o) := if st = 4 && o.chain.lutFn = 4 then
      c.chainPoison o 4 c.vx.lut.entry (o.cur.any fun (x : Lane) => (lutAct c.vx.lut x.v).p)
    else (c, o)
  let svc := c.rn.mode = 2
  let (lanes, f) := stageOut env c.vx o svc st
  let c := if st = 7 && o.chain.packSr && svc then { c with vx := { c.vx with srSeq := c.vx.srSeq + 1 } } else c
  let f := { f with poisoned := lanes.any fun (x : Nat × Lane) => x.2.p }
  let c := c.setFlags f
  if k < o.chain.stages.length then
    (c.setVxOp { o with cur := lanes.map (·.2) }).later (stageLat st) (.stage o.id (k + 1))
  else
    let c := c.fill o.dest (.lanes lanes)
    let c := match o.sdest with
      | none => c
      | some id =>
        let l := ((lanes.map Prod.snd).head?).getD Lane.zero
        let r := redScalar o.chain.redInt l
        (c.fill id (.s r.1 l.p)).setFlags { VFlags.none with invalid := r.2 }
    c.dropVxOp o.id

/-! ### Transposing reads (05 R147) -/

/-- Four lines of a transposing read; after the last ones, the registers are known. -/
def Core.transposeStep (c : Core) (env : Env) (op k : Nat) : Core :=
  match c.vx.tr.find? fun o => o.id = op with
  | none => c
  | some o =>
    if k < 16 then
      let (c, vs) := c.readLines env .vxe o.kvi (some op) o.ecc (4 * k) ((o.src.drop (4 * k)).take 4)
      let tr := c.vx.tr.map fun (x : TrOp) => if x.id = op then
          { x with lines := x.lines ++ vs.map fun (v : LineVal) => { v with p := v.p || x.ap } } else x
      { c with vx := { c.vx with tr := tr } }.later 1 (.transpose op (k + 1))
    else
      let c := o.dests.zipIdx.foldl (fun (c : Core) x =>
        c.fill x.1 (if o.bad then .junk else .lanes (transposedReg o.tw x.2 o.lines))) c
      { c with vx := { c.vx with tr := c.vx.tr.filter fun x => x.id ≠ op } }

/-! ### The events that begin a ccyc -/

/-- Reads of the ccyc that begins: feeds, transposes, outbound lines, operand-cache operands. -/
def Core.readEvent (c : Core) (env : Env) (x : PEv) : Core :=
  match x with
  | .feed id scale u => c.doFeed env id scale u
  | .transpose op k => c.transposeStep env op k
  | .ocRead op entry =>
    match c.vxOp op with
    | none => c
    | some o =>
      let (c, l) := c.readOc env .vxe o.kvi entry (some o.dest)
      c.setVxOp { o with vals := o.vals ++ [(⟨4, entry⟩, l)] }
  | _ => c

/-- What enters the array and the stages in the ccyc that begins. -/
def Core.enterEvent (c : Core) (env : Env) (x : PEv) : Core :=
  match x with
  | .loadBegin op => c.loadBegin op
  | .vector op q => c.vector op q
  | .stage op k =>
    match c.vxOp op with
    | none => c
    | some o => if k = 0 then c.chainIssue env o else c.chainStage env o k
  | _ => c

end Sys2Proof.Machine
end

