-- ==== Sys2Proof/Machine/Streams.lean ====
section
/-!
DEFINITION. The stream engines of a core: descriptors, the walk and its requests, transactions, what a request sends,
and the line reads of outbound requests (09).
-/

namespace Sys2Proof.Machine

/-! ### Descriptors (09 R255, R256) -/

/-- Descriptor fields as held in a slot. -/
def dSrc (d : List Byte) : Nat := leAt d 0 8
def dDst (d : List Byte) : Nat := leAt d 8 8
def dEsize (d : List Byte) : Nat := bits (leAt d 0x10 4) 0 25
def dSched (d : List Byte) : Bool := bits (leAt d 0x14 4) 0 2 == 0
def dRing (d : List Byte) : Bool := bitAt (leAt d 0x14 4) 2
def dMcast (d : List Byte) : Bool := bitAt (leAt d 0x14 4) 3
def dNdim (d : List Byte) : Nat := bits (leAt d 0x14 4) 4 3
def dGate (d : List Byte) : Nat := bits (leAt d 0x14 4) 8 7
def dRslots (d : List Byte) : Nat := bits (leAt d 0x14 4) 16 7
def dCount (d : List Byte) (k : Nat) : Nat := leAt d (0x18 + 4 * k) 4
def dSstr (d : List Byte) (k : Nat) : Int := sext (leAt d (0x2C + 4 * k) 4) 32
def dDstr (d : List Byte) (k : Nat) : Int := sext (leAt d (0x40 + 4 * k) 4) 32
def dPace (d : List Byte) : Nat := leAt d 0x54 4
def dFpace (d : List Byte) : Nat := leAt d 0x58 4
def dFillb (d : List Byte) : Nat := leAt d 0x5C 4
def dCslot (d : List Byte) : Nat := bits (leAt d 0x60 2) 0 10
def dTslot (d : List Byte) : Nat := bits (leAt d 0x62 2) 0 9
def dTsen (d : List Byte) : Bool := bitAt (leAt d 0x62 2) 15
def dMcg (d : List Byte) : Nat := bits (leAt d 0x64 1) 0 6
def dCirc (d : List Byte) : Nat := bits (leAt d 0x68 4) 0 12
def dTmo (d : List Byte) : Nat := leAt d 0x6C 4

/-- Elements and bytes of the stream; the bytes of a fill (09 R258, R260). -/
def dElems (d : List Byte) : Nat := dCount d 0 * dCount d 1 * dCount d 2 * dCount d 3 * dCount d 4
def dBytes (d : List Byte) : Nat := dElems d * dEsize d
def dFill (d : List Byte) : Nat := if dFillb d = 0 then dBytes d else dFillb d

/-- Fills of a transfer. -/
def dFills (d : List Byte) : Nat := if dFill d = 0 then 0 else dBytes d / dFill d

/-- The offset that an element's indexes give, by the strides `str` (09 R258). -/
def walkOff (d : List Byte) (str : Nat → Int) (e : Nat) : Int :=
  let i0 := e % dCount d 0
  let e := e / dCount d 0
  let i1 := e % dCount d 1
  let e := e / dCount d 1
  let i2 := e % dCount d 2
  let e := e / dCount d 2
  let i3 := e % dCount d 3
  let i4 := e / dCount d 3
  i0 * str 0 + i1 * str 1 + i2 * str 2 + i3 * str 3 + i4 * str 4

/-- The ring address of stream byte `n` (09 R270). -/
def ringAddr (d : List Byte) (loc n : Nat) : Nat :=
  loc + (n / dFill d % dRslots d) * dFill d + n % dFill d

/-- Source and destination address of stream byte `n`; `out` says that the local side is the source (09 R256, R258). -/
def walkSrc (d : List Byte) (out : Bool) (n : Nat) : Nat :=
  if dRing d && out then ringAddr d (dSrc d) n
  else wrapInt ((dSrc d : Int) + walkOff d (dSstr d) (n / dEsize d) + (n % dEsize d : Nat)) 64

def walkDst (d : List Byte) (out : Bool) (n : Nat) : Nat :=
  if dRing d && !out then ringAddr d (dDst d) n
  else wrapInt ((dDst d : Int) + walkOff d (dDstr d) (n / dEsize d) + (n % dEsize d : Nat)) 64

/-! ### Remote sides (09 R256, 01 R30, 13 R379) -/

/-- What a remote address names. -/
inductive Remote where
  | hbm (dpa : Nat)
  | scr (core addr : Nat)
  | fabric (addr : Nat)
  | bad (cause : Nat)
  deriving DecidableEq, Repr

def hbmUser : Nat := 0x011E00000000
def hbmEnd : Nat := 0x012000000000
def scrBase : Nat := 0x100000000000
def scrEnd : Nat := 0x100100000000

/-- A DPA's place: HBM, a scratchpad, or unmapped (01 R30, R31). -/
def dpaPlace (fwpriv : Bool) (dpa : Nat) : Remote :=
  if dpa < hbmUser then .hbm dpa
  else if dpa < hbmEnd then if fwpriv then .hbm dpa else .bad 2
  else if scrBase ≤ dpa && dpa < scrEnd then .scr ((dpa - scrBase) / scrBytes) ((dpa - scrBase) % scrBytes)
  else .bad 1

/-- A remote address; a fabric address of this device is served as the DPA that it carries (09 R256). -/
def remotePlace (env : Env) (a : Nat) : Remote :=
  let cls := bits a 60 4
  if cls = 0 then dpaPlace env.fwpriv (a % 2 ^ 60)
  else if cls = 8 then
    if bits a 48 12 = env.dev then dpaPlace env.fwpriv (a % 2 ^ 48) else .fabric a
  else .bad 5

/-! ### Requests (09 R259) -/

/-- How many bytes a request may still take at its remote side: what the granule, or the core's scratchpad, still holds. -/
def remoteRoom (r : Remote) : Nat :=
  match r with
  | .hbm dpa => 2048 - dpa % 2048
  | .scr _ addr => min 256 (scrBytes - addr)
  | _ => 256

/-- The longest run of consecutive bytes from stream byte `n`, at most `lim`. -/
def runLen (d : List Byte) (out : Bool) : Nat → Nat → Nat → Nat
  | 0, _, _ => 0
  | fuel + 1, n, lim =>
    let chunk := min lim (dEsize d - n % dEsize d)
    if chunk = lim || chunk = 0 then chunk
    else if walkSrc d out (n + chunk) = walkSrc d out n + chunk && walkDst d out (n + chunk) = walkDst d out n + chunk then
      chunk + runLen d out fuel (n + chunk) (lim - chunk)
    else chunk

/-- The request that starts at stream byte `n`: its remote place, local address and length. -/
def nextRequest (env : Env) (d : List Byte) (out : Bool) (n : Nat) : Remote × Nat × Nat × Nat :=
  let ra := if out then walkDst d out n else walkSrc d out n
  let la := if out then walkSrc d out n else walkDst d out n
  let r := remotePlace env ra
  let lim := min (remoteRoom r) (min (dFill d - n % dFill d) (dBytes d - n))
  (r, ra, la, runLen d out 2048 n lim)

/-- Whether destinations of one transfer may coincide (R258): a ring, or a dimension whose stride does not pass what the
dimensions below it span. -/
def dCoincide (d : List Byte) : Bool :=
  dRing d || ((upFrom 0 5).foldl (fun (x : Bool × Nat) k =>
    if dCount d k ≤ 1 then x
    else
      let w := (dDstr d k).natAbs
      (x.1 || w < x.2, x.2 + w * (dCount d k - 1))) (false, dEsize d)).1

/-- The lines of a local range. -/
def linesOf (addr len : Nat) : List Nat := upFrom (addr / 256) ((addr + len - 1) / 256 + 1 - addr / 256)

/-! ### Slots and transactions (09 R254, R265) -/

def Core.slot (c : Core) (e : Dma) (s : Nat) : Slot :=
  tget Slot.idle c.dm.slots (if e = .inbound then s else 16 + s)

def Core.setSlot (c : Core) (e : Dma) (s : Nat) (x : Slot) : Core :=
  { c with dm := { c.dm with slots := tput Slot.idle c.dm.slots (if e = .inbound then s else 16 + s) x } }

def Core.schedOut (c : Core) : Nat := (c.dm.txns.filter fun t => t.sched).length
def Core.elasOut (c : Core) : Nat := (c.dm.txns.filter fun t => !t.sched && t.sent).length

/-- SPEC0 of DMA_ERR (09 R280). -/
def dmaSpec0 (cause : Nat) (out : Bool) (slot : Nat) (datom : Bool) (pc slotno req : Nat) : Nat :=
  fld cause 0 8 + fld (b2n out) 8 1 + fld slot 9 4 + fld (b2n datom) 13 1 + fld pc 16 10 + fld slotno 26 10
    + fld req 36 28

/-- A DMA_ERR of a slot's transfer: the slot goes to ERROR (09 R279). -/
def Core.slotFault (c : Core) (e : Dma) (s kvi cause pc slotno req addr : Nat) : Core :=
  let x := c.slot e s
  (c.setSlot e s { x with state := 3, cause := cause, fault := true }).dmaErr x.rctx e.engine kvi
    (dmaSpec0 cause (e = .outbound) s false pc slotno req) addr

/-- An ADDR fault of a slot's transfer, of the run that started it (09 R254, R257, R277). -/
def Core.slotAddr (c : Core) (e : Dma) (s kvi addr cause : Nat) : Core :=
  let x := c.slot e s
  (c.setSlot e s { x with state := 3, fault := true }).raiseIn x.rctx 0x04 true e.engine.code kvi addr (cause + 16 * 3) .efault

def Core.send (c : Core) (m : Msg) : Core := { c with tx := c.tx ++ [m] }

def Core.txn (c : Core) (id : Nat) : Option Txn := c.dm.txns.find? fun t => t.id = id

def Core.setTxn (c : Core) (t : Txn) : Core :=
  { c with dm := { c.dm with txns := c.dm.txns.map fun x => if x.id = t.id then t else x } }

/-- A transaction entry is taken (09 R265). -/
def Core.openTxn (c : Core) (t : Txn) : Core :=
  let c := { c with dm := { c.dm with txns := c.dm.txns ++ [t] }, ids := c.ids + 1 }
  { c with dm := { c.dm with hwm := max c.dm.hwm c.schedOut } }

/-- Packets of a request to HBM: one for each 256-byte block of the granule that it touches (09 R259). -/
def blocks256 (dpa len : Nat) : Nat := (dpa + len - 1) / 256 + 1 - dpa / 256

/-- A fabric header as an engine forms it; the port fills in the rest (13 R381). -/
def fabHeader (env : Env) (addr type vc len circ : Nat) (tsen : Bool) (tslot : Nat) (poison : Bool) : Header :=
  { addr := BitVec.ofNat 64 addr, type := BitVec.ofNat 5 type, vc := BitVec.ofNat 2 vc, poison := poison
    len := BitVec.ofNat 9 len, srcDev := BitVec.ofNat 12 env.dev, srcAg := BitVec.ofNat 8 env.core
    circ := BitVec.ofNat 12 circ, tsen := tsen, tslot := BitVec.ofNat 9 tslot, hops := 0, tag := 0, status := 0
    aop := 0, w8 := false, sgn := false, depart := 0, budget := 0, seq := 0, crc := 0 }

/-- The source that packets of this core name. -/
def Env.source (env : Env) : Source := ⟨env.dev, env.core, false⟩

/-- A read request of DMA0 leaves the core (09 R259, R267, R274). `members` are the logical cores of the multicast
group. -/
def Core.sendRead (c : Core) (env : Env) (d : List Byte) (r : Remote) (la len txn : Nat) (sched : Bool)
    (members : List Nat) : Core :=
  let own : Dest := ⟨env.core, la, .dma⟩
  let dests := if dMcast d then own :: (members.filter fun m => m ≠ env.core).map fun m => ⟨m, la, .write⟩ else [own]
  match r with
  | .hbm dpa =>
    c.send (.hub ⟨dpa, .read len, sched, if sched then some (dCslot d) else none, 0, env.source, dests, .core env.core txn⟩)
  | .scr core addr =>
    c.send (.remote core ⟨scrDpa core addr, .read len, sched, none, 0, env.source, dests, .core env.core txn⟩)
  | .fabric a =>
    c.send (.fabric (fabHeader env a 0x02 (if sched then 0 else 1) len (dCirc d) (dTsen d) (dTslot d) false) []
      sched (.core env.core txn))
  | .bad _ => c

/-- How many completions a request awaits: one for each packet at each member. -/
def readLeft (env : Env) (d : List Byte) (r : Remote) (len : Nat) (members : List Nat) : Nat :=
  match r with
  | .hbm dpa => blocks256 dpa len * (if dMcast d then 1 + (members.filter fun m => m ≠ env.core).length else 1)
  | _ => 1

/-- The bytes that an outbound request has read, with a mark for each byte; free bytes after a read that broke the
schedule (02 R53). -/
def txnData (c : Core) (t : Txn) : List Byte × List Bool :=
  if t.bad then (freeBytes c.fc 0 t.bytes, List.replicate t.bytes false)
  else
    let all := t.buf.flatMap fun l => leBytes l.v.toNat 256
    let marks := t.buf.flatMap fun l => List.replicate 256 l.p
    (((all.drop (t.lcl % 256)).take t.bytes), ((marks.drop (t.lcl % 256)).take t.bytes))

/-- An outbound request has read its last line: it leaves the core (09 R259, R262). -/
def Core.sendWrite (c : Core) (env : Env) (t : Txn) : Core :=
  let d := (c.slot .outbound t.slot).desc
  let x := txnData c t
  let c := if t.bad then { c with fc := c.fc + 1 } else c
  let src := env.source
  match remotePlace env t.addr with
  | .hbm dpa =>
    c.send (.hub ⟨dpa, .write x.1 x.2, t.sched, if t.sched then some (dCslot d) else none, 0, src, [], .core env.core t.id⟩)
  | .scr core addr =>
    c.send (.line core ⟨addr, x.1, x.2.any id, t.sched, src, .write, .core env.core t.id, none, t.walk⟩)
  | .fabric a =>
    c.send (.fabric (fabHeader env a 0x01 (if t.sched then 0 else 1) t.bytes (dCirc d) (dTsen d) (dTslot d) (x.2.any id))
      x.1 t.sched (.core env.core t.id))
  | .bad _ => c

/-- Lines that an outbound request reads. -/
def Txn.lineList (t : Txn) : List Nat := if t.out && !t.datom then linesOf t.lcl t.bytes else []

/-- A line read of an outbound SCHED request at its ccyc (09 R262); one ccyc after the last one the request leaves. -/
def Core.dmaLine (c : Core) (env : Env) (id k : Nat) : Core :=
  match c.txn id with
  | none => c
  | some t =>
    match t.lineList[k]? with
    | none => c.sendWrite env t
    | some line =>
      let (c, vs) := c.readLines env .dma1 t.kvi (some id) t.ecc k [line]
      (c.setTxn { t with buf := t.buf ++ vs }).later 1 (.dmaLine id (k + 1))

/-- The elastic outbound request whose lines are read next. -/
def Core.elasticTxn (c : Core) : Option Txn :=
  c.dm.txns.find? fun t => t.out && !t.sched && !t.datom && t.buf.length < t.lineList.length

/-- At the end of a ccyc the next line of an elastic outbound request is read, if a port and its bank are idle
(09 R264); with the last one the request leaves. -/
def Core.elasticRead (c : Core) (env : Env) : Core :=
  match c.elasticTxn with
  | none => c
  | some t =>
    match t.lineList[t.buf.length]? with
    | none => c
    | some line =>
      if c.portFree false line then
        let c := c.usePort false line
        let (c, v) := c.readLine env 4 t.kvi line t.buf.length t.ecc
        let t := { t with buf := t.buf ++ [v] }
        let c := c.setTxn t
        if t.buf.length = t.lineList.length then c.sendWrite env t else c
      else c

end Sys2Proof.Machine
end

