-- ==== Sys2Proof/Machine/Place.lean ====
section
/-!
DEFINITION. What the landing unit does at the end of a ccyc, in the ports and banks that the engines left idle: it places lines, serves
a remote read, and reads and writes for an atomic (05 R42, R153 to R162; 10 R304, R305).
-/

namespace Sys2Proof.Machine

open Sys2Proof

/-! ### The window check (R155, R156) -/

/-- The window that holds a line, if one is defined there. -/
def Landing.windowOf (l : Landing) (line : Nat) : Option (Nat × Window) :=
  l.win.find? fun x => x.2.first ≤ line && line < x.2.first + x.2.count

/-- The lines that a packet touches; one without payload touches the line of its address. -/
def pktLines (addr len : Nat) : List Nat := if len = 0 then [addr / 256] else linesOf addr len

/-- The window of a write, or the cause of its rejection: 1 outside any window, 2 window closed, 3 source class not admitted,
4 bytes in two windows (R164). -/
def Landing.check (l : Landing) (addr len : Nat) (fabric : Bool) : Except Nat Nat :=
  match (pktLines addr len).map l.windowOf with
  | [] => .error 1
  | none :: _ => .error 1
  | some (n, w) :: rest =>
    if rest.any (fun x => x.isNone) then .error 1
    else if rest.any (fun x => x.map (·.1) != some n) then .error 4
    else if w.src = 0 then .error 2
    else if fabric && w.src = 1 then .error 3
    else .ok n

/-- Whether a kind of packet needs a window. -/
def PktKind.checked : PktKind → Bool
  | .write => true
  | .record _ => true
  | _ => false

/-- A packet rejected: it is counted, its sender answered EAPERTURE (R156). -/
def Core.reject (c : Core) (src : Source) (cause : Nat) (kind : PktKind) (addr : Nat) (r : Reply) : Core :=
  let c := { c with lu := { c.lu with
    rejCnt := satAdd c.lu.rejCnt 1
    rejSrc := BitVec.ofNat 32 (fld src.dev 0 12 + fld src.core 12 8 + fld (b2n src.fabric) 20 1 + fld cause 21 3) } }
  match kind with
  | .record q => c.send (.placed q addr false r)
  | _ => c.send (.reply r .eaperture 4 0 0 [] false)

/-! ### Arrival (R154, R157, R161) -/

def Held.level (h : Held) : Nat := h.lines.length
def Landing.level (l : Landing) : Nat := (l.buf.map Held.level).foldl (· + ·) 0

/-- The lines of a packet, each with its bytes. -/
def splitLines (addr : Nat) (d : List Byte) : List (Nat × List Byte) :=
  if d.isEmpty then []
  else
    let n := 256 - addr % 256
    if d.length ≤ n then [(addr, d)] else [(addr, d.take n), (addr + n, d.drop n)]

/-- An event of the island's time. -/
def Core.at (c : Core) (dt : Nat) (e : NEv) : Core := { c with nev := c.nev ++ [(c.tm.now + dt, e)] }

/-- Packets whose lines are all placed leave the buffer: one without payload waits for the packets of its class and window that
came before it and are held (R157). -/
def releaseEmpty : List Held → List Held → List Held × List Held
  | _, [] => ([], [])
  | seen, h :: t =>
    let waits := h.pkt.data.isEmpty
      && seen.any fun x => x.pkt.sched = h.pkt.sched && x.win = h.win && !x.lines.isEmpty
    if h.lines.isEmpty && !waits then
      let r := releaseEmpty seen t
      (h :: r.1, r.2)
    else
      let r := releaseEmpty (seen ++ [h]) t
      (r.1, h :: r.2)

/-- A piece of a transaction of this core has been placed (10 R300). -/
def Core.piecePlaced (c : Core) (p : LinePkt) : Core :=
  match p.kind, p.reply with
  | .dma, .core _ id =>
    match c.txn id with
    | some x => c.setTxn { x with unpl := x.unpl - 1 }
    | none => c
  | _, _ => c

/-- The arrivals of packets wholly placed in this ccyc fall due at placement + 2. -/
def Core.finishHeld (c : Core) : Core :=
  let r := releaseEmpty [] c.lu.buf
  let c := { c with lu := { c.lu with buf := r.2 } }
  r.1.foldl (fun (c : Core) h => (c.piecePlaced h.pkt).at 2 (.arrive h.win h.pkt)) c

/-! ### Placement (R42, R154, R190) -/

/-- Whether an ATOM of the core stands between its read and its write of a line. -/
def Core.atomOn (c : Core) (line : Nat) : Bool :=
  c.pend.any fun w => w.res = ⟨5, line⟩ && w.eng = .seq
    && c.ck.acc.any fun a => a.write && a.dest = some w.id && c.tm.p < a.time

/-- The held lines in the order of R154: scheduled packets first, each class in order of arrival. -/
def Landing.order (l : Landing) : List (Held × Nat × List Byte) :=
  let of := fun (b : Bool) => (l.buf.filter fun h => h.pkt.sched = b).flatMap fun h => h.lines.map fun x => (h, x.1, x.2)
  of true ++ of false

/-- A line leaves its packet. -/
def dropLine (no addr : Nat) : List Held → List Held
  | [] => []
  | x :: t => if x.no = no then { x with lines := x.lines.filter fun y => y.1 ≠ addr } :: t else x :: dropLine no addr t

/-- Whether something that arrived before number `no` still waits for a line: a line of a packet, or an atomic, which reads and writes
it (R154, 10 R295). -/
def Landing.earlier (l : Landing) (no line : Nat) : Bool :=
  (l.buf.any fun h => h.no < no && h.lines.any fun x => x.1 / 256 = line)
    || (l.remote.any fun r => r.1 < no && r.2.dpa % scrBytes / 256 = line && match r.2.req with
      | .atom _ => true
      | _ => false)
    || (match l.atomW with
      | some w => w.addr / 256 = line
      | none => false)

/-- The pieces of a line's bytes that later requests of the same transfer have not yet placed (09 R258). -/
def uncovered (cov : List (Nat × Nat)) : Nat → List Byte → List (Nat × List Byte)
  | _, [] => []
  | a, b :: t =>
    let r := uncovered cov (a + 1) t
    if cov.any (fun x => x.1 ≤ a && a < x.1 + x.2) then r
    else
      match r with
      | (a', d) :: r' => if a' = a + 1 then (a, b :: d) :: r' else (a, [b]) :: r
      | [] => [(a, [b])]

/-- Two marks of one slot of one engine. -/
def Walk.sameSlot (w x : Walk) : Bool := w.core = x.core && w.out = x.out && w.slot = x.slot

/-- A line of a packet becomes visible two ccyc later, but for bytes that a later request of its transfer has placed
(R154, 09 R258). -/
def Core.placeLine (c : Core) (p : LinePkt) (addr : Nat) (d : List Byte) (poison : Bool) : Core :=
  match p.walk with
  | none => c.at 2 (.place addr d poison)
  | some w =>
    let cov := (c.lu.placed.filter fun x => x.1.sameSlot w && x.1.mark = w.mark && w.req < x.1.req).map (·.2)
    let c := (uncovered cov addr d).foldl (fun (c : Core) x => c.at 2 (.place x.1 x.2 poison)) c
    let kept := c.lu.placed.filter fun x => !(x.1.sameSlot w) || x.1.mark = w.mark
    { c with lu := { c.lu with placed := kept ++ [(w, addr, d.length)] } }

/-- DMA_BYTES_IN counts the bytes that DMA0 places (09 R282). -/
def Core.countIn (c : Core) (p : LinePkt) (n : Nat) : Core :=
  if p.kind = .dma then { c with dm := { c.dm with bytesIn := c.dm.bytesIn + BitVec.ofNat 64 n } } else c

/-- Places lines in order: `left` says how many more this ccyc takes, `k` counts those placed. A line whose port or bank is busy holds
back no other line but those of its own address. -/
def Core.placeLines (env : Env) (ecc : List EccObs) : Nat → Nat → List (Held × Nat × List Byte) → Core → Core
  | 0, _, _, c => c
  | _, _, [], c => c
  | left + 1, k, (h, addr, d) :: t, c =>
    let line := addr / 256
    if c.lu.earlier h.no line || c.atomOn line || !c.portFree true line then Core.placeLines env ecc (left + 1) k t c
    else
      let c := c.usePort true line
      let (c, a, x, q) := c.merged env 7 0xFFFFFFFF addr d h.pkt.poison (ecc.filter fun e => e.line = k)
      let c := (c.placeLine h.pkt a x q).countIn h.pkt d.length
      let c := { c with lu := { c.lu with lines := c.lu.lines + 1, buf := dropLine h.no addr c.lu.buf } }
      Core.placeLines env ecc left (k + 1) t c

/-! ### Remote reads and atomics (R162, R163; 10 R304, R305) -/

/-- The remote read that is served next: scheduled ones first. -/
def nextRead (l : List (Nat × Request)) : Option ((Nat × Request) × List (Nat × Request)) :=
  let isRd := fun (r : Nat × Request) => match r.2.req with
    | .read _ => true
    | _ => false
  match pick (fun r => isRd r && r.2.sched) l with
  | some x => some x
  | none => pick isRd l

/-- Reads lines in idle ports and banks, if all are idle. -/
def Core.serveLines (env : Env) (ecc : List EccObs) : Nat → List Nat → Core → Option (Core × List LineVal)
  | _, [], c => some (c, [])
  | k, l :: t, c =>
    if !c.portFree false l then none
    else
      let (c, v) := (c.usePort false l).readLine env 7 0xFFFFFFFF l k ecc
      match Core.serveLines env ecc (k + 1) t c with
      | none => none
      | some (c, vs) => some (c, v :: vs)

/-- A remote read is served, if its ports and banks are idle (R162). -/
def Core.serveRead (c : Core) (env : Env) (ecc : List EccObs) : Core :=
  match nextRead c.lu.remote with
  | none => c
  | some ((_, r), rest) =>
    match r.req with
    | .read len =>
      let addr := r.dpa % scrBytes
      match Core.serveLines env ecc 0 (linesOf addr len) c with
      | none => c
      | some (c, vs) =>
        let d := ((vs.flatMap fun v => leBytes v.v.toNat 256).drop (addr % 256)).take len
        { c with lu := { c.lu with remote := rest } }.send (.reply r.reply .ok 0 0 0 d (vs.any (·.p)))
    | _ => c

/-- Whether a landing write to a line is not yet visible. -/
def Core.landingOn (c : Core) (line : Nat) : Bool :=
  c.nev.any fun x => match x.2 with
    | .place a _ _ => a / 256 = line
    | _ => false

/-- The oldest atomic. -/
def nextAtom (l : List (Nat × Request)) : Option ((Nat × Request) × List (Nat × Request)) :=
  pick (fun r => match r.2.req with
    | .atom _ => true
    | _ => false) l

/-- The oldest atomic reads its line, once the lines for it that arrived before have become visible, if a read port and the bank are
idle (10 R304, R305). It raises no tally (notes/assumptions/26.md). -/
def Core.atomRead (c : Core) (env : Env) (ecc : List EccObs) : Core :=
  match nextAtom c.lu.remote with
  | none => c
  | some ((no, r), rest) =>
    match r.req with
    | .atom op =>
      let addr := r.dpa % scrBytes
      let line := addr / 256
      if c.lu.atomW.isSome || c.landingOn line || c.lu.earlier no line || !c.portFree false line then c
      else
        let (c, v) := (c.usePort false line).readLine env 7 0xFFFFFFFF line 0 ecc
        let n := atomLen op
        let old := BitVec.ofNat 64 (bits v.v.toNat (8 * (addr % 256)) (8 * n))
        let (c, a, d, q) := c.merged env 7 0xFFFFFFFF addr (leBytes (atomNew op old).toNat n) (v.p || op.p)
          (ecc.filter fun o => o.line = 1)
        { c with lu := { c.lu with remote := rest, atomW := some ⟨a, d, q, r.reply, leBytes old.toNat 8, v.p⟩ } }
    | _ => c

/-- An atomic that has read its line writes it, in a later ccyc whose write port and bank are idle; visible two ccyc on. -/
def Core.atomWrite (c : Core) : Core :=
  match c.lu.atomW with
  | none => c
  | some w =>
    if !c.portFree true (w.addr / 256) then c
    else
      let c := (c.usePort true (w.addr / 256)).at 2 (.place w.addr w.data w.p)
      { c with lu := { c.lu with atomW := none, lines := c.lu.lines + 1 } }.at 2 (.atomDone w.reply w.old w.oldP)

/-- What the landing unit does at the end of a ccyc: the write of an atomic, then lines, then an atomic that begins, then a read. -/
-- DESIGN CHOICE: the order among these (notes/assumptions/51.md)
def Core.landEnd (c : Core) (env : Env) : Core :=
  let lu := c.lu
  let c := { c with lu := { c.lu with place := none, serve := none, atom := none } }
  let c := c.atomWrite
  let c := match lu.place with
    | some ecc => (Core.placeLines env ecc 2 0 c.lu.order c).finishHeld
    | none => c
  let c := match lu.atom with
    | some ecc => c.atomRead env ecc
    | none => c
  match lu.serve with
  | some ecc => c.serveRead env ecc
  | none => c

end Sys2Proof.Machine
end

