-- ==== Sys2Proof/Machine/Time.lean ====
section
/-!
DEFINITION. The time of a core: the ccyc ends and begins, the core advances to the ccyc in which its next command acts, and
an engine issues a word (02 R34, R43, R48, R53).
-/

namespace Sys2Proof.Machine

/-! ### One ccyc -/

/-- The ccyc in progress ends: the landing unit and then elastic line reads take what the engines left, results reach the beam, the
checker and the tallies close. -/
def Core.endCcyc (c : Core) (env : Env) : Core := (((c.landEnd env).elasticRead env).beamEnd).close

/-- The smallest of the numbers above 0, at most `lim`. -/
def soonest (lim : Nat) : List Nat → Nat
  | [] => lim
  | n :: t => if n = 0 then soonest lim t else soonest (min lim n) t

/-- Ccyc of the block that runs, or 0 (06 R172). -/
def Core.blockLen (c : Core) (env : Env) : Nat :=
  match env.img.blocks[c.rn.block]? with
  | some b => b.length
  | none => 0

/-- In how many ccyc something falls due. -/
def Core.dueIn (c : Core) (env : Env) : List Nat :=
  c.nev.map (fun x => x.1 - c.tm.now)
    ++ (if c.elasticTxn.isSome || c.lu.atomW.isSome then [1] else [])
    ++ (match c.rn.hold with
      | some _ => []
      | none => if c.rn.replay then [1] else
          (if c.rn.mode = 1 then [c.rn.begin0 + c.blockLen env - c.tm.p] else []) ++
          c.pend.flatMap (fun (w : PWrite) => [w.ready - c.tm.p, w.ready - 1 - c.tm.p]) ++ c.pev.map (fun x => x.1 - c.tm.p)
            ++ c.ck.acc.map (fun (x : Access) => x.time - c.tm.p) ++ c.ck.viol.map (fun (x : Viol) => x.time - c.tm.p))

/-- Scheduled ccyc among the `k` from pipeline time `p` (02 R51). -/
def Core.schedIn (c : Core) (env : Env) (p k : Nat) : Nat :=
  if c.rn.mode = 1 then min (p + k) (c.rn.begin0 + c.blockLen env) - max p c.rn.begin0 else 0

/-- `k` ccyc pass: a hold stops the pipelines (02 R48). -/
def Core.move (c : Core) (env : Env) (k : Nat) : Core :=
  match c.rn.hold with
  | some _ =>
    { c with
      tm := ⟨c.tm.now + k, c.tm.p⟩
      rn := { c.rn with holdCcyc := c.rn.holdCcyc + BitVec.ofNat 64 k } }
  | none =>
    let lost := if c.rn.replay then 1 else 0
    { c with
      tm := ⟨c.tm.now + k, c.tm.p + (k - lost)⟩
      rn := { c.rn with
        replay := false
        holdCcyc := c.rn.holdCcyc + BitVec.ofNat 64 lost
        runCcyc := c.rn.runCcyc + BitVec.ofNat 64 (c.schedIn env c.tm.p (k - lost)) } }

/-- One piece of a transaction has completed (09 R267). -/
def Core.pieceDone (c : Core) (txn : Nat) : Core :=
  match c.txn txn with
  | none => c
  | some t => c.setTxn { t with left := t.left - 1, own := t.own - 1 }

/-- What becomes visible in the ccyc that begins: landed lines; then, of each packet, its arrival tally, its completion or
acknowledgement (05 R157, 09 R198, R267, 11 R321). -/
def Core.landed (c : Core) (x : NEv) : Core :=
  match x with
  | .place addr d p => c.storeBytes addr d p
  | .arrive win pkt =>
    let c := match win with
      | some n => c.addChange ⟨true, n, .inc, 1, .dma0, 0xFFFFFFFF⟩
      | none => c
    match pkt.kind, pkt.reply with
    | .dma, .core _ txn => c.pieceDone txn
    | .datom, .core _ txn =>
      match c.txn txn with
      | none => c
      | some t =>
        let c := if t.raise && !t.dead then c.complete .dma0 t.tally 1 else c
        c.setTxn { t with left := t.left - 1, own := t.own - 1 }
    | .record qid, r =>
      c.send (.placed qid pkt.addr true r)
    | .host, _ => c
    | _, r => c.send (.reply r .ok 0 0 0 [] false)
  | .atomDone r old p => c.send (.reply r .ok 0 0 0 old p)

def isRead : PEv → Bool
  | .feed .. => true
  | .transpose .. => true
  | .ocRead .. => true
  | .dmaLine .. => true
  | _ => false

def isScale : PEv → Bool
  | .feed _ true _ => true
  | _ => false

/-- What the array and the tables begin the ccyc with: a weight tile in place, an activation table in use (04 R109). -/
def isLoadEnd : PEv → Bool
  | .loadEnd .. => true
  | .lut .. => true
  | _ => false

def isLoadBegin : PEv → Bool
  | .loadBegin .. => true
  | _ => false

/-- The events that begin the ccyc, in order: loads that end, tables, reads (scale lines first, 03 R78), then what enters the
array and the stages; loads that begin come last, so that they meet the vectors of their ccyc. -/
def Core.pipeEvent (c : Core) (env : Env) (x : PEv) : Core :=
  match x with
  | .loadEnd op => c.loadEnd op
  | .lut t => { c with vx := { c.vx with lut := t } }
  | .dmaLine t k => c.dmaLine env t k
  | .feed .. => c.readEvent env x
  | .transpose .. => c.readEvent env x
  | .ocRead .. => c.readEvent env x
  | _ => c.enterEvent env x

/-- The rank of an event among those of one ccyc. -/
def pevRank (x : PEv) : Nat :=
  if isLoadEnd x then 0
  else if isScale x then 1
  else if isRead x then 2
  else if isLoadBegin x then 4
  else 3

/-- The audit write counters at the first ccyc after a scheduled block, where the next one begins (02 R59). A write that becomes ready
in that ccyc is part of what the block finds. -/
-- DEDUCED from 02 R62's example (notes/assumptions/52.md)
def Core.countersAtEntry (c : Core) (env : Env) : Core :=
  if c.rn.mode = 1 && c.tm.p = c.rn.begin0 + c.blockLen env then { c with ck := { c.ck with wcnt := [] } } else c

/-- The ccyc begins. -/
def Core.beginCcyc (c : Core) (env : Env) : Core :=
  let land := c.nev.filter fun x => x.1 ≤ c.tm.now
  let c := { c with nev := c.nev.filter fun x => !(x.1 ≤ c.tm.now) }
  let c := land.foldl (fun (c : Core) x => c.landed x.2) c
  let c := c.commitReady.countersAtEntry env
  let due := c.pev.filter fun x => x.1 ≤ c.tm.p && !isBeam x.2 && !isClear x.2
  let c := { c with pev := c.pev.filter fun x => !(x.1 ≤ c.tm.p && !isBeam x.2 && !isClear x.2) }
  (sortBy (fun (x y : Nat × PEv) => pevRank x.2 ≤ pevRank y.2) due).foldl
    (fun (c : Core) x => c.pipeEvent env x.2) c

/-- The core advances `n` ccyc, from one ccyc in which something falls due to the next. The first argument bounds the
number of such ccyc. -/
def Core.advanceBy (env : Env) : Nat → Nat → Core → Core
  | 0, _, c => c
  | _, 0, c => c
  | fuel + 1, n + 1, c =>
    let c := c.endCcyc env
    let k := soonest (n + 1) (c.dueIn env)
    Core.advanceBy env fuel (n + 1 - k) ((c.move env k).beginCcyc env)

/-- The core advances `n` ccyc. -/
def Core.advance (c : Core) (env : Env) (n : Nat) : Core := Core.advanceBy env n n c

/-! ### Issue (02 R34, R35, R48, R53) -/

/-- The key of an engine in the checker's list of what has issued: the operand feed and the chain's prefetch act ahead of
the stamp, and have keys of their own. -/
def engKey (e : Engine) (lead : Bool) : Nat := if lead then e.code + 8 else e.code

/-- Whether the core is in a hold in this ccyc: the ccyc in which a WAIT issues is not yet one (02 R48). -/
def Core.held (c : Core) : Bool :=
  match c.rn.hold with
  | some w => w.start < c.tm.now || c.rn.replay
  | none => c.rn.replay

/-- Whether an engine may issue a word in this ccyc. -/
def Core.canIssue (c : Core) (env : Env) (e : Engine) : Bool :=
  (c.rn.stop = .no || c.tm.now ≤ c.rn.stopAt) && c.rn.begin0 ≤ c.tm.p
    && (if c.rn.mode = 1 then !c.held && c.tm.p < c.rn.begin0 + c.blockLen env
      else c.rn.mode = 2 && !(c.rn.waits.any fun w => w.eng = e))

/-- In service mode an operation waits for those before it, of whatever engine (02 R35). -/
-- DESIGN CHOICE: for all of them, where 02 R35 asks it of operands and results (notes/assumptions/53.md)
def Core.settleBy (env : Env) : Nat → Core → Core
  | 0, c => c
  | fuel + 1, c =>
    if c.pend.isEmpty && c.pev.isEmpty then c
    else Core.settleBy env fuel (c.advance env (soonest 1024 (c.dueIn env)))

def Core.settle (c : Core) (env : Env) : Core := if c.rn.mode = 2 then Core.settleBy env 65536 c else c

/-- The ccyc in which a command that comes `delta` ccyc after the core's previous one acts. -/
def Core.comeTo (c : Core) (env : Env) (delta : Nat) : Core := (c.advance env delta).settle env

/-- The ccyc in which what has key `key` acts: once in a ccyc. -/
def Core.comeToKey (c : Core) (env : Env) (delta key : Nat) : Core :=
  let c := c.comeTo env delta
  if c.tm.now < tget 0 c.ck.seen key then (c.advance env (tget 0 c.ck.seen key - c.tm.now)).settle env else c

/-- How many ccyc before its stamp a word is taken: the operand feed begins 16 ccyc ahead (03 R78), a chain reads the operand cache
one ccyc ahead (04 R113). -/
def leadOf (e : Engine) (lead : Bool) : Nat := if !lead then 0 else if e = .mxe then 16 else 1

/-- An engine issues one word in a ccyc, at its stamp (04 R110): a word waits while the stamp that it would have is taken. -/
def Core.skipTaken (env : Env) (e : Engine) (ahead : Nat) : Nat → Core → Core
  | 0, c => c
  | fuel + 1, c =>
    if c.ck.stamps.contains (e.code, c.tm.p + ahead) then Core.skipTaken env e ahead fuel ((c.advance env 1).settle env) else c

/-- The ccyc in which a word of an engine issues. -/
def Core.comeToIssue (c : Core) (env : Env) (delta : Nat) (e : Engine) (lead : Bool) : Core :=
  let c := c.comeToKey env delta (engKey e lead)
  Core.skipTaken env e (leadOf e lead) c.ck.stamps.length c

/-- The engine has issued in this ccyc: that is progress (16 R488). -/
def Core.markIssue (c : Core) (env : Env) (e : Engine) (lead : Bool) : Core :=
  { c with
    ck := { c.ck with
      seen := tput 0 c.ck.seen (engKey e lead) (c.tm.now + 1)
      stamps := c.ck.stamps ++ [(e.code, c.tm.p + leadOf e lead)] }
    rn := { c.rn with progress := env.tbt.toNat } }

/-- Whether the guard lets the operation act (06 R178); a poisoned guard is a poisoned branch condition (16 R482). -/
def Core.guardOk (c : Core) (env : Env) (e : Engine) (kvi : Nat) : Option Guard → Core × Bool
  | none => (c, true)
  | some g =>
    let (c, p) := c.readP env e kvi g.p.toNat
    (if p.p then c.poisonUse e kvi 2 2 g.p.toNat 0 else c, p.v != g.inverted)

/-- An engine issues a word: the time passes, and where the engine may issue, the guard decides whether `body` acts. -/
def Core.issue (c : Core) (env : Env) (x : Issue) (e : Engine) (lead : Bool) (body : Core → Core) : Core :=
  let c := c.comeToIssue env x.delta e lead
  if c.canIssue env e then
    let c := c.markIssue env e lead
    match c.guardOk env e (c.kvi e x.word) (if lead then none else x.guard) with
    | (c, true) => body c
    | (c, false) => c
  else c

end Sys2Proof.Machine
end

