-- ==== Sys2Proof/WellFormed.lean ====
section
/-!
DEFINITION. Well-formed commands: the units that a command names exist, and the operands of an engine operation are an
encoding that the loader admits (06 R175 to R200, 07 R205 to R209). A machine never holds another, so a meaning refuses it.
-/

namespace Sys2Proof

/-- Units of the part (01 R25 to R28, 14 R429, 08 R220). -/
def coreCount : Nat := 128
def portCount : Nat := 16
def ringCount : Nat := 256
def jobCount : Nat := 64
def pcCount : Nat := 768
def hubCount : Nat := 4

/-- A word's index has 22 bits (06 R167). -/
def Issue.wordOk (x : Issue) : Bool := decide (x.word < 2 ^ 22)

/-- A register number of the A file (06 R179, R180). -/
def aReg (r : BitVec 6) : Bool := decide (r.toNat < 32)

/-- LHI must be 0 with form 0 (07 R207). -/
def TallyOp.lhiOk (t : TallyOp) : Bool := t.form || !t.lhi

/-- TINC has no form 1 (07 R207). -/
def TallyOp.form0 (t : TallyOp) : Bool := !t.form && !t.lhi

/-- A line operand with AEN names an A register (06 R183). -/
def LineOp.ok (l : LineOp) : Bool := !l.aen || aReg l.areg

/-- Format codes of the matrix engine (03 R70), and those that take block scales (R72). -/
def fmtOk (f : BitVec 4) : Bool := decide (f.toNat ≤ 6) || f == 8 || f == 9
def mxFmt (f : BitVec 4) : Bool := f == 0 || f == 1 || f == 3 || f == 4 || f == 5

/-- An operand specifier (06 R194). -/
def Spec.ok (s : Spec) : Bool :=
  if s.kind = 0 then s.idx == 0 else if s.kind = 3 then true else decide (s.idx.toNat < 64)

/-- The fields of VOP (06 R194). -/
def VopFields.ok (f : VopFields) : Bool :=
  f.srca.ok && f.srca.kind != 2 && f.opx.ok && f.opy.ok && f.opz.ok

/-- Every unit that the command names exists. -/
def Instr.unitsOk : Instr → Bool
  | .skip x _ => decide (x.core < coreCount)
  | .tinc x _ _ _ => decide (x.core < coreCount)
  | .tdec x _ _ _ => decide (x.core < coreCount)
  | .tset x _ _ => decide (x.core < coreCount)
  | .twait x _ _ _ _ => decide (x.core < coreCount)
  | .fence x _ _ _ => decide (x.core < coreCount)
  | .add x _ => decide (x.core < coreCount)
  | .sub x _ => decide (x.core < coreCount)
  | .and x _ => decide (x.core < coreCount)
  | .or x _ => decide (x.core < coreCount)
  | .xor x _ => decide (x.core < coreCount)
  | .shl x _ => decide (x.core < coreCount)
  | .shr x _ => decide (x.core < coreCount)
  | .sar x _ => decide (x.core < coreCount)
  | .mul x _ => decide (x.core < coreCount)
  | .movi x _ _ => decide (x.core < coreCount)
  | .cmp x _ _ => decide (x.core < coreCount)
  | .plog x _ _ _ _ => decide (x.core < coreCount)
  | .sel x _ _ => decide (x.core < coreCount)
  | .aadd x _ => decide (x.core < coreCount)
  | .amov x _ _ => decide (x.core < coreCount)
  | .sfroma x _ _ => decide (x.core < coreCount)
  | .movia x _ _ => decide (x.core < coreCount)
  | .rdsys x _ _ => decide (x.core < coreCount)
  | .ld x _ _ => decide (x.core < coreCount)
  | .st x _ _ => decide (x.core < coreCount)
  | .lda x _ _ => decide (x.core < coreCount)
  | .sta x _ _ => decide (x.core < coreCount)
  | .atom x _ _ _ _ _ => decide (x.core < coreCount)
  | .br x _ _ _ _ _ => decide (x.core < coreCount)
  | .mldw x _ _ _ _ _ => decide (x.core < coreCount)
  | .mmul x _ _ _ _ _ _ _ _ _ => decide (x.core < coreCount)
  | .mclr x _ => decide (x.core < coreCount)
  | .manc x _ _ => decide (x.core < coreCount)
  | .mout x _ _ _ _ => decide (x.core < coreCount)
  | .mflg x _ _ => decide (x.core < coreCount)
  | .mraw x _ _ _ _ => decide (x.core < coreCount)
  | .vop x _ => decide (x.core < coreCount)
  | .vld x _ _ _ _ _ => decide (x.core < coreCount)
  | .vldStrided x _ _ _ _ _ _ _ => decide (x.core < coreCount)
  | .vldTranspose x _ _ _ _ _ _ => decide (x.core < coreCount)
  | .vst x _ _ _ => decide (x.core < coreCount)
  | .ocfill x _ _ _ _ _ => decide (x.core < coreCount)
  | .ocput x _ _ => decide (x.core < coreCount)
  | .lutld x _ _ _ => decide (x.core < coreCount)
  | .dload x _ _ _ => decide (x.core < coreCount)
  | .dbase x _ _ _ _ _ => decide (x.core < coreCount)
  | .dgo x _ _ _ _ => decide (x.core < coreCount)
  | .datom x _ => decide (x.core < coreCount)
  | .qopen x _ _ _ _ _ => decide (x.core < coreCount)
  | .qclose x _ _ => decide (x.core < coreCount)
  | .qsend x _ _ _ _ _ => decide (x.core < coreCount)
  | .qcsend x _ _ _ _ _ => decide (x.core < coreCount)
  | .holdEnd c _ => decide (c < coreCount)
  | .waitTimeout c _ _ => decide (c < coreCount)
  | .blockBoundary c _ => decide (c < coreCount)
  | .serviceBlockEnd c _ => decide (c < coreCount)
  | .handlerDispatch c _ => decide (c < coreCount)
  | .handlerBudgetExpiry c _ => decide (c < coreCount)
  | .frameTick job => decide (job < jobCount)
  | .startAtTbt job => decide (job < jobCount)
  | .runRetire job _ => decide (job < jobCount)
  | .dmaRequestIssue c _ _ _ _ => decide (c < coreCount)
  | .dmaRequestComplete c _ _ => decide (c < coreCount)
  | .fillComplete c _ _ _ => decide (c < coreCount)
  | .landingArrival c _ _ => decide (c < coreCount)
  | .landingPlacement c _ _ => decide (c < coreCount)
  | .remoteReadServe c _ _ => decide (c < coreCount)
  | .landingAtomic c _ _ => decide (c < coreCount)
  | .schedRequestArrival .. => true
  | .elasticRequestArrival .. => true
  | .runCutoff pc run _ => decide (pc < pcCount) && decide (run < 64)
  | .hbmReadEgress pc slot => decide (pc < pcCount) && decide (slot < 512)
  | .hbmWriteAck .. => true
  | .hbmUePoisonStore pc => decide (pc < pcCount)
  | .linkRetry .. => true
  | .linkSlip .. => true
  | .calendarFrameBoundary => true
  | .patrolScrub hub _ => decide (hub < hubCount)
  | .placerOpenRequest .. => true
  | .placerSend .. => true
  | .placerClose .. => true
  | .queueAnswer c _ _ => decide (c < coreCount)
  | .groupAssign qid => decide (qid < 2 ^ 20)
  | .combiningContribution .. => true
  | .combiningTimeout qid _ => decide (qid < 2 ^ 20)
  | .droopNotice island _ => decide (island ≤ 136)
  | .dieEventGrant .. => true
  | .emergencyStretch island _ => decide (island ≤ 136)
  | .crossingSlip c _ _ _ => decide (c < coreCount)
  | .timebaseCopyCorrection island => decide (island < 162)
  | .ppsInEdge => true
  | .timeMessageSend port => decide (port < portCount)
  | .ppsOutRise => true
  | .ppsOutFall => true
  | .referenceLoss .. => true
  | .holdoverEnd .. => true
  | .timebaseStep => true
  | .opStopBegin => true
  | .opStopResume .. => true
  | .setOpTimeout => true
  | .portTrainingDone port _ _ => decide (port < portCount)
  | .portAuthDone port _ _ _ _ => decide (port < portCount)
  | .portJoinDone port _ _ _ _ => decide (port < portCount)
  | .portStateTimeout port => decide (port < portCount)
  | .partnerLost port => decide (port < portCount)
  | .fecWindow port _ => decide (port < portCount)
  | .laneRetrainDone port => decide (port < portCount)
  | .creditTimeout port vc => decide (port < portCount) && decide (vc < 4)
  | .apertureDropWindow port => decide (port < portCount)
  | .pktWrite p => decide (p.port < portCount)
  | .pktRead p => decide (p.port < portCount)
  | .pktRresp p => decide (p.port < portCount)
  | .pktAtomic p => decide (p.port < portCount)
  | .pktAresp p => decide (p.port < portCount)
  | .pktAck p => decide (p.port < portCount)
  | .pktQopen p => decide (p.port < portCount)
  | .pktQsend p => decide (p.port < portCount)
  | .pktQcsend p => decide (p.port < portCount)
  | .pktQclose p => decide (p.port < portCount)
  | .pktQresp p => decide (p.port < portCount)
  | .pktTime p _ => decide (p.port < portCount)
  | .pktMgmt p _ => decide (p.port < portCount)
  | .pktAuth p _ => decide (p.port < portCount)
  | .pktTransit p => decide (p.port < portCount)
  | .linkWord port _ => decide (port < portCount)
  | .linkWordSend port => decide (port < portCount)
  | .fabricSlot port => decide (port < portCount)
  | .fabricFrameBoundary => true
  | .heartbeatSend => true
  | .masterTakeover => true
  | .doorbellSqTail ring _ => decide (ring < ringCount)
  | .doorbellCqHead ring _ => decide (ring < ringCount)
  | .commandAdmission ring _ => decide (ring.no < ringCount)
  | .commandExecute => true
  | .bulkDeferralExpiry .. => true
  | .completionRecordWrite ring => decide (ring < ringCount)
  | .ringEnable ring _ => decide (ring < ringCount)
  | .ringDisable ring _ => decide (ring < ringCount)
  | .ringDeferWrite ring _ => decide (ring < ringCount)
  | .biasFlipGo .. => true
  | .biasFlipDone => true
  | .hdmCommit .. => true
  | .bar2SelWrite .. => true
  | .hostCxlMemRead .. => true
  | .hostCxlMemWrite .. => true
  | .bar2Read .. => true
  | .bar2Write .. => true
  | .hostLinkTrained .. => true
  | .hostLinkReset => true
  | .load .. => true
  | .unload .. => true
  | .reserve .. => true
  | .arm .. => true
  | .start .. => true
  | .startPeriodic .. => true
  | .stop .. => true
  | .drain .. => true
  | .openChannel .. => true
  | .closeChannel .. => true
  | .setCircuits .. => true
  | .setApertures .. => true
  | .setOp .. => true
  | .query .. => true
  | .faults .. => true
  | .captureTake .. => true
  | .captureRead .. => true
  | .computeReset .. => true
  | .portReset .. => true
  | .portHoldDown .. => true
  | .portWriteCfg .. => true
  | .loadClusterMap .. => true
  | .timeCtrlStep .. => true
  | .timeCtrlRead .. => true
  | .mss .. => true
  | .runHalt job => decide (job < jobCount)
  | .haltQuiesced job => decide (job < jobCount)
  | .watchdogNoProgress c _ => decide (c < coreCount)
  | .runDeadline job _ => decide (job < jobCount)
  | .quiesceTimeout c => decide (c < coreCount)
  | .captureDone => true
  | .autoReset .. => true
  | .sensorSample .. => true
  | .throttleReturn => true
  | .pcapApply => true
  | .ledgerFlush => true
  | .remapFlashCopy => true
  | .hashComplete .. => true
  | .digestSign .. => true
  | .mbGo .. => true
  | .mgPcapWrite .. => true
  | .mgAlertClear .. => true
  | .capLockRelease .. => true
  | .wdLimitWrite .. => true
  | .tmTbtLowRead => true
  | .rcRegisterRead .. => true
  | .registerWrite .. => true
  | .getStatus .. => true
  | .ledgerRead .. => true
  | .mssRestart .. => true
  | .setRoots .. => true
  | .clearAlert .. => true
  | .getVersion .. => true
  | .getCapabilities .. => true
  | .negotiateAlgorithms .. => true
  | .getDigests .. => true
  | .getCertificate .. => true
  | .challenge .. => true
  | .getMeasurements .. => true
  | .keyExchange .. => true
  | .finish .. => true
  | .endSession .. => true
  | .pldmBase .. => true
  | .pldmSensorRead .. => true
  | .pldmFirmwareUpdate .. => true
  | .mctpUnsupported .. => true
  | .packageReset .. => true
  | .boot .. => true
  | .bootImageVerified .. => true
  | .brownOut .. => true
  | .thermtrip sensor => decide (sensor < 164)
  | .jtagExtest .. => true
  | .drainTimeout => true
  | .laneLossOfLock port lane => decide (port < portCount) && decide (lane < 5)
  | .uncorrectableCodeword port => decide (port < portCount)
  | .snoop .. => true
  | .endpointIdAssignment .. => true
  | .ideKeyManagement .. => true

/-- The operands of an engine operation are an encoding that the loader admits. -/
def Instr.fieldsOk : Instr → Bool
  | .skip x _ => x.wordOk
  | .tinc x _ t _ => x.wordOk && t.form0
  | .tdec x _ t _ => x.wordOk && t.lhiOk
  | .tset x t _ => x.wordOk && t.lhiOk
  | .twait x _ t _ _ => x.wordOk && t.lhiOk
  | .fence x _ _ _ => x.wordOk
  | .add x _ => x.wordOk
  | .sub x _ => x.wordOk
  | .and x _ => x.wordOk
  | .or x _ => x.wordOk
  | .xor x _ => x.wordOk
  | .shl x _ => x.wordOk
  | .shr x _ => x.wordOk
  | .sar x _ => x.wordOk
  | .mul x _ => x.wordOk
  | .movi x _ _ => x.wordOk
  | .cmp x f fn => x.wordOk && decide (f.d.toNat < 8) && decide (fn.toNat ≤ 5)
  | .plog x d a b fn =>
    x.wordOk && decide (d.toNat < 8) && decide (a.toNat < 8) && decide (b.toNat < 8) && decide (fn.toNat ≤ 4)
  | .sel x _ _ => x.wordOk
  | .aadd x f => x.wordOk && aReg f.d && aReg f.a
  | .amov x d _ => x.wordOk && aReg d
  | .sfroma x _ a => x.wordOk && aReg a
  | .movia x d imm => x.wordOk && aReg d && decide (imm.toNat < 2 ^ 48)
  | .rdsys x _ imm => x.wordOk && decide (imm.toNat < 8)
  | .ld x f _ => x.wordOk && aReg f.a
  | .st x f _ => x.wordOk && aReg f.a
  | .lda x f _ => x.wordOk && aReg f.a && aReg f.d && decide (f.size = 3)
  | .sta x f _ => x.wordOk && aReg f.a && aReg f.b && decide (f.size = 3)
  | .atom x f aop _ _ _ => x.wordOk && aReg f.a && decide (2 ≤ f.size.toNat) && decide (aop.toNat ≤ 4)
  | .br x _ _ _ _ _ => x.wordOk && x.guard.isNone
  | .mldw x l fmt mx _ _ => x.wordOk && x.guard.isNone && l.ok && fmtOk fmt && (!mx || mxFmt fmt)
  | .mmul x l fmt mx _ _ _ _ _ _ => x.wordOk && x.guard.isNone && l.ok && fmtOk fmt && (!mx || mxFmt fmt)
  | .mclr x _ => x.wordOk && x.guard.isNone
  | .manc x _ _ => x.wordOk && x.guard.isNone
  | .mout x _ vd ofmt half =>
    x.wordOk && x.guard.isNone && decide (ofmt.toNat ≤ 2) && (ofmt ≠ 2 || (!half && vd.toNat ≤ 62))
  | .mflg x _ _ => x.wordOk && x.guard.isNone
  | .mraw x l _ _ _ => x.wordOk && x.guard.isNone && l.ok
  | .vop x f => x.wordOk && f.ok
  | .vld x _ l _ _ _ => x.wordOk && l.ok
  | .vldStrided x _ l stride w b0 _ _ =>
    x.wordOk && l.ok && decide (w.toNat ≤ 2) && (w ≠ 0 || b0 = 0) && (w ≠ 1 || b0.toNat % 2 = 0) && decide (stride ≠ 0) && decide (stride ≠ 0x2000)
  | .vldTranspose x v l tw tshape _ _ =>
    x.wordOk && l.ok && decide (tw.toNat ≤ 2) && decide (v.toNat ≤ 48) && (tshape || l.line.toNat % 64 = 0)
  | .vst x _ l _ => x.wordOk && l.ok
  | .ocfill x _ l _ _ _ => x.wordOk && l.ok
  | .ocput x _ _ => x.wordOk
  | .lutld x _ _ _ => x.wordOk
  | .dload x _ _ _ => x.wordOk
  | .dbase x _ _ _ _ _ => x.wordOk
  | .dgo x _ _ _ _ => x.wordOk
  | .datom x f => x.wordOk && decide (f.aop.toNat ≤ 4)
  | .qopen x _ _ _ _ _ => x.wordOk
  | .qclose x _ _ => x.wordOk
  | .qsend x _ _ nwm1 sbase _ => x.wordOk && decide (sbase.toNat + nwm1.toNat ≤ 63)
  | .qcsend x _ _ vk sv _ => x.wordOk && decide (vk.toNat ≤ 1) && (vk ≠ 1 || sv.toNat ≤ 62)
  | .holdEnd .. => true
  | .waitTimeout .. => true
  | .blockBoundary .. => true
  | .serviceBlockEnd .. => true
  | .handlerDispatch .. => true
  | .handlerBudgetExpiry .. => true
  | .frameTick .. => true
  | .startAtTbt .. => true
  | .runRetire .. => true
  | .dmaRequestIssue .. => true
  | .dmaRequestComplete .. => true
  | .fillComplete .. => true
  | .landingArrival .. => true
  | .landingPlacement .. => true
  | .remoteReadServe .. => true
  | .landingAtomic .. => true
  | .schedRequestArrival .. => true
  | .elasticRequestArrival .. => true
  | .runCutoff .. => true
  | .hbmReadEgress .. => true
  | .hbmWriteAck .. => true
  | .hbmUePoisonStore .. => true
  | .linkRetry .. => true
  | .linkSlip .. => true
  | .calendarFrameBoundary => true
  | .patrolScrub .. => true
  | .placerOpenRequest .. => true
  | .placerSend .. => true
  | .placerClose .. => true
  | .queueAnswer .. => true
  | .groupAssign .. => true
  | .combiningContribution .. => true
  | .combiningTimeout .. => true
  | .droopNotice .. => true
  | .dieEventGrant .. => true
  | .emergencyStretch .. => true
  | .crossingSlip .. => true
  | .timebaseCopyCorrection .. => true
  | .ppsInEdge => true
  | .timeMessageSend .. => true
  | .ppsOutRise => true
  | .ppsOutFall => true
  | .referenceLoss .. => true
  | .holdoverEnd .. => true
  | .timebaseStep => true
  | .opStopBegin => true
  | .opStopResume .. => true
  | .setOpTimeout => true
  | .portTrainingDone .. => true
  | .portAuthDone .. => true
  | .portJoinDone .. => true
  | .portStateTimeout .. => true
  | .partnerLost .. => true
  | .fecWindow .. => true
  | .laneRetrainDone .. => true
  | .creditTimeout .. => true
  | .apertureDropWindow .. => true
  | .pktWrite .. => true
  | .pktRead .. => true
  | .pktRresp .. => true
  | .pktAtomic .. => true
  | .pktAresp .. => true
  | .pktAck .. => true
  | .pktQopen .. => true
  | .pktQsend .. => true
  | .pktQcsend .. => true
  | .pktQclose .. => true
  | .pktQresp .. => true
  | .pktTime .. => true
  | .pktMgmt .. => true
  | .pktAuth .. => true
  | .pktTransit .. => true
  | .linkWord .. => true
  | .linkWordSend .. => true
  | .fabricSlot .. => true
  | .fabricFrameBoundary => true
  | .heartbeatSend => true
  | .masterTakeover => true
  | .doorbellSqTail .. => true
  | .doorbellCqHead .. => true
  | .commandAdmission .. => true
  | .commandExecute => true
  | .bulkDeferralExpiry .. => true
  | .completionRecordWrite .. => true
  | .ringEnable .. => true
  | .ringDisable .. => true
  | .ringDeferWrite .. => true
  | .biasFlipGo .. => true
  | .biasFlipDone => true
  | .hdmCommit .. => true
  | .bar2SelWrite .. => true
  | .hostCxlMemRead .. => true
  | .hostCxlMemWrite .. => true
  | .bar2Read .. => true
  | .bar2Write .. => true
  | .hostLinkTrained .. => true
  | .hostLinkReset => true
  | .load .. => true
  | .unload .. => true
  | .reserve .. => true
  | .arm .. => true
  | .start .. => true
  | .startPeriodic .. => true
  | .stop .. => true
  | .drain .. => true
  | .openChannel .. => true
  | .closeChannel .. => true
  | .setCircuits .. => true
  | .setApertures .. => true
  | .setOp .. => true
  | .query .. => true
  | .faults .. => true
  | .captureTake .. => true
  | .captureRead .. => true
  | .computeReset .. => true
  | .portReset .. => true
  | .portHoldDown .. => true
  | .portWriteCfg .. => true
  | .loadClusterMap .. => true
  | .timeCtrlStep .. => true
  | .timeCtrlRead .. => true
  | .mss .. => true
  | .runHalt .. => true
  | .haltQuiesced .. => true
  | .watchdogNoProgress .. => true
  | .runDeadline .. => true
  | .quiesceTimeout .. => true
  | .captureDone => true
  | .autoReset .. => true
  | .sensorSample .. => true
  | .throttleReturn => true
  | .pcapApply => true
  | .ledgerFlush => true
  | .remapFlashCopy => true
  | .hashComplete .. => true
  | .digestSign .. => true
  | .mbGo .. => true
  | .mgPcapWrite .. => true
  | .mgAlertClear .. => true
  | .capLockRelease .. => true
  | .wdLimitWrite .. => true
  | .tmTbtLowRead => true
  | .rcRegisterRead .. => true
  | .registerWrite .. => true
  | .getStatus .. => true
  | .ledgerRead .. => true
  | .mssRestart .. => true
  | .setRoots .. => true
  | .clearAlert .. => true
  | .getVersion .. => true
  | .getCapabilities .. => true
  | .negotiateAlgorithms .. => true
  | .getDigests .. => true
  | .getCertificate .. => true
  | .challenge .. => true
  | .getMeasurements .. => true
  | .keyExchange .. => true
  | .finish .. => true
  | .endSession .. => true
  | .pldmBase .. => true
  | .pldmSensorRead .. => true
  | .pldmFirmwareUpdate .. => true
  | .mctpUnsupported .. => true
  | .packageReset .. => true
  | .boot .. => true
  | .bootImageVerified .. => true
  | .brownOut .. => true
  | .thermtrip .. => true
  | .jtagExtest .. => true
  | .drainTimeout => true
  | .laneLossOfLock .. => true
  | .uncorrectableCodeword .. => true
  | .snoop .. => true
  | .endpointIdAssignment .. => true
  | .ideKeyManagement .. => true

/-- A well-formed command. -/
def Instr.wf (i : Instr) : Bool := i.unitsOk && i.fieldsOk

end Sys2Proof
end

