-- ==== Sys2Proof/Machine/Device.lean ====
section
/-!
DEFINITION. The named operations over the whole part: its cores and islands, the fault log and the ledger, what passes
between units, answers, and the operation of a command on one core (01, 12, 13, 16, 17).
-/

namespace Sys2Proof

/-! ### Codes -/

/-- The code of a status (14 R451). -/
def Status.code : Status → Nat
  | .ok => 0x00 | .delayed => 0x01 | .eparam => 0x10 | .estate => 0x11 | .erefused => 0x12 | .eprogram => 0x13
  | .eauth => 0x14 | .efault => 0x20 | .etimeout => 0x21 | .epoison => 0x22 | .eresetTarget => 0x23 | .epeerGone => 0x24
  | .eaperture => 0x25 | .eslip => 0x26 | .einternal => 0x30

/-- The status that a code names; an unknown code is an internal error. -/
def Status.ofCode (n : Nat) : Status :=
  match n with
  | 0x00 => .ok | 0x01 => .delayed | 0x10 => .eparam | 0x11 => .estate | 0x12 => .erefused | 0x13 => .eprogram
  | 0x14 => .eauth | 0x20 => .efault | 0x21 => .etimeout | 0x22 => .epoison | 0x23 => .eresetTarget | 0x24 => .epeerGone
  | 0x25 => .eaperture | 0x26 => .eslip | _ => .einternal

/-- The STATUS byte of a response or acknowledgement: bit 3 marks the scheduled class (13 R383). -/
def statusByte (st : Status) (sched : Bool) : Nat := st.code + (if sched then 8 else 0)

/-- The status of a STATUS byte, and its class. -/
def byteStatus (b : Nat) : Status × Bool :=
  if b.testBit 3 then (Status.ofCode (b - 8), true) else (Status.ofCode b, false)

end Sys2Proof

namespace Sys2Proof.Machine

/-! ### CRC-32C (13 R381, 17 R517; notes/assumptions/9.md) -/

def crcBit (c : W32) : W32 := if c.getLsbD 0 then (c >>> 1) ^^^ 0x82F63B78 else c >>> 1

def crcByte (c : W32) (b : Byte) : W32 :=
  let c := c ^^^ b.setWidth 32
  crcBit (crcBit (crcBit (crcBit (crcBit (crcBit (crcBit (crcBit c)))))))

def crc32c (l : List Byte) : W32 := l.foldl crcByte 0xFFFFFFFF ^^^ 0xFFFFFFFF

end Sys2Proof.Machine

namespace Sys2Proof

open Sys2Proof.Machine

/-- The low 224 bits of a header (13 R381). -/
def Header.low (h : Header) : Nat :=
  h.addr.toNat + fld h.type.toNat 64 5 + fld h.vc.toNat 69 2 + fld (b2n h.poison) 71 1 + fld h.len.toNat 72 9
    + fld h.srcDev.toNat 81 12 + fld h.srcAg.toNat 93 8 + fld h.circ.toNat 101 12 + fld (b2n h.tsen) 113 1
    + fld h.tslot.toNat 114 9 + fld h.hops.toNat 123 4 + fld h.tag.toNat 128 16 + fld h.status.toNat 144 8
    + fld h.aop.toNat 152 3 + fld (b2n h.w8) 155 1 + fld (b2n h.sgn) 156 1 + fld h.depart.toNat 160 32
    + fld h.budget.toNat 192 16 + fld h.seq.toNat 208 12

/-- The CRC that a packet must carry: HOPS and SEQ taken as 0. -/
def Header.crcOf (h : Header) (data : List Byte) : W32 :=
  crc32c (leBytes ({ h with hops := 0, seq := 0 }).low 28 ++ data)

end Sys2Proof

namespace Sys2Proof.Machine

/-! ### States -/

/-- Device states (14 R444). -/
def dBOOT : Nat := 1
def dREADY : Nat := 2
def dRUNNING : Nat := 3
def dDRAINING : Nat := 4
def dFAULTED : Nat := 5
def dRESETTING : Nat := 6
def dRECOVERY : Nat := 7

/-- Job states (14 R445). -/
def jEMPTY : Nat := 0
def jLOADING : Nat := 1
def jLOADED : Nat := 2
def jARMED : Nat := 3
def jRUNNING : Nat := 4
def jDONE : Nat := 5
def jFAULTED : Nat := 6

/-- Port states (13 R378). -/
def pDOWN : Nat := 0
def pTRAINING : Nat := 1
def pAUTH : Nat := 2
def pJOIN : Nat := 3
def pUP : Nat := 4
def pFENCED : Nat := 5

/-! ### Units -/

def State.core (s : State) (k : Nat) : Core := tget Core.reset s.cores k
def State.setCore (s : State) (k : Nat) (c : Core) : State := { s with cores := tput Core.reset s.cores k c }
def State.modCore (s : State) (k : Nat) (f : Core → Core) : State := s.setCore k (f (s.core k))
def State.job (s : State) (j : Nat) : Job := tget Job.empty s.jobs j
def State.setJob (s : State) (j : Nat) (x : Job) : State := { s with jobs := tput Job.empty s.jobs j x }
def State.port (s : State) (p : Nat) : Port := tget Port.reset s.ports p
def State.setPort (s : State) (p : Nat) (x : Port) : State := { s with ports := tput Port.reset s.ports p x }
/-- Every port changes. -/
def State.mapPorts (s : State) (f : Port → Port) : State :=
  { s with ports := (s.ports.map fun (x : Nat × Port) => (x.1, f x.2)).filter fun x => x.2 ≠ Port.reset }
def State.hub (s : State) (h : Nat) : Hub := tget Hub.reset s.hubs h
def State.setHub (s : State) (h : Nat) (x : Hub) : State := { s with hubs := tput Hub.reset s.hubs h x }
def State.queue (s : State) (q : Nat) : Queue := tget Queue.zero s.queues q
def State.setQueue (s : State) (q : Nat) (x : Queue) : State := { s with queues := tput Queue.zero s.queues q x }
def State.island (s : State) (i : Nat) : Island := tget Island.off s.clk.isl i
def State.setIsland (s : State) (i : Nat) (x : Island) : State :=
  { s with clk := { s.clk with isl := tput Island.off s.clk.isl i x } }
def State.ring (s : State) (r : Nat) : Ring := tget Ring.zero s.host.rings r
def State.setRing (s : State) (r : Nat) (x : Ring) : State :=
  { s with host := { s.host with rings := tput Ring.zero s.host.rings r x } }

def State.emit (s : State) (o : Out) : State := { s with out := s.out ++ [o] }

/-- A message goes on its way under an identity of its own. -/
def State.put (s : State) (m : Msg) : State :=
  { s with plane := tput none s.plane s.nextId (some m), nextId := s.nextId + 1 }

def State.msg (s : State) (id : Nat) : Option Msg := tget none s.plane id
def State.take (s : State) (id : Nat) : State := { s with plane := terase id s.plane }

/-- Who waits for what a message asks. -/
def Msg.asker (m : Msg) : Reply :=
  match m with
  | .line _ p => p.reply
  | .remote _ r => r.reply
  | .hub r => r.reply
  | .queue q => q.reply
  | _ => .none

/-- Who waits for a request of which this may be a part. -/
def State.wholeOf (s : State) (r : Reply) : Reply :=
  match r with
  | .part id _ => ((s.joins.find? fun x => x.1 = id).map fun x => x.2.reply).getD r
  | _ => r

/-- Whether two requests come from one agent of another device, on one VC (13 R389). -/
def Reply.sameOrigin (a b : Reply) : Bool :=
  match a, b with
  | .fabric _ d g _ _ _ v _ _, .fabric _ d' g' _ _ _ v' _ _ => d = d' && g = g' && v = v'
  | _, _ => false

/-- Whether a message's turn has come (13 R389). A VC1 request of another device waits until those that its origin sent before it have
been answered; on VC0 packets come to their units in order. -/
def State.inTurn (s : State) (id : Nat) (m : Msg) : Bool :=
  let r := s.wholeOf m.asker
  match r with
  | .fabric _ _ _ _ _ _ sched _ _ =>
    if sched then !(s.plane.any fun x => x.1 < id && x.2.elim false fun y => r.sameOrigin (s.wholeOf y.asker))
    else !((s.fab.inq.takeWhile fun y => y ≠ r).any fun y => r.sameOrigin y)
  | _ => true

/-- Draws from the free-value counter (00 R16). -/
def State.draw (s : State) : State := { s with freeCtr := s.freeCtr + 1 }

/-! ### Cores and islands (01 R26, 12 R348) -/

/-- Whether physical column `k` of row `r` is disabled (16 R503). -/
def State.failed (s : State) (r k : Nat) : Bool := bitAt (tget 0 s.fl.spare r) k

/-- The physical core of logical core `c` (01 R26). -/
def State.phys (s : State) (c : Nat) : Nat :=
  let r := c / 16
  r * 17 + (((upFrom 0 17).filter fun k => !s.failed r k).getD (c % 16) 0)

/-- The logical core of a physical one, if it holds one (01 R26). -/
def State.logical (s : State) (p : Nat) : Option Nat :=
  let r := p / 17
  if s.failed r (p % 17) then none
  else
    let rank := ((upFrom 0 (p % 17)).filter fun k => !s.failed r k).length
    if rank < 16 then some (16 * r + rank) else none

/-- The timebase as an island reads it (12 R364): the copy of a C-die island lies within 8 ticks of the H0 counter, which the hubs and
the units at them read itself. -/
def State.copyTbt (s : State) (island : Nat) : W64 :=
  if island ≤ 136 then s.clk.tbt + BitVec.ofNat 64 (Config.copySkew island (s.island island).skew % 17) - 8 else s.clk.tbt

/-- TBT[33:2] (13 R381). -/
def State.ns32 (s : State) : W32 := BitVec.ofNat 32 (s.clk.tbt.toNat / 4)

/-! ### The ledger (17 R517, R518) -/

/-- Sets a bit of MG_ALERT (17 R526). -/
def State.alert (s : State) (k : Nat) : State := 
  { s with
    mss := { s.mss with alert := s.mss.alert ||| BitVec.ofNat 7 (2 ^ k) }
    hc := { s.hc with alerts := s.hc.alerts ||| BitVec.ofNat 7 (2 ^ k) } }

/-- An entry for the ledger: held in SRAM until it is flushed; beyond 256 entries it is counted. Its TBT is 0 before the first
step of the count (12 R365). -/
def State.ledger (s : State) (type : Nat) (data : List Byte) : State :=
  if s.mss.ledBuf.length < 256 then
    { s with mss := { s.mss with
      ledBuf := s.mss.ledBuf ++ [⟨if s.clk.stepped then s.clk.tbt else 0, s.mss.ledSeq, type, data⟩]
      ledSeq := s.mss.ledSeq + 1 } }
  else { s with mss := { s.mss with ledLost := s.mss.ledLost + 1 } }.alert 6

/-- The copy of a fault record: at most 64 a second (16 R485). -/
def State.ledgerFault (s : State) (data : List Byte) : State :=
  let sec := s.clk.tbt.toNat / 4000000000
  let n := if s.mss.fltSec = sec then s.mss.fltCnt else 0
  if n < 64 then { s with mss := { s.mss with fltSec := sec, fltCnt := n + 1 } }.ledger 0x0002 data
  else { s with mss := { s.mss with ledLost := s.mss.ledLost + 1 } }

/-! ### The fault log (16 R481, R485) -/

/-- HDR of a record. -/
def FRec.hdr (f : FRec) : Nat :=
  fld f.cls 0 8 + fld 1 8 1 + fld (b2n f.stop) 9 1 + fld (b2n f.capt) 10 1 + fld (b2n f.ack) 11 1 + fld f.source 12 3

/-- A fault record's 64 bytes (16 R481). -/
def FRec.bytes (f : FRec) : List Byte :=
  leBytes f.hdr 4 ++ leBytes f.seq.toNat 4 ++ leBytes f.tbt.toNat 8 ++ leBytes f.ccyc.toNat 8 ++ leBytes f.kvi.toNat 4
    ++ leBytes f.loc.toNat 4 ++ leBytes f.prog.toNat 8 ++ leBytes f.run.toNat 8 ++ leBytes f.spec0.toNat 8
    ++ leBytes f.spec1.toNat 8

/-- LOC (16 R481). -/
def locWord (core island eng : Nat) (svc : Bool) (job unit : Nat) : W32 :=
  BitVec.ofNat 32 (fld core 0 8 + fld island 8 8 + fld eng 16 3 + fld (b2n svc) 19 1 + fld job 20 8 + fld unit 28 4)

/-- Writes a record over the oldest one; answers its index too. -/
def State.logRec (s : State) (f : FRec) : State × Nat :=
  let i := s.fl.head
  let lost := match tget none s.fl.log i with
    | some x => if x.ack then 0 else 1
    | none => 0
  let f := { f with seq := s.fl.seq + 1 }
  let s := { s with fl := { s.fl with
    log := tput none s.fl.log i (some f)
    head := (i + 1) % 4096
    seq := s.fl.seq + 1
    lost := satAdd s.fl.lost lost } }
  ((s.emit (.vector 256)).ledgerFault (leBytes f.hdr 4 ++ leBytes f.loc.toNat 4 ++ leBytes f.seq.toNat 4), i)

/-- Whether FAULT_N is asserted: an unacknowledged stopping record, or the device FAULTED (16 R485). -/
def State.faultN (s : State) : Bool :=
  s.host.state = dFAULTED || s.fl.log.any fun x => match x.2 with
    | some f => f.stop && !f.ack
    | none => false

/-- A record of a class that no core raises: SOURCE 1 hub, 2 port, 3 command processor, 4 MSS (16 R481). -/
def State.logUnit (s : State) (source unit island cls : Nat) (stop : Bool) (job : Nat) (run : Nat) (s0 s1 : Nat) :
    State × Nat :=
  s.logRec
    { cls := cls, stop := stop, capt := false, ack := false, source := source, seq := 0, tbt := s.copyTbt island
      ccyc := 0, kvi := 0xFFFFFFFF, loc := locWord 0xFF island 7 false job unit
      prog := if job < 64 then (s.job job).progId else 0, run := BitVec.ofNat 64 run
      spec0 := BitVec.ofNat 64 s0, spec1 := BitVec.ofNat 64 s1 }

/-- Changes one run of a job. -/
def Job.modRun (j : Job) (idx : Nat) (f : Run → Run) : Job :=
  { j with live := j.live.map fun r => if r.idx = idx then f r else r }

/-- Of two stopping faults of a run, that which decides: the lower TBT, then the lower logical core, a record that names no
core last (16 R484, R487). -/
def decides (x y : Nat × Nat × Nat × Status) : Bool := x.1 < y.1 || (x.1 = y.1 && x.2.1 < y.2.1)

/-- What a fault does to its run: it stops it, or marks it (16 R482, R484). A fault of a job that is FAULTED changes
nothing (R487). -/
def Run.mark (r : Run) (cls : Nat) (stop : Bool) (tbt core idx : Nat) (st : Status) : Run :=
  let r := if cls = 0x07 then { r with poison := r.poison.orElse fun _ => some idx }
    else if cls = 0x08 then { r with slip := r.slip.orElse fun _ => some idx } else r
  if !stop then r
  else
    match r.fault with
    | none => { r with fault := some (tbt, core, idx, st) }
    | some f => if decides (tbt, core, idx, st) f then { r with fault := some (tbt, core, idx, st) } else r

/-- The run context of a core. -/
def Core.ctx (c : Core) (n : Nat) : RunCtx := if n = 0 then c.rn.c0 else c.rn.c1

/-- Whether hubs answer for the C-die: the fence of a compute reset (16 R496). -/
def State.fenced (s : State) : Bool := (s.hub 0).cfence

/-- Whether faults of the C-die write no record: phases 2 to 6 of a compute reset (16 R498). -/
def Faults.mutes (f : Faults) : Bool := 2 ≤ f.rsBusy && f.rsBusy ≤ 6

/-- A fault that names logical core `k` goes to the log, and marks or stops its run. The core itself raises it, or the command
processor, which runs on H0 (16 R481; QUIESCE: notes/assumptions/73.md). -/
def State.logNamed (s : State) (k : Nat) (byCore : Bool) (f : RawFault) : State :=
  if s.fl.mutes then s
  else
  let c := s.core k
  let x := c.ctx f.rctx
  let (job, run) := if x.used then (x.job, x.run) else (0xFF, 0)
  let isl := if byCore then s.phys k else 140
  let tbt := s.copyTbt isl
  let (s, i) := s.logRec
    { cls := f.cls, stop := f.stop, capt := false, ack := false, source := if byCore then 0 else 3, seq := 0, tbt := tbt
      ccyc := if byCore then f.ccyc else 0
      kvi := BitVec.ofNat 32 f.kvi, loc := locWord k isl f.eng (c.rn.mode = 2) job 0
      prog := if job < 64 then (s.job job).progId else 0, run := BitVec.ofNat 64 run, spec0 := f.spec0
      spec1 := f.spec1 }
  if job < 64 && (s.job job).state ≠ jFAULTED then
    let j := (s.job job).modRun run fun r => r.mark f.cls f.stop tbt.toNat k i f.status
    s.setJob job { j with faulting := j.faulting || f.stop }
  else s

/-- A fault that logical core `k` raises. -/
def State.logCore (s : State) (k : Nat) (f : RawFault) : State := s.logNamed k true f

/-! ### Routes and ports (13 R391 to R395) -/

/-- The device that a fabric address names (01 R30). -/
def fabDev (a : Nat) : Nat := bits a 48 12

/-- The port of a route entry: none where the entry is not valid. -/
def rtPort (e : W32) : Option Nat :=
  if !e.getLsbD 0 then none
  else some (if e.getLsbD 11 then bits e.toNat 7 4 else bits e.toNat 2 4)

def State.route (s : State) (dev : Nat) : Option Nat := rtPort (tget 0 s.fab.rt dev)

/-- Whether all traffic crosses the port (13 R378). -/
def Port.up (p : Port) : Bool := p.state = pUP

/-- A packet joins a port's transmit queue; the queue's highest depth by VC is kept (13 R415 NX_Q_HWM). -/
def Port.push (p : Port) (x : TxPkt) : Port :=
  let p := { p with txq := p.txq ++ [x] }
  let v := x.hdr.vc.toNat
  let n := min 255 (p.txq.filter fun y => y.hdr.vc = x.hdr.vc).length
  if bits p.qhwm.toNat (8 * v) 8 < n then
    { p with qhwm := BitVec.ofNat 32 (p.qhwm.toNat - fld (bits p.qhwm.toNat (8 * v) 8) (8 * v) 8 + fld n (8 * v) 8) }
  else p

/-- The difference of 12 R354 between an island and PL. -/
def Clocks.slack (c : Clocks) (i : Nat) : Nat :=
  let a := (tget Island.off c.isl i).taken
  let b := (tget Island.off c.isl 136).taken
  if a < b then b - a else a - b

/-- Whether a crossing of a C-die island is outside its slack (12 R374): that of a core, or for PL, one of any core. -/
def Clocks.outside (c : Clocks) (i : Nat) : Bool :=
  let far := fun (k : Nat) => k < 136 && (tget Island.off c.isl k).present && 8 < c.slack k
  if i = 136 then (upFrom 0 136).any far else far i

/-- Whether link words and VC3 packets cross the port: from AUTH on (13 R378). -/
def Port.linked (x : Port) : Bool := x.state = pAUTH || x.state = pJOIN || x.state = pUP

/-- Whether a packet comes from another device. -/
def TxPkt.transit (y : TxPkt) : Bool := y.via.isSome

/-- Packets of a VC that wait to be sent. -/
def Port.depth (p : Port) (vc : BitVec 2) : Nat := (p.txq.filter fun y => y.hdr.vc = vc).length

/-- Whether a VC of the port is THROTTLED (R388). -/
def Port.throttled (p : Port) (vc : BitVec 2) : Bool := if vc = 0 then p.cfg.getLsbD 0 else vc ≠ 3

/-- Whether the port admits a packet that this device injects now (R398). -/
def Port.admitsNow (p : Port) (t : Nat) (vc : BitVec 2) : Bool :=
  !p.throttled vc || p.depth vc ≤ bits p.cfg.toNat 2 8 || p.lastInj + 16 * bits p.cfg.toNat 10 8 ≤ t

/-- A packet of this device's own agents comes to a port: above THRESH they are admitted one in every RGAP (R398). -/
def Port.inject (p : Port) (t : Nat) (x : TxPkt) : Port :=
  if (p.waitq.any fun y => y.hdr.vc = x.hdr.vc) || !p.admitsNow t x.hdr.vc then { p with waitq := p.waitq ++ [x] }
  else if p.throttled x.hdr.vc && bits p.cfg.toNat 2 8 < p.depth x.hdr.vc then { p.push x with lastInj := t }
  else p.push x

/-! ### Addresses of agents -/

/-- The address of an agent of a device, as its answers name it (13 R381; notes/assumptions/29.md). -/
def agentAddr (dev agent : Nat) : Nat :=
  2 ^ 63 + fld dev 48 12 + (if agent < 128 then scrBase + agent * scrBytes else 0)

/-- The agent that the address of an answer names. -/
def addrAgent (a : Nat) : Nat := let d := a % 2 ^ 48; if scrBase ≤ d then (d - scrBase) / scrBytes else 0xFF

/-! ### Packets of VC3 (13 R382, R388) -/

def Own.type : Own → Nat
  | .time _ => 0x10
  | .mgmt _ => 0x11
  | .auth _ => 0x12

/-- The header of a packet of VC3 for a device (notes/assumptions/64.md). -/
def State.ownHeader (s : State) (dev : Nat) (b : Own) : Header :=
  { addr := BitVec.ofNat 64 (agentAddr dev 0xFF), type := BitVec.ofNat 5 b.type, vc := 3, poison := false, len := 0
    srcDev := BitVec.ofNat 12 s.fab.devId, srcAg := 0xFF, circ := 0, tsen := false, tslot := 0, hops := 0, tag := 0, status := 0
    aop := 0, w8 := false, sgn := false, depart := 0, budget := 0, seq := 0, crc := 0 }

/-- A packet of VC3 joins a port's transmit queue. -/
def State.sendOwn (s : State) (p dev : Nat) (b : Own) : State :=
  let x := s.port p
  if x.linked then s.setPort p (x.push ⟨s.ownHeader dev b, [], false, s.clk.tbt.toNat, none, 0, .none, some b⟩) else s

/-- The partner of a port, as NX_PEER names it. -/
def Port.partner (x : Port) : Nat := bits x.peer.toNat 0 12

/-- A packet of VC3 goes to the partner of a port. -/
def State.sendPartner (s : State) (p : Nat) (b : Own) : State := s.sendOwn p (s.port p).partner b

/-- The ports in JOIN or UP. -/
def State.joined (s : State) : List Nat := (upFrom 0 16).filter fun p => (s.port p).state = pJOIN || (s.port p).up

/-- The devices of the cluster that are no partner of this one: those that the route table names. -/
def State.farther (s : State) : List (Nat × Nat) :=
  let near := s.joined.map fun p => (s.port p).partner
  s.fab.rt.filterMap fun x =>
    if x.1 = s.fab.devId || near.contains x.1 then none else (rtPort x.2).map fun p => (x.1, p)

/-- A message of the master to every device of the cluster (13 R411, R413; notes/assumptions/64.md). -/
def State.sendCluster (s : State) (b : MgmtBody) : State :=
  let s' := s.joined.foldl (fun (s : State) p => s.sendPartner p (.mgmt b)) s
  s.farther.foldl (fun (s : State) x => s.sendOwn x.2 x.1 (.mgmt b)) s'

/-! ### Answers -/

/-- The members of a multicast queue as an answer lists them: 64 handles, 0xFFFF_FFFF where there is none
(notes/assumptions/21.md). -/
def memberList (data : List Byte) : List (Nat × Nat) :=
  (upFrom 0 64).filterMap fun m =>
    let h := leAt data (4 * m) 4
    if h = 0xFFFFFFFF then none else some (m, h)

/-- A placer's answer from its data: 4 bytes of credit, or 256 bytes of members. -/
def queueAnswer (core ctx member op seq : Nat) (st : Status) (data : List Byte) : QAns :=
  if data.length = 256 then ⟨core, ctx, member, op, st, 0, seq, some (memberList data)⟩
  else ⟨core, ctx, member, op, st, leAt data 0 4, seq, none⟩

/-- The place in its transfer of a request's answer (09 R258). -/
def State.walkOf (s : State) (r : Reply) : Option Walk :=
  match r with
  | .core c txn => ((s.core c).txn txn).bind fun t => t.walk
  | _ => none

/-- A packet of VC1 or VC2, or an entry of an acknowledgement, waits while its destination's old port drains (13 R390). -/
def Fabric.movedTo (f : Fabric) (dev : Nat) : Bool := f.moved.any fun m => m.dev = dev
def Fabric.holdBack (f : Fabric) (dev : Nat) (x : TxPkt) : Fabric :=
  { f with moved := f.moved.map fun (m : Moved) => if m.dev = dev then { m with pkts := m.pkts ++ [x] } else m }
def Fabric.holdAck (f : Fabric) (a : Nat × Bool × Nat × Nat × Nat) : Fabric :=
  { f with moved := f.moved.map fun (m : Moved) => if m.dev = a.1 then { m with acks := m.acks ++ [a] } else m }

/-- A response of this device, or a packet of another, leaves by the port of its route. -/
def State.sendOn (s : State) (dev out : Nat) (x : TxPkt) : State :=
  if s.fab.movedTo dev then { s with fab := s.fab.holdBack dev x } else s.setPort out ((s.port out).push x)

/-- An entry joins those that wait for the next ACK packet (13 R385). -/
def State.sendEntry (s : State) (out : Nat) (a : Nat × Bool × Nat × Nat × Nat) : State :=
  if s.fab.movedTo a.1 then { s with fab := s.fab.holdAck a }
  else
    let p := s.port out
    s.setPort out { p with acks := p.acks ++ [a] }

/-- An answer goes to whoever asked. An answer to a core that brings data lands in its scratchpad: read data of DMA0, or the
old value of a DATOM; it has the class of the request (notes/assumptions/58.md). An acknowledgement to another device joins those that
wait for the next ACK packet (13 R385); any
other answer to another device is a packet of VC2, whose ADDR names the requester (R381; notes/assumptions/29.md). -/
def State.answerTo (s : State) (r : Reply) (st : Status) (cause pc slot : Nat) (data : List Byte) (poison : Bool) : State :=
  match r with
  | .none => s
  | .part .. => s
  | .core c txn =>
    match (s.core c).txn txn with
    | none => s
    | some t =>
      if data.isEmpty then s.put (.answer c ⟨txn, st, cause, pc, slot⟩)
      else s.put (.line c ⟨t.lcl, data, poison, t.sched, ⟨s.fab.devId, c, false⟩, if t.datom then .datom else .dma, r, none, t.walk⟩)
  | .host a => s.emit (.data a data poison)
  | .queue c ctx member op seq => s.put (.qans (queueAnswer c ctx member op seq st data))
  | .total q =>
    if st = .ok then s
    else s.setQueue q { s.queue q with drops := satAdd (s.queue q).drops 1 }
  | .fabric _ dev agent tag addr ans sched depart budget =>
    let s := { s with fab := { s.fab with inq := s.fab.inq.erase r } }
    if ans = 6 then
      match s.route dev with
      | none => s
      | some out => s.sendEntry out (dev, sched, tag, agent, statusByte st sched)
    else
      let dpa := addr % 2 ^ 48
      let ag := if ans = 0x0C then 0xFF else if scrBase ≤ dpa && dpa < scrEnd then (dpa - scrBase) / scrBytes else 0xFF
      let h : Header :=
        { addr := BitVec.ofNat 64 (agentAddr dev agent), type := BitVec.ofNat 5 ans, vc := 2, poison := poison
          len := BitVec.ofNat 9 data.length, srcDev := BitVec.ofNat 12 s.fab.devId, srcAg := BitVec.ofNat 8 ag
          circ := 0, tsen := false, tslot := 0, hops := 0, tag := BitVec.ofNat 16 tag
          status := BitVec.ofNat 8 (statusByte st sched), aop := 0, w8 := false, sgn := false, depart := BitVec.ofNat 32 depart
          budget := BitVec.ofNat 16 budget, seq := 0, crc := 0 }
      match s.route dev with
      | none => s
      | some out => s.sendOn dev out ⟨h, data, sched, s.clk.tbt.toNat, none, 0, .none, none⟩

/-- An answer; that to a part of a request joins the others, and the last of them answers the request (08 R227). -/
def State.answer (s : State) (r : Reply) (st : Status) (cause pc slot : Nat) (data : List Byte) (poison : Bool) : State :=
  match r with
  | .part id off =>
    match s.joins.find? fun x => x.1 = id with
    | none => s
    | some (_, j) =>
      let j : Join := { j with
        left := j.left - 1, parts := j.parts ++ [(off, data)], poison := j.poison || poison
        bad := j.bad.orElse fun _ => if st = .ok then none else some (st, cause, pc, slot) }
      let rest := s.joins.filter fun x => x.1 ≠ id
      if j.left ≠ 0 then { s with joins := rest ++ [(id, j)] }
      else
        let s := { s with joins := rest }
        let all := (sortBy (fun (x y : Nat × List Byte) => x.1 ≤ y.1) j.parts).flatMap (·.2)
        match j.bad with
        | none => s.answerTo j.reply .ok cause pc slot all j.poison
        | some b => s.answerTo j.reply b.1 b.2.1 b.2.2.1 b.2.2.2 [] false
  | _ => s.answerTo r st cause pc slot data poison

/-- The port by which a packet of this device leaves: its circuit's, or that of the route entry. -/
def State.outPort (s : State) (h : Header) (sched : Bool) : Option Nat :=
  if sched then some (tget Circ.none s.fab.circ h.circ.toNat).out else s.route (fabDev h.addr.toNat)

/-- A tag that no outstanding request of an agent has (13 R381). -/
def Fabric.freeTag (f : Fabric) (agent : Nat) : Nat :=
  let used := (f.out.filter fun o => o.agent = agent).map (·.tag)
  ((upFrom 0 (used.length + 1)).find? fun t => !used.contains t).getD 0

/-- A packet that an agent of this device sends: a scheduled one with data leaves in a slot that begins at least 40 ns after its last
line was read (09 R269). It takes a tag that no other outstanding request has, and is answered at
once where no port leads there, or the port is not UP (13 R378, R391, 09 R280). -/
def State.sendFabric (s : State) (h : Header) (data : List Byte) (sched : Bool) (r : Reply) : State :=
  match s.outPort h sched with
  | none => s.answer r .epeerGone 6 0x3FF 0x3FF [] false
  | some p =>
    let moved := s.fab.movedTo (fabDev h.addr.toNat)
    if !(s.port p).up then s.answer r .epeerGone 6 0x3FF 0x3FF [] false
    else
      let tag := s.fab.freeTag h.srcAg.toNat
      let h := { h with tag := BitVec.ofNat 16 tag, circ := if sched then h.circ else 0 }
      let x : TxPkt := ⟨h, data, sched, s.clk.tbt.toNat + (if sched && !data.isEmpty then 160 else 0), none, 0, r, none⟩
      let s := { s with fab := { s.fab with
        out := s.fab.out ++ [OutReq.mk tag h.srcAg.toNat p r sched (fabDev h.addr.toNat) h.type.toNat] } }
      if moved && !sched then
        { s with fab := s.fab.holdBack (fabDev h.addr.toNat) x }
      else s.setPort p ((s.port p).inject s.clk.tbt.toNat x)

/-- Whether an answer goes to a host access. -/
def Reply.isHost (r : Reply) : Bool :=
  match r with
  | .host _ => true
  | _ => false

/-- What a request to the C-die is answered while the fence stands, or when it goes up (16 R496): ERESET_TARGET; a read through
BAR2 returns 0 (14 R456). Data that a core of this device asked for is discarded. -/
def State.fenceAnswer (s : State) (m : Msg) : State :=
  match m with
  | .line _ p => s.answer p.reply .eresetTarget 5 0x3FF 0x3FF [] false
  | .remote _ r =>
    match r.req with
    | .read n => s.answer r.reply .eresetTarget 5 0x3FF 0x3FF (if r.reply.isHost then List.replicate n 0 else []) false
    | _ => s.answer r.reply .eresetTarget 5 0x3FF 0x3FF [] false
  | .queue q => s.answer q.reply .eresetTarget 5 0x3FF 0x3FF [] false
  | .reply r .. => s.answer r .eresetTarget 5 0x3FF 0x3FF [] false
  | _ => s

/-! ### Admission of a command -/

/-- A command that names no unit of the part, or no encoding that the loader admits, is refused; any other acts. -/
def accept (i : Instr) (t : State) : Host.Outcome State Fault Refusal :=
  if !i.unitsOk then .refused .noSuchUnit else if !i.fieldsOk then .refused .reservedEncoding else .next t

/-! ### One core -/

/-- The device as logical core `k` sees it. -/
def State.env (s : State) (k : Nat) : Env :=
  let c := s.core k
  let j := s.job c.rn.job
  { core := k, tbt := s.copyTbt (s.phys k), dev := s.fab.devId
    img := j.images.getD c.rn.image CoreImage.empty
    seed := j.seed, runNo := c.rn.run
    set := match j.live.find? (fun r => r.idx = c.rn.run) with
      | some r => r.set
      | none => 0
    fwpriv := j.fwpriv, isa3 := j.isa3, job := c.rn.job
    circ := s.fab.circ, ports := s.ports, mcg := s.mcg, opWait := s.clk.change.isSome }

/-- A record of a queue ring has landed: it may be dispatched or read (11 R321). -/
def Queue.landed (q : Queue) (addr : Nat) : Queue :=
  { q with recs := q.recs.map fun r => if !r.spill && r.at0 = addr then { r with ready := true } else r }

/-- A record that lay outside its window is released unread (11 R326). -/
def Queue.lost (q : Queue) (addr : Nat) : Queue :=
  { q with recs := q.recs.map fun r =>
    if !r.spill && !r.pad && r.at0 = addr then { r with done := true, conn := none } else r }

/-- What a core hands over goes on its way. -/
def State.deliver (s : State) (m : Msg) : State :=
  match m with
  | .reply r st cause pc slot data p => s.answer r st cause pc slot data p
  | .placed q addr ok r =>
    if !ok then (s.setQueue q ((s.queue q).lost addr)).answer r .eaperture 4 0 0 [] false
    else if (s.queue q).state = 1 then (s.setQueue q ((s.queue q).landed addr)).answer r .ok 0 0 0 [] false
    else s.answer r .epeerGone 0 0 0 [] false
  | .fabric h data sched r => s.sendFabric h data sched r
  | m => s.put m

/-- Whether the clocks of the C-die are gated: by the stop for a change of operating point (12 R362), or by THERMTRIP_N (18 R549). -/
def State.gated (s : State) : Bool := s.pins.trip || s.clk.stopped

/-- The run that a core computes has come to its first scheduled ccyc: its die events count from here (12 R355; notes/assumptions/65.md). -/
def State.noteFirst (s : State) (k : Nat) : State :=
  let c := s.core k
  let x := c.ctx c.rn.ctx
  if c.rn.mode ≠ 1 || c.ms.handler.isSome || c.tm.p + 1 < c.rn.begin0 || !x.used || 64 ≤ x.job then s
  else
    let j := s.job x.job
    if j.live.any fun r => r.idx = x.run && r.stretch0.isNone then
      s.setJob x.job (j.modRun x.run fun r => { r with stretch0 := some s.clk.stretch.toNat, stretch1 := s.clk.stretch.toNat })
    else s

/-- A command acts on logical core `k`: the core's faults then go to the log, its messages on their way; a core that has
stopped is noted with the instant (16 R483, R491). While its clock is gated nothing happens. -/
def State.onCore (s : State) (k : Nat) (f : Env → Core → Core) : State :=
  if s.gated then s
  else
  let was := (s.core k).rn.stop
  let c := f (s.env k) { s.core k with fc := s.freeCtr }
  let s := { s.setCore k { c with fc := 0, flt := [], tx := [] } with freeCtr := c.fc }
  let s := c.flt.foldl (fun (s : State) x => s.logCore k x) s
  let s := (c.tx.foldl State.deliver s).noteFirst k
  if was = .no && c.rn.stop ≠ .no then
    { s with fl := { s.fl with stops := (s.fl.stops.filter fun x => x.1 ≠ k) ++ [(k, (s.copyTbt (s.phys k)).toNat)] } }
  else s

end Sys2Proof.Machine
end

