-- ==== Sys2Proof/Machine/Access.lean ====
section
/-!
DEFINITION. Access to the memory of the device: HBM bytes with the poison marks of their bursts, what of HBM exists, and the
stored errors, and the
apertures of a port (08 R221, R227, R246, R247; 13 R407).
-/

namespace Sys2Proof.Machine

/-! ### Descriptors of queues -/

/-- Bytes from fields: each its offset, its size in bytes, its value. -/
def packBytes (len : Nat) (l : List (Nat × Nat × Nat)) : List Byte :=
  leBytes ((l.map fun x => fld x.2.2 (8 * x.1) (8 * x.2.1)).sum) len

/-- CTRL of a queue's descriptor (11 R312). -/
def Queue.ctrl (q : Queue) : Nat :=
  fld q.state 0 2 + fld q.kind 2 2 + fld (b2n q.group) 4 1 + fld q.policy 5 2 + fld (b2n q.hbm) 7 1 + fld q.rlog 8 5
    + fld (b2n q.hmode) 13 1 + fld (b2n q.bal) 14 1 + fld (b2n q.fab) 15 1 + fld (b2n q.exact) 16 1 + fld q.home 17 2

/-- Subject QUEUE: the descriptor (11 R312). -/
def Queue.query (q : Queue) : List Byte :=
  packBytes 1024 (
    [(0x00, 4, q.ctrl), (0x04, 2, if q.group then fld q.reader 8 6 else q.reader), (0x06, 1, q.hidx), (0x07, 1, q.job),
      (0x08, 8, q.rbase), (0x10, 8, q.sbase), (0x18, 4, q.scred), (0x1C, 2, q.maxconn), (0x1E, 1, q.slog),
      (0x20, 8, q.head), (0x28, 8, q.tail), (0x30, 4, q.drops.toNat), (0x34, 4, q.refused.toNat),
      (0x38, 4, q.conns.length), (0x40, 4, q.expect), (0x44, 4, q.ctmo), (0x48, 4, q.dq), (0x4C, 2, q.anchor),
      (0x4E, 2, q.keys)]
    ++ q.members.map fun m => (0x200 + 8 * m.1, 8, fld m.2 0 32 + fld 1 63 1))

/-! ### HBM bytes (08 R246, R247) -/

/-- Whether one of the bursts of a range is poisoned. -/
def Hbm.poisoned (h : Hbm) (addr len : Nat) : Bool :=
  len ≠ 0 && anyMark h.pois (addr / 64) ((addr + len - 1) / 64 + 1 - addr / 64)

def Hbm.bytes (h : Hbm) (addr len : Nat) : List Byte := readBytes h.mem addr len

/-- The marks of the bursts that a write touches, from burst `b` on: poisoned data sets a mark, a whole clean burst clears
it (R247). -/
def burstMarks (pois : SMap Bool) (addr : Nat) (marks : List Bool) : Nat → Nat → SMap Bool
  | _, 0 => pois
  | b, n + 1 =>
    let lo := max addr (64 * b)
    let hi := min (addr + marks.length) (64 * b + 64)
    let part := (marks.drop (lo - addr)).take (hi - lo)
    let rest := burstMarks pois addr marks (b + 1) n
    if part.any id then tput false rest b true
    else if hi - lo = 64 then tput false rest b false
    else rest

/-- Writes bytes to HBM with a poison mark for each. -/
def Hbm.write (h : Hbm) (addr : Nat) (d : List Byte) (marks : List Bool) : Hbm :=
  if d.isEmpty then h
  else
    { h with
      mem := writeBytes h.mem addr d
      pois := burstMarks h.pois addr marks (addr / 64) ((addr + d.length - 1) / 64 + 1 - addr / 64) }

/-- Writes bytes that are all clean, or all poisoned. -/
def Hbm.put (h : Hbm) (addr : Nat) (d : List Byte) (p : Bool) : Hbm := h.write addr d (List.replicate d.length p)

/-- A role digest: that of the concatenated digests of ranges (15 R477). -/
def Hbm.digestOf (h : Hbm) (l : List (Nat × Nat)) : List Byte :=
  Config.sha512_256 (l.flatMap fun x => Config.sha512_256 (h.bytes x.1 x.2))

/-- The pseudo-channel of a DPA (R221), the hub of a pseudo-channel, its hub-local number (R220). -/
def pcOf (dpa : Nat) : Nat := dpa / 2048 % 768
def hubOf (pc : Nat) : Nat := pc % 12 / 3
def localPc (pc : Nat) : Nat := 64 * (pc % 12 - 3 * hubOf pc) + pc / 12

/-- The calendar entry of run n of pseudo-channel p; runs 15, 31, 47 and 63 are FIXED (R228). -/
def Hbm.entry (h : Hbm) (p n : Nat) : CalEntry :=
  if n % 16 = 15 then ⟨2, 0, false, 0, 0⟩ else tget CalEntry.elastic h.cal (64 * p + n)

def Hbm.setEntry (h : Hbm) (p n : Nat) (e : CalEntry) : Hbm :=
  { h with cal := tput CalEntry.elastic h.cal (64 * p + n) e }

/-- The parts of a range within granules: offset and length (R227). -/
def granuleParts : Nat → Nat → Nat → Nat → List (Nat × Nat)
  | 0, _, _, _ => []
  | fuel + 1, a, off, len =>
    let n := min len (2048 - a % 2048)
    if len = 0 then [] else (off, n) :: granuleParts fuel (a + n) (off + n) (len - n)

def MemReq.len : MemReq → Nat
  | .read n => n
  | .write d _ => d.length
  | .atom op => atomLen op
  | .scrub => 2048

/-- The requests that a request at an address is cut into: one for each granule, with its offset. A run serves one granule (R227). -/
def MemReq.cut (r : MemReq) (dpa : Nat) : List (Nat × MemReq) :=
  match r with
  | .read n => (granuleParts (n / 2048 + 2) dpa 0 n).map fun x => (x.1, .read x.2)
  | .write d m => (granuleParts (d.length / 2048 + 2) dpa 0 d.length).map fun x =>
      (x.1, .write ((d.drop x.1).take x.2) ((m.drop x.1).take x.2))
  | .atom op => [(0, .atom op)]
  | .scrub => [(0, .scrub)]

/-- Whether a range of DPA exists: HBM, or one core's scratchpad. -/
def dpaMapped (lo hi : Nat) : Bool := hi < 0x012000000000 || (0x100000000000 ≤ lo && hi < 0x100100000000)

/-! ### Stored errors (R246, R247) -/

def State.modHub (s : State) (h : Nat) (f : Hub → Hub) : State := s.setHub h (f (s.hub h))

/-- A read of a burst meets a stored error. -/
def State.hbmError (s : State) (burst : Nat) (ue : Bool) : State :=
  let dpa := 64 * burst
  let pc := pcOf dpa
  let h := hubOf pc
  if ue then
    let s := s.modHub h fun (x : Hub) => { x with ueCnt := satAdd x.ueCnt 1, ueDpa := BitVec.ofNat 64 dpa }
    let s := { s with hbm := { s.hbm with store := s.hbm.store ++ [(pc, burst)] } }
    (s.logUnit 1 h (140 + h) 0x06 false 0xFF 0 (1 + fld pc 18 10 + fld (pc % 12) 28 4) dpa).1
  else
    let n := tget 0 s.hbm.fixed burst + 1
    let s := s.modHub h fun (x : Hub) => { x with ceCnt := satAdd x.ceCnt 1 }
    let s := { s with hbm := { s.hbm with fixed := tput 0 s.hbm.fixed burst n } }
    if 2 ≤ n then s.ledger 0x0008 (leBytes dpa 8 ++ leBytes n 4) else s

/-- The bursts of a range. -/
def burstsOf (addr len : Nat) : List Nat := if len = 0 then [] else upFrom (addr / 64) ((addr + len - 1) / 64 + 1 - addr / 64)

/-- The errors that a read of bursts meets: `k` is the place of the first in the order read. Answers those uncorrectable. -/
def State.hbmErrors (ecc : List EccObs) : Nat → List Nat → State → State × List Nat
  | _, [], s => (s, [])
  | k, b :: t, s =>
    let hit := ecc.filter fun o => o.line = k
    let s := hit.foldl (fun (s : State) o => s.hbmError b o.ue) s
    let r := State.hbmErrors ecc (k + 1) t s
    (r.1, if hit.any (·.ue) then b :: r.2 else r.2)

/-- What the command processor and the hash engines read of HBM, in order: the errors that it meets, and whether any of it is
poisoned (00 R18; R246, R247). Each of these accesses takes effect with its command (notes/assumptions/60.md). -/
def State.touch (s : State) (ecc : List EccObs) (l : List (Nat × Nat)) : State × Bool :=
  let r := State.hbmErrors ecc 0 (l.flatMap fun x => burstsOf x.1 x.2) s
  (r.1, !r.2.isEmpty || l.any fun x => s.hbm.poisoned x.1 x.2)

/-! ### Apertures (13 R407) -/

/-- The kinds of access that an aperture permits: RD, WR, ATOM, QUEUE. -/
inductive ApKind where
  | rd | wr | atom | queue
  deriving DecidableEq, Repr

def ApKind.bit : ApKind → Nat
  | .rd => 1 | .wr => 2 | .atom => 3 | .queue => 4

/-- Whether an entry admits an access of device `dev` to a range. -/
def Aperture.admits (a : Aperture) (dev lo hi : Nat) (k : ApKind) (vc0 : Bool) : Bool :=
  let c := a.ctrl.toNat
  bitAt c 0 && bitAt c k.bit && (!vc0 || bitAt c 5) && bits c 8 12 ≤ dev && dev ≤ bits c 20 12
    && 4096 * bits a.base.toNat 0 36 ≤ lo && hi < 4096 * (bits a.limit.toNat 0 36 + 1)

/-- Whether some entry of a port admits the access; bytes `lo` to `hi`. -/
def Port.admits (p : Port) (dev lo hi : Nat) (k : ApKind) (vc0 : Bool) : Bool :=
  p.ap.any fun x => x.2.admits dev lo hi k vc0

end Sys2Proof.Machine
end

