-- ==== Sys2Proof/Machine/Common.lean ====
section
/-!
DEFINITION. The operations of any engine: SKIP, TINC, TDEC, TSET, TWAIT and FENCE (06 R186, R187; 10 R285 to R301).
-/

namespace Sys2Proof.Machine

open Sys2Proof

/-- A command that issues a word on its core's engine. -/
def State.issueOn (s : State) (x : Issue) (e : Engine) (lead : Bool) (body : Env → Core → Core) : State :=
  s.onCore x.core fun env c => c.issue env x e lead (body env)

/-- SKIP (06 R176, R186): only its issue slot. -/
def execSkip (x : Issue) (e : Engine) (s : State) : Host.Outcome State Fault Refusal :=
  accept (.skip x e) (s.issueOn x e false fun _ c => c)

/-- A change to a tally in this ccyc, by n of the word (06 R186, 10 R285). -/
def Core.change (c : Core) (env : Env) (e : Engine) (kvi : Nat) (t : TallyOp) (n : NSrc) (k : TKind) : Core :=
  let (c, v) := c.tallyN env e kvi n
  c.addChange ⟨t.form, tallyIdx t, k, v, e, kvi⟩

/-- TINC (10 R285). -/
def execTinc (x : Issue) (e : Engine) (t : TallyOp) (n : NSrc) (s : State) : Host.Outcome State Fault Refusal :=
  accept (.tinc x e t n) (s.issueOn x e false fun env c => c.change env e (c.kvi e x.word) t n .inc)

/-- TDEC (10 R285, R288). -/
def execTdec (x : Issue) (e : Engine) (t : TallyOp) (n : NSrc) (s : State) : Host.Outcome State Fault Refusal :=
  accept (.tdec x e t n) (s.issueOn x e false fun env c => c.change env e (c.kvi e x.word) t n .dec)

/-- TSET (10 R285). -/
def execTset (x : Issue) (t : TallyOp) (n : NSrc) (s : State) : Host.Outcome State Fault Refusal :=
  accept (.tset x t n) (s.issueOn x .seq false fun env c => c.change env .seq (c.kvi .seq x.word) t n .set)

/-- A timeout field: 0xFFFF_FFFF means none (06 R186). -/
def tmoOf (t : Nat) : Option Nat := if t = 0xFFFFFFFF then none else some t

/-- The timeout that bounds a wait: 0 in a scheduled block of a deterministic run (02 R50). -/
def Core.tmo (c : Core) (t : Option Nat) : Option Nat := if c.rn.mode = 1 && c.rn.det then some 0 else t

/-- A wait whose condition does not hold: with a timeout of 0 it times out at once (02 R50); otherwise a hold, or a wait in
service mode, begins (02 R48, 10 R291). -/
def Core.orWait (c : Core) (e : Engine) (w : Await) (kvi s0 n : Nat) (t : Option Nat) : Core :=
  match c.tmo t with
  | some 0 => c.waitTimeout e kvi s0 n 0
  | t => c.beginWait e w (waitRecord w) t kvi

/-- TWAIT (02 R47 to R50, 10 R286, R291). -/
def execTwait (x : Issue) (e : Engine) (t : TallyOp) (n : W32) (tmo : W32) (s : State) :
    Host.Outcome State Fault Refusal :=
  accept (.twait x e t n tmo) (s.issueOn x e false fun _ c =>
    let v := c.seenTally t.form (tallyIdx t)
    if n.toNat ≤ v.toNat then c
    else c.orWait e (.tally t.form (tallyIdx t) n) (c.kvi e x.word)
      (tallySpec0 t.form (tallyIdx t) false 0 v.toNat) n.toNat (tmoOf tmo.toNat))

/-- Whether a slot's transfer has requests still to issue. -/
def Slot.unissued (x : Slot) : Bool := x.state = 2 && x.pos < dBytes x.desc

/-- The slots of a stream engine. -/
def Core.slotsOf (c : Core) (e : Dma) : List Slot := (upFrom 0 16).map (c.slot e)

/-- Whether a transfer's remote side is on the fabric: its source for DMA0, its destination for DMA1. -/
def Slot.toFabric (env : Env) (x : Slot) (out : Bool) : Bool :=
  match remotePlace env (if out then dDst x.desc else dSrc x.desc) with
  | .fabric _ => true
  | _ => false

def Txn.toFabric (env : Env) (t : Txn) : Bool :=
  match remotePlace env t.addr with
  | .fabric _ => true
  | _ => false

/-- The release condition (10 R300): scope 0 ENG, 1 CORE, 2 DEV, 3 FAB. The conditions of SEQ, MXE and VXE, fixed by stamps,
hold in every loaded program (06 R187), and in service mode each operation waits for those before it (02 R35). -/
def Core.released (c : Core) (env : Env) (e : Engine) (scope : Nat) : Bool :=
  match e with
  | .dma0 =>
    !((c.slotsOf .inbound).any Slot.unissued) && !(c.dm.txns.any fun t => !t.out && !t.datom && t.unpl ≠ 0)
      && (scope < 2 || (!((c.slotsOf .inbound).any fun x => x.state = 2)
        && !(c.dm.txns.any fun t => !t.out && !t.datom)))
  | .dma1 =>
    !((c.slotsOf .outbound).any Slot.unissued)
      && !(c.dm.txns.any fun t => t.out && !t.datom && t.buf.length < t.lineList.length)
      && (scope < 2
        || (!((c.slotsOf .outbound).any fun x => x.state = 2 && (scope = 3 || !x.toFabric env true))
          && !(c.dm.txns.any fun t => (t.out || t.datom) && (scope = 3 || !t.toFabric env))))
  | .mse =>
    scope < 2 || !(c.ms.outs.any fun o => 2 ≤ o.op && (scope = 3 || (tget SCtx.closed c.ms.ctx o.ctx).handle / 2 ^ 20 = env.dev))
  | _ => true

/-- The acquire condition (10 R301): every earlier read, DATOM and TWAIT of the engine has delivered its value. -/
def Core.acquired (c : Core) (e : Engine) : Bool :=
  match e with
  | .dma0 =>
    !((c.slotsOf .inbound).any Slot.unissued) && !(c.dm.txns.any fun t => !t.out && !t.datom && t.own ≠ 0)
  | .dma1 =>
    !((c.slotsOf .outbound).any Slot.unissued) && !(c.dm.txns.any fun t => t.datom)
      && !(c.dm.txns.any fun t => t.out && !t.datom && t.buf.length < t.lineList.length)
  | _ => true

/-- Whether a FENCE of a kind (0 release, 1 acquire, 2 full) and scope lets its engine go on. -/
def Core.fenceOk (c : Core) (env : Env) (e : Engine) (kind scope : Nat) : Bool :=
  (kind = 1 || c.released env e scope) && (kind = 0 || c.acquired e)

/-- Codes of FENCE kinds and scopes (06 R185, R186). -/
def fenceCode : FenceKind → Nat
  | .release => 0 | .acquire => 1 | .full => 2
def scopeCode : Scope → Nat
  | .eng => 0 | .core => 1 | .dev => 2 | .fab => 3

/-- FENCE (06 R187, 10 R300, R301). A scheduled block holds no FENCE of scope DEV or FAB. -/
def execFence (x : Issue) (e : Engine) (k : FenceKind) (sc : Scope) (s : State) : Host.Outcome State Fault Refusal :=
  accept (.fence x e k sc) (s.issueOn x e false fun env c =>
    if c.rn.mode = 1 && 2 ≤ scopeCode sc then c
    else if c.fenceOk env e (fenceCode k) (scopeCode sc) then c
    else c.orWait e (.fence (fenceCode k) (scopeCode sc)) (c.kvi e x.word) 0 0 none)

end Sys2Proof.Machine
end

