-- ==== Sys2Proof/Machine/Mse.lean ====
section
/-!
DEFINITION. The message engine: sender contexts, QOPEN, QCLOSE, QSEND, QCSEND, and the answers that reach a core (11 R313 to
R326, R335, R343; 06 R200, 07 R209).
-/

namespace Sys2Proof.Machine

open Sys2Proof

/-! ### Records (11 R318, R319) -/

/-- Bytes of a record of `n` words. -/
def recBytes (n : Nat) : Nat := 16 * ceilDiv (8 + 8 * n) 16

/-- A record header (R319). -/
def recHdr (type : Nat) (phase poison : Bool) (nw sdev score : Nat) (sat partl : Bool) (seq : Nat) : W64 :=
  BitVec.ofNat 64 (fld type 0 2 + fld (b2n phase) 2 1 + fld (b2n poison) 3 1 + fld nw 4 4 + fld sdev 8 12
    + fld score 20 8 + fld (b2n sat) 28 1 + fld (b2n partl) 29 1 + fld seq 32 32)

/-- The bytes of a record: its header, its words, and zeros to its size. -/
def recData (hdr : W64) (words : List W64) : List Byte :=
  let d := leBytes hdr.toNat 8 ++ words.flatMap fun w => leBytes w.toNat 8
  d ++ List.replicate (recBytes words.length - d.length) 0

/-! ### Contexts -/

def Core.sctx (c : Core) (q : Nat) : SCtx := tget SCtx.closed c.ms.ctx q
def Core.setSctx (c : Core) (q : Nat) (x : SCtx) : Core :=
  { c with ms := { c.ms with ctx := tput SCtx.closed c.ms.ctx q x } }

def Core.setOuts (c : Core) (l : List SendOut) : Core := { c with ms := { c.ms with outs := l } }

/-- SPEC0 of QUEUE (R347). -/
def queueSpec0 (cause op ctx member seq : Nat) : Nat :=
  fld cause 0 8 + fld op 8 3 + fld ctx 11 12 + fld member 23 6 + fld seq 32 32

/-- QUEUE: it stops the core, and its run ends with the cause as its status (R326). -/
def Core.queueFault (c : Core) (rctx kvi : Nat) (st : Status) (op ctx member seq handle : Nat) : Core :=
  { c with ms := { c.ms with qfCnt := satAdd c.ms.qfCnt 1 } }.raiseIn rctx 0x0A true 5 kvi
    (queueSpec0 st.code op ctx member seq) handle st

/-- Elastic sends and opens unanswered (R325). -/
def Core.elasticSends (c : Core) : Nat := (c.ms.outs.filter fun o => o.el).length

/-- The wait-for record of the MSE (10 R308): of its wait, or, where it waits for nothing else, of an open or a close that awaits its
answer (R343). -/
def Core.noteMse (c : Core) : Core :=
  let v := match c.waitOf .mse with
    | some w => waitRecord w.what
    | none =>
      match c.ms.outs.find? (fun o => o.op < 2) with
      | some o => fld 3 0 2 + fld ((c.sctx o.ctx).handle % 2 ^ 20) 12 20
      | none => 0
  { c with tl := { c.tl with wait := tput 0 c.tl.wait 5 (BitVec.ofNat 64 v) } }

/-! ### What leaves a core -/

/-- The packet type of an operation of R347's code (13 R382). -/
def queueType (op : Nat) : Nat := if op = 0 then 0x08 else if op = 1 then 0x0B else if op = 2 then 0x09 else 0x0A

/-- The fabric address of a queue operation: the QID, the context and the member (notes/assumptions/21.md). -/
def queueAddr (handle ctx member : Nat) : Nat :=
  2 ^ 63 + fld (handle / 2 ^ 20) 48 12 + fld member 40 7 + fld ctx 20 20 + handle % 2 ^ 20

/-- The payload of a queue packet. -/
def queueData (ctx cls dev core : Nat) : QOp → List Byte
  | .opn _ => leBytes ctx 3 ++ leBytes cls 1
  | .close => leBytes ctx 4
  | .send seq words p => recData (recHdr 1 false p words.length dev core false false seq) words
  | .csend key exact x _ => leBytes key.toNat 4 ++ leBytes (b2n exact) 4 ++ leBytes x.toNat 16
  | .total seq sat partl words p => recData (recHdr 2 false p words.length dev 0xFF sat partl seq) words

def QOp.code : QOp → Nat
  | .opn _ => 0
  | .close => 1
  | .send .. => 2
  | .csend .. => 3
  | .total .. => 2

def QOp.poisoned : QOp → Bool
  | .send _ _ p => p
  | .csend _ _ _ p => p
  | .total _ _ _ _ p => p
  | _ => false

/-- A queue operation on its way to the placer of `handle`, on this device or on another. -/
def toQueue (env : Env) (handle ctx member cls : Nat) (op : QOp) (r : Reply) : Msg :=
  if handle / 2 ^ 20 = env.dev then .queue ⟨handle, env.dev, env.core, ctx, member, cls, op, r, env.tbt.toNat⟩
  else
    let d := queueData ctx cls env.dev env.core op
    .fabric (fabHeader env (queueAddr handle ctx member) (queueType op.code) 1 d.length 0 false 0 op.poisoned) d false r

/-- One operation to each connection of a context, answers coming back to the core. -/
def toMembers (env : Env) (ctx cls seq : Nat) (op : QOp) (l : List SMember) : List Msg :=
  l.map fun m => toQueue env m.handle ctx m.idx cls op (.queue env.core ctx m.idx op.code seq)

/-- An operation leaves the engine: its credit is spent, its messages go (R322). -/
def Core.launch (c : Core) (w : QWait) : Core :=
  let x := c.sctx w.out.ctx
  let c := c.setSctx w.out.ctx { x with
    members := x.members.map fun (m : SMember) => { m with credit := m.credit - w.size } }
  ((w.msgs.foldl Core.send (c.setOuts (c.ms.outs ++ [w.out])))).noteMse

/-- Whether the engine may send: credit of every member (R322, R335), and the limit of R325. -/
def Core.queueOk (c : Core) (ctx size : Nat) : Bool :=
  let x := c.sctx ctx
  if x.cls % 2 = 1 then c.elasticSends < 256
  else size = 0 || x.members.all fun m => size ≤ m.credit

/-- An operation completes: its tally (R285). -/
def Core.finishOut (c : Core) (o : SendOut) : Core := if o.raise then c.complete .mse o.tally 1 else c

/-- Sends now, or waits (R323, R325). A send to a multicast queue that has no member is complete at once. -/
def Core.sendOrWait (c : Core) (w : QWait) : Core :=
  if w.msgs.isEmpty then { c with ms := { c.ms with sent := c.ms.sent + 1 } }.finishOut w.out
  else if c.queueOk w.out.ctx w.size then c.launch w
  else
    let c := { c with ms := { c.ms with wait := some w } }
    let c := c.orWait .mse (.queue ((c.sctx w.out.ctx).handle % 2 ^ 20) w.size) w.out.kvi 0 0 none
    if c.rn.stop = .no then c else { c with ms := { c.ms with wait := none } }

/-! ### Closing (R316) -/

/-- A close request leaves once every send of the context has been answered. -/
def Core.tryClose (c : Core) (env : Env) (q : Nat) : Core :=
  let x := c.sctx q
  if x.state ≠ 3 || c.ms.outs.any (fun o => o.ctx = q && (o.op ≠ 1 || o.left ≠ 0)) then c
  else
    let own : SMember := ⟨64, x.handle, 0⟩
    let l := if x.mcast then own :: x.members else [own]
    let c := c.setOuts (c.ms.outs.map fun (o : SendOut) =>
      if o.ctx = q && o.op = 1 then { o with left := l.length } else o)
    (toMembers env q x.cls 0 .close l).foldl Core.send c

/-- The context is CLOSED: its closes complete. -/
def Core.closed (c : Core) (q : Nat) : Core :=
  let done := c.ms.outs.filter fun o => o.ctx = q && o.op = 1
  let c := c.setOuts (c.ms.outs.filter fun o => !(o.ctx = q && o.op = 1))
  let c := c.setSctx q SCtx.closed
  (done.foldl (fun (c : Core) o => if o.raise then c.complete .mse o.tally 1 else c) c).noteMse

/-! ### The operations -/

/-- QOPEN (R314, R315). -/
def execQopen (x : Issue) (ctx : BitVec 12) (cls : BitVec 2) (r : Raise) (device : BitVec 12) (qid : BitVec 20)
    (s : State) : Host.Outcome State Fault Refusal :=
  accept (.qopen x ctx cls r device qid) (s.issueOn x .mse false fun env c =>
    let kvi := c.kvi .mse x.word
    let handle := device.toNat * 2 ^ 20 + qid.toNat
    let q := ctx.toNat
    if (c.sctx q).state ≠ 0 then c.queueFault c.rn.ctx kvi .estate 0 q 0 0 handle
    else
      let c := c.setSctx q ⟨1, cls.toNat, handle, 0, false, [⟨64, handle, 0⟩]⟩
      let o : SendOut := ⟨q, 0, 0, r.ten, r.tally.toNat, 1, c.rn.ctx, kvi, cls.toNat % 2 = 1, false⟩
      c.sendOrWait ⟨o, 0, toMembers env q cls.toNat 0 (.opn cls.toNat) [⟨64, handle, 0⟩]⟩)

/-- QCLOSE (R316): it always completes; on a CLOSED context at once (notes/assumptions/22.md). -/
def execQclose (x : Issue) (ctx : BitVec 12) (r : Raise) (s : State) : Host.Outcome State Fault Refusal :=
  accept (.qclose x ctx r) (s.issueOn x .mse false fun env c =>
    let q := ctx.toNat
    let sc := c.sctx q
    if sc.state = 0 then if r.ten then c.complete .mse r.tally.toNat 1 else c
    else
      let o : SendOut := ⟨q, 0, 1, r.ten, r.tally.toNat, 0, c.rn.ctx, c.kvi .mse x.word, false, false⟩
      let c := (c.setOuts (c.ms.outs ++ [o])).setSctx q { sc with state := 3 }
      (if sc.state = 3 then c else c.tryClose env q).noteMse)

/-- Reads `n` consecutive S registers from `r`. -/
def Core.readSs (c : Core) (env : Env) (e : Engine) (kvi : Nat) : Nat → Nat → Core × List SVal
  | _, 0 => (c, [])
  | r, n + 1 =>
    let (c, v) := c.readS env e kvi r
    let (c, vs) := c.readSs env e kvi (r + 1) n
    (c, v :: vs)

/-- The next sequence number of a context. -/
def Core.bumpSeq (c : Core) (q : Nat) : Core :=
  let x := c.sctx q
  c.setSctx q { x with seq := x.seq + 1 }

/-- What is wrong with a send on a context: it is not OPEN, its class is not that of the queue's kind, or MC does not match
(R316, R326, 07 R209). -/
def sendCause (x : SCtx) (comb mc : Bool) : Option Status :=
  if x.state ≠ 2 then some .estate
  else if (2 ≤ x.cls) != comb then some .eparam
  else if x.mcast != mc then some .eparam
  else none

/-- QSEND (R318, R322 to R325, R335): the words are copied with their mark (00 R18). -/
def execQsend (x : Issue) (ctx : BitVec 12) (r : Raise) (nwm1 : BitVec 3) (sbase : BitVec 6) (mc : Bool) (s : State) :
    Host.Outcome State Fault Refusal :=
  accept (.qsend x ctx r nwm1 sbase mc) (s.issueOn x .mse false fun env c =>
    let kvi := c.kvi .mse x.word
    let q := ctx.toNat
    let (c, ws) := c.readSs env .mse kvi sbase.toNat (nwm1.toNat + 1)
    let sc := c.sctx q
    match sendCause sc false mc with
    | some st => c.queueFault c.rn.ctx kvi st 2 q 0 sc.seq.toNat sc.handle
    | none =>
      let seq := sc.seq.toNat
      let op : QOp := .send seq (ws.map (·.v)) (ws.any (·.p))
      let o : SendOut := ⟨q, seq, 2, r.ten, r.tally.toNat, sc.members.length, c.rn.ctx, kvi, sc.cls = 1, false⟩
      (c.bumpSeq q).sendOrWait
        ⟨o, if sc.cls = 0 then recBytes ws.length else 0, toMembers env q sc.cls seq op sc.members⟩)

/-- QCSEND (R336, R337, 07 R209). A poisoned value or key is used: POISON_USE (16 R482). -/
def execQcsend (x : Issue) (ctx : BitVec 12) (r : Raise) (vk : BitVec 2) (sv sk : BitVec 6) (s : State) :
    Host.Outcome State Fault Refusal :=
  accept (.qcsend x ctx r vk sv sk) (s.issueOn x .mse false fun env c =>
    let kvi := c.kvi .mse x.word
    let q := ctx.toNat
    let exact := vk = 1
    let (c, vs) := c.readSs env .mse kvi sv.toNat (if exact then 2 else 1)
    let (c, k) := c.readS env .mse kvi sk.toNat
    let v0 := vs.getD 0 ⟨0, false⟩
    let v1 := vs.getD 1 ⟨0, false⟩
    let sc := c.sctx q
    match sendCause sc true false with
    | some st => c.queueFault c.rn.ctx kvi st 3 q 0 sc.seq.toNat sc.handle
    | none =>
      let c := if v0.p || v1.p then c.usePoison .mse kvi 3 [(0, sv.toNat, v0.p), (0, sv.toNat + 1, v1.p)]
        else c.usePoison .mse kvi 1 [(0, sk.toNat, k.p)]
      let val : W128 := if exact then v1.v ++ v0.v else v0.v.signExtend 128
      let seq := sc.seq.toNat
      let op : QOp := .csend (k.v.truncate 32) exact val (v0.p || v1.p || k.p)
      let o : SendOut := ⟨q, seq, 3, r.ten, r.tally.toNat, sc.members.length, c.rn.ctx, kvi, sc.cls = 3, false⟩
      (c.bumpSeq q).sendOrWait ⟨o, 0, toMembers env q sc.cls seq op sc.members⟩)

/-! ### Answers (R315, R322, R326, R335) -/

/-- The operation that an answer belongs to. -/
def isFor (a : QAns) (o : SendOut) : Bool := o.ctx = a.ctx && o.op = a.op && (o.op < 2 || o.seq = a.seq)

/-- The context is OPEN, or goes on closing. -/
def Core.opened (c : Core) (env : Env) (o : SendOut) : Core :=
  let x := c.sctx o.ctx
  let c := c.setSctx o.ctx { x with state := if x.state = 1 then 2 else x.state }
  let c := c.setOuts (c.ms.outs.filter fun y => !(y.ctx = o.ctx && y.op = 0))
  ((if o.raise then c.complete .mse o.tally 1 else c).tryClose env o.ctx).noteMse

/-- The answer to an open. -/
def Core.openAnswer (c : Core) (env : Env) (o : SendOut) (a : QAns) : Core :=
  let x := c.sctx a.ctx
  let c := c.setOuts (c.ms.outs.map fun (y : SendOut) => if isFor a y then { y with left := y.left - 1 } else y)
  if a.status ≠ .ok then
    let c := c.setOuts (c.ms.outs.filter fun y => !isFor a y)
    let own : SMember := ⟨64, x.handle, 0⟩
    let l := if x.mcast then own :: x.members else []
    let c := (l.map fun m => toQueue env m.handle a.ctx m.idx x.cls .close .none).foldl Core.send c
    (c.closed a.ctx).queueFault o.rctx o.kvi a.status 0 a.ctx a.member 0 x.handle
  else
    match a.mcast with
    | some l =>
      let ms : List SMember := l.map fun m => ⟨m.1, m.2, 0⟩
      let c := c.setSctx a.ctx { x with mcast := true, members := ms }
      if ms.isEmpty then c.opened env o
      else
        let c := c.setOuts (c.ms.outs.map fun (y : SendOut) => if isFor a y then { y with left := ms.length } else y)
        (toMembers env a.ctx x.cls 0 (.opn x.cls) ms).foldl Core.send c
    | none =>
      let c := c.setSctx a.ctx { x with
        members := x.members.map fun (m : SMember) => if m.idx = a.member then { m with credit := a.credit } else m }
      if o.left ≤ 1 then c.opened env o else c

/-- The answer to a send: each member's refusal raises QUEUE; the send has been accepted when every member has accepted (R326, R335). -/
def Core.sendAnswer (c : Core) (env : Env) (o : SendOut) (a : QAns) : Core :=
  let bad := o.bad || a.status ≠ .ok
  let c := if 1 < o.left then
      c.setOuts (c.ms.outs.map fun (y : SendOut) => if isFor a y then { y with left := y.left - 1, bad := bad } else y)
    else
      let c := c.setOuts (c.ms.outs.filter fun y => !isFor a y)
      if bad then c else { c with ms := { c.ms with sent := c.ms.sent + 1 } }.finishOut o
  let c := if a.status ≠ .ok then
      c.queueFault o.rctx o.kvi a.status o.op a.ctx a.member a.seq (c.sctx a.ctx).handle
    else c
  c.tryClose env a.ctx

/-- Credit comes back (R322). -/
def Core.creditBack (c : Core) (a : QAns) : Core :=
  let x := c.sctx a.ctx
  if x.state = 0 then c
  else
    c.setSctx a.ctx { x with
      members := x.members.map fun (m : SMember) => if m.idx = a.member then { m with credit := m.credit + a.credit } else m }

/-- An answer reaches the core. -/
def Core.queueAnswered (c : Core) (env : Env) (a : QAns) : Core :=
  if a.op = 5 then c.creditBack a
  else
    match c.ms.outs.find? (isFor a) with
    | none => c
    | some o =>
      if o.op = 0 then c.openAnswer env o a
      else if o.op = 1 then
        if o.left ≤ 1 then c.closed a.ctx
        else c.setOuts (c.ms.outs.map fun (y : SendOut) => if isFor a y then { y with left := y.left - 1 } else y)
      else c.sendAnswer env o a

/-- QUEUE_ANSWER (R326): the answer `req` reaches its core. -/
def execQueueAnswer (c delta req : Nat) (s : State) : Host.Outcome State Fault Refusal :=
  accept (.queueAnswer c delta req) (
    match s.msg req with
    | some (.qans a) =>
      if a.core ≠ c || s.gated then s
      else (s.take req).onCore c fun env k => (k.comeTo env delta).queueAnswered env a
    | _ => s)

end Sys2Proof.Machine
end

