-- ==== Sys2Proof/Machine/Queues.lean ====
section
/-!
DEFINITION. The placers of queues: opens, sends, closes, rings and their records, queue groups, and the combining entries of
the hubs (11).
-/

namespace Sys2Proof.Machine

open Sys2Proof

/-! ### Requests and connections -/

/-- Whether two requests belong to one connection. -/
def sameConn (a b : QReq) : Bool :=
  a.handle = b.handle && a.dev = b.dev && a.core = b.core && a.ctx = b.ctx && a.member = b.member

/-- Whether no older request of the same connection waits: a placer takes them in the order of their sends (R317). -/
def State.oldest (s : State) (id : Nat) (q : QReq) : Bool :=
  !(s.plane.any fun x => x.1 < id && match x.2 with
    | some (.queue y) => sameConn q y
    | _ => false)

/-- The queue request of an identity, if it is its connection's oldest and its turn has come. -/
def State.queueReq (s : State) (id : Nat) : Option QReq :=
  match s.msg id with
  | some (.queue q) => if s.oldest id q && s.inTurn id (.queue q) then some q else none
  | _ => none

def QReq.qid (q : QReq) : Nat := q.handle % 2 ^ 20

/-- The placer of a queue: the reader core's message engine, the dispatcher on H0 (128), or the home hub (R313). -/
def Queue.placer (q : Queue) : Nat := if q.kind = 1 then 129 + q.home else if q.group || q.kind = 2 then 128 else q.reader

/-- The place of a sender in the order of R317: device, core, context. -/
def QReq.rank (q : QReq) : Nat := (q.dev * 256 + q.core) * 2 ^ 20 + q.ctx

/-- Whether a request carries a record. -/
def QOp.isRecord : QOp → Bool
  | .send .. => true
  | .total .. => true
  | _ => false

/-- Whether no other record that reached the placer in the same cycle comes first (R317). -/
def State.firstOfCycle (s : State) (r : QReq) : Bool :=
  !(s.plane.any fun x => match x.2 with
    | some (.queue y) => y.op.isRecord && y.at0 / 2 = r.at0 / 2 && y.rank < r.rank
        && (s.queue y.qid).placer = (s.queue r.qid).placer
    | _ => false)

def Conn.isOf (c : Conn) (q : QReq) : Bool := c.dev = q.dev && c.core = q.core && c.ctx = q.ctx && c.member = q.member

def Queue.conn (q : Queue) (r : QReq) : Option Conn := q.conns.find? fun c => c.isOf r

/-- A refusal at the placer. -/
def State.refuse (s : State) (qid : Nat) (r : Reply) (st : Status) : State :=
  let q := s.queue qid
  (s.setQueue qid { q with refused := satAdd q.refused 1 }).answer r st 0 0 0 [] false

/-- The port by which a request came from another device. -/
def QReq.port (q : QReq) : Option Nat :=
  match q.reply with
  | .fabric p .. => some p
  | _ => none

/-- Whether a request is for a queue that is read on the C-die: PLAIN queues, of a core or of a group. -/
def State.forDie (s : State) (r : QReq) : Bool := s.fenced && (s.queue r.qid).kind = 0

/-! ### Opens and closes (R313 to R316) -/

/-- The DPA range of a queue's ring. -/
def Queue.ring (q : Queue) : Nat × Nat :=
  let lo := if q.hbm then q.rbase else scrDpa q.reader q.rbase
  (lo, lo + 2 ^ q.rlog - 1)

/-- Bytes of a ring that its scheduled connections reserve (R314). -/
def Queue.reserved (q : Queue) : Nat := ((q.conns.filter fun c => c.cls = 0).length) * (q.scred + 64)

/-- The class of a connection: a hub's is scheduled when the queue has SCRED (R338). -/
def openClass (q : Queue) (r : QReq) (cls : Nat) : Nat := if r.core = 0xFF then if q.scred ≠ 0 then 0 else 1 else cls

/-- Whether the reader core's engine has a reader context for the queue, or one to spare: the placer of a PLAIN queue of a
CORE reader is its reader core's (R313). -/
def State.readerFree (s : State) (q : Queue) (qid : Nat) : Bool :=
  let l := (s.core q.reader).ms.readers
  q.group || q.kind ≠ 0 || l.contains qid || l.length < 1024

/-- The first check of R314 that an open fails, but for the members'; a queue of a job that is not ARMED yet admits no QOPEN (15 R469;
a hub's open is none, notes/assumptions/63.md). -/
def State.openCause (s : State) (q : Queue) (r : QReq) (cls : Nat) : Option Status :=
  let far := r.dev ≠ s.fab.devId
  let granted := match r.port with
    | some p => q.kind ≠ 0 || (s.port p).admits r.dev q.ring.1 q.ring.2 .queue false
    | none => true
  if q.state ≠ 1 || ((s.job q.job).state = jLOADED && r.core ≠ 0xFF) then some .epeerGone
  else if far && !(q.fab && granted) then some .eaperture
  else if (cls < 2) != (q.kind ≠ 1) then some .eparam
  else if q.maxconn ≤ q.conns.length || !s.readerFree q r.qid then some .erefused
  else if cls = 0 && (q.scred = 0 || 2 ^ q.rlog / 2 < q.reserved + q.scred + 64) then some .erefused
  else none

/-- The answer of the first member of this device that would refuse its open, of a MCAST queue (R314). Members of other devices
answer the sender's own opens (notes/assumptions/21.md). -/
def State.memberCause (s : State) (q : Queue) (r : QReq) (cls : Nat) : Option Status :=
  if q.kind ≠ 2 then none
  else (q.members.filter fun m => m.2 / 2 ^ 20 = s.fab.devId).findSome? fun m =>
    s.openCause (s.queue (m.2 % 2 ^ 20)) { r with handle := m.2, member := m.1 } cls

/-- The data of an accepted open: the credit, or the members of a multicast queue (notes/assumptions/21.md). -/
def openData (q : Queue) (cls : Nat) : List Byte :=
  if q.kind = 2 then
    (upFrom 0 64).flatMap fun m => leBytes ((q.members.find? fun x => x.1 = m).elim 0xFFFFFFFF (·.2)) 4
  else leBytes (if cls = 0 then q.scred else 0) 4

/-- PLACER_OPEN_REQUEST (R314). -/
def execPlacerOpenRequest (req : Nat) (s : State) : Host.Outcome State Fault Refusal :=
  accept (.placerOpenRequest req) (
    match s.queueReq req with
    | some r =>
      match r.op with
      | .opn cls =>
        let s := s.take req
        let qid := r.qid
        let q := s.queue qid
        let cls := openClass q r cls
        if s.forDie r then s.fenceAnswer (.queue r)
        else match (s.openCause q r cls).orElse fun _ => s.memberCause q r cls with
        | some st => s.refuse qid r.reply st
        | none =>
          let s := s.setQueue qid { q with conns := q.conns ++ [⟨r.dev, r.core, r.ctx, r.member, cls⟩] }
          let s := if q.group || q.kind ≠ 0 || (s.core q.reader).ms.readers.contains qid then s
            else s.modCore q.reader fun (c : Core) => { c with ms := { c.ms with readers := c.ms.readers ++ [qid] } }
          s.answer r.reply .ok 0 0 0 (openData q cls) false
      | _ => s
    | none => s)

/-- PLACER_CLOSE (R316): it completes on a queue that is GONE too. -/
def execPlacerClose (req : Nat) (s : State) : Host.Outcome State Fault Refusal :=
  accept (.placerClose req) (
    match s.queueReq req with
    | some r =>
      match r.op with
      | .close =>
        let s := s.take req
        if s.forDie r then s.fenceAnswer (.queue r)
        else
        let q := s.queue r.qid
        let q := { q with
          conns := q.conns.filter fun c => !c.isOf r
          recs := q.recs.map fun (x : PRec) => match x.conn with
            | some c => if c.isOf r then { x with conn := none } else x
            | none => x }
        (s.setQueue r.qid q).answer r.reply .ok 0 0 0 (leBytes 0 4) false
      | _ => s
    | none => s)

/-! ### Rings (R318 to R324) -/

/-- Bytes of the wrap pad that a record of `n` bytes needs at count `tail` of a ring of 2^`log` bytes (R320). -/
def padBytes (tail log n : Nat) : Nat :=
  if tail % 2 ^ log + n ≤ 2 ^ log then 0 else 2 ^ log - tail % 2 ^ log

/-- PHASE at count `tail` (R319). -/
def phaseAt (tail log : Nat) : Bool := !bitAt tail log

/-- What a connection's unreleased records take of its credit (R322). -/
def Queue.spent (q : Queue) (c : Conn) : Nat :=
  ((q.recs.filter fun x => !x.spill && !x.pad && !x.done && x.conn = some c).map (·.size)).foldl (· + ·) 0

/-- What a connection's unreleased records take of its reservation, pads included. -/
def Queue.held (q : Queue) (c : Conn) : Nat :=
  ((q.recs.filter fun x => !x.spill && (x.pad || !x.done) && x.conn = some c).map (·.size)).foldl (· + ·) 0

/-- Bytes that scheduled connections may still place: no other record takes them (R322). -/
def Queue.unused (q : Queue) : Nat :=
  ((q.conns.filter fun c => c.cls = 0).map fun c => q.scred + 64 - q.held c).foldl (· + ·) 0

/-- A record to be placed: its type, words, poison, sender, sequence, SAT and PARTIAL. -/
structure NewRec where
  type   : Nat
  words  : List W64
  poison : Bool
  dev    : Nat
  core   : Nat
  seq    : Nat
  sat    : Bool
  partl  : Bool
  deriving DecidableEq, Repr

def NewRec.size (r : NewRec) : Nat := recBytes r.words.length
def NewRec.hdr (r : NewRec) (phase : Bool) : W64 :=
  recHdr r.type phase r.poison r.words.length r.dev r.core r.sat r.partl r.seq

/-- Bytes go to a ring: to the landing unit of the reader core as one packet, or to HBM (R318). -/
def State.ringWrite (s : State) (qid : Nat) (hbm : Bool) (reader base off : Nat) (d : List Byte) (poison : Bool)
    (src : Source) (r : Reply) : State :=
  if hbm then ({ s with hbm := s.hbm.put (base + off) d poison }).answer r .ok 0 0 0 [] false
  else s.put (.line reader ⟨base + off, d, poison, false, src, .record qid, r, none, none⟩)

/-- The placer places a record in the main ring, after a pad where it needs one (R320). -/
def State.placeMain (s : State) (qid : Nat) (n : NewRec) (conn : Option Conn) (r : Reply) : State :=
  let q := s.queue qid
  let src : Source := ⟨n.dev, n.core, n.dev ≠ s.fab.devId⟩
  let pad := padBytes q.tail q.rlog n.size
  let o0 := q.tail % 2 ^ q.rlog
  let t := q.tail + pad
  let o := t % 2 ^ q.rlog
  let padRec : PRec := ⟨s.recNo, q.rbase + o0, pad, 0, [], false, none, conn, true, true, true⟩
  let hdr := n.hdr (phaseAt t q.rlog)
  let recd : PRec := ⟨s.recNo + 1, q.rbase + o, n.size, hdr, n.words, false, if q.group then none else some q.reader,
    conn, false, q.hbm, false⟩
  let q' := { q with tail := t + n.size, recs := q.recs ++ (if pad = 0 then [recd] else [padRec, recd]) }
  let s' := { s.setQueue qid q' with recNo := s.recNo + 2 }
  let s' := if pad = 0 then s'
    else s'.ringWrite qid q.hbm q.reader q.rbase o0
      (leBytes (recHdr 0 (phaseAt q.tail q.rlog) false 0 0 0 false false 0).toNat 8 ++ leBytes 0 8) false src .none
  s'.ringWrite qid q.hbm q.reader q.rbase o (recData hdr n.words) n.poison src r

/-- The placer places a record in the spill ring (R324). -/
def State.placeSpill (s : State) (qid : Nat) (n : NewRec) (r : Reply) : State :=
  let q := s.queue qid
  let pad := padBytes q.stail q.slog n.size
  let o0 := q.stail % 2 ^ q.slog
  let t := q.stail + pad
  let o := t % 2 ^ q.slog
  let padRec : PRec := ⟨s.recNo, q.sbase + o0, pad, 0, [], true, none, none, true, true, true⟩
  let hdr := n.hdr (phaseAt t q.slog)
  let recd : PRec := ⟨s.recNo + 1, q.sbase + o, n.size, hdr, n.words, true, if q.group then none else some q.reader,
    none, false, true, false⟩
  let q' := { q with stail := t + n.size, recs := q.recs ++ (if pad = 0 then [recd] else [padRec, recd]) }
  let h := if pad = 0 then s.hbm
    else s.hbm.put (q.sbase + o0)
      (leBytes (recHdr 0 (phaseAt q.stail q.slog) false 0 0 0 false false 0).toNat 8 ++ leBytes 0 8) false
  let h := h.put (q.sbase + o) (recData hdr n.words) n.poison
  ({ s.setQueue qid q' with recNo := s.recNo + 2, hbm := h }).answer r .ok 0 0 0 [] false

/-- An elastic record (R324). -/
def State.placeElastic (s : State) (qid : Nat) (n : NewRec) (conn : Conn) (r : Reply) : State :=
  let q := s.queue qid
  let need := n.size + padBytes q.tail q.rlog n.size
  let needS := n.size + padBytes q.stail q.slog n.size
  let room := need + q.unused ≤ 2 ^ q.rlog - (q.tail - q.head)
  let dropped := (s.setQueue qid { q with drops := satAdd q.drops 1 }).answer r .ok 0 0 0 [] false
  if room && q.shead = q.stail then s.placeMain qid n (some conn) r
  else if q.policy = 0 then s.refuse qid r .erefused
  else if q.policy = 1 then dropped
  else if needS ≤ 2 ^ q.slog - (q.stail - q.shead) then s.placeSpill qid n r
  else dropped

/-- What a request sends, as a record. -/
def QReq.record (r : QReq) : Option NewRec :=
  match r.op with
  | .send seq ws p => some ⟨1, ws, p, r.dev, r.core, seq, false, false⟩
  | .total seq sat partl ws p => some ⟨2, ws, p, r.dev, r.core, seq, sat, partl⟩
  | _ => none

/-- PLACER_SEND (R317 to R324). A scheduled send for which the ring has no room yet waits at the placer. -/
def execPlacerSend (req : Nat) (s : State) : Host.Outcome State Fault Refusal :=
  accept (.placerSend req) (
    match s.queueReq req with
    | some r =>
      match r.record with
      | none => s
      | some n =>
        let q := s.queue r.qid
        if s.forDie r then (s.take req).fenceAnswer (.queue r)
        else if !s.firstOfCycle r then s
        else match q.conn r with
        | none => (s.take req).refuse r.qid r.reply .epeerGone
        | some c =>
          if q.state ≠ 1 then (s.take req).refuse r.qid r.reply .epeerGone
          else if q.kind ≠ 0 then (s.take req).refuse r.qid r.reply .eparam
          else if c.cls ≠ 0 then (s.take req).placeElastic r.qid n c r.reply
          else if q.scred < q.spent c + n.size
              || 2 ^ q.rlog - (q.tail - q.head) < n.size + padBytes q.tail q.rlog n.size then s
          else (s.take req).placeMain r.qid n (some c) r.reply
    | none => s)

/-! ### Release (R329, R334) -/

/-- Released records leave the front of a ring: HEAD passes them. -/
def popDone (spill : Bool) : List PRec → Nat × List PRec
  | [] => (0, [])
  | x :: t =>
    if x.spill != spill then ((popDone spill t).1, x :: (popDone spill t).2)
    else if x.done then ((popDone spill t).1 + x.size, (popDone spill t).2)
    else (0, x :: t)

/-- Credit goes back to a sender (R322). -/
def State.returnCredit (s : State) (c : Conn) (n : Nat) : State :=
  if c.core = 0xFF then s
  else if c.dev = s.fab.devId then s.put (.qans ⟨c.core, c.ctx, c.member, 5, .ok, n, 0, none⟩)
  else
    s.answer (.fabric 0 c.dev c.core 0 0 0x0C false 0 0) .ok 0 0 0 (leBytes n 4 ++ leBytes (c.ctx + fld c.member 16 7) 4)
      false

/-- The rings' fronts pass what is released there. -/
def State.popFront (s : State) (qid : Nat) : State :=
  let q := s.queue qid
  let m := popDone false q.recs
  let sp := popDone true m.2
  s.setQueue qid { q with recs := sp.2, head := q.head + m.1, shead := q.shead + sp.1 }

/-- A record is released. -/
def State.release (s : State) (qid no : Nat) : State :=
  let q := s.queue qid
  match q.recs.find? (fun x => x.no = no && !x.pad) with
  | none => s
  | some x =>
    let recs := q.recs.map fun (y : PRec) => if y.no = no && !y.pad then { y with done := true, conn := none } else y
    let s := (s.setQueue qid { q with recs := recs }).popFront qid
    match x.conn with
    | some c => if c.cls = 0 then s.returnCredit c x.size else s
    | none => s

/-! ### A queue ends (R341) -/

/-- The hub of a COMBINING queue opens its connection to DQ, or closes it (R338). -/
def State.hubConn (s : State) (q : Queue) (qid : Nat) (op : QOp) : State :=
  s.deliver (toQueue { s.env 0 with core := 0xFF } q.dq qid 64 0 op .none)

/-- The queue becomes GONE: records not yet dispatched are dropped, and combining entries discarded (R342). `running` is the record
whose handler runs. -/
def State.queueGone (s : State) (qid : Nat) : State :=
  let q := s.queue qid
  if q.state ≠ 1 then s
  else
    let left := (q.recs.filter fun x => !x.pad && !x.done
      && !(s.cores.any fun c => match c.2.ms.handler with
        | some h => h.qid = qid && h.recNo = x.no
        | none => false)).length
    let s := s.setQueue qid { q with state := 2, drops := satAdd q.drops left, recs := [], conns := [] }
    let s := if q.kind = 1 then
        let h := s.hub q.home
        (s.setHub q.home { h with combRes := h.combRes - q.keys, comb := h.comb.filter fun e => e.qid ≠ qid }).hubConn q qid .close
      else s
    if q.group || q.kind ≠ 0 then s
    else s.modCore q.reader fun (c : Core) =>
      { c with ms := { c.ms with readers := c.ms.readers.filter fun x => x ≠ qid } }

/-! ### Queue groups (R333) -/

/-- Whether a core is at a dispatch point: it executes no block. -/
def Core.atDispatch (c : Core) : Bool := c.rn.mode = 0 && c.ms.handler.isNone && c.rn.stop = .no

/-- The members of a group, in ascending order. -/
def State.groupCores (s : State) (g : Nat) : List Nat := (upFrom 0 128).filter fun k => (tget 0 s.qgrp g).getLsbD k

/-- Whether a record assigned to a core awaits its release. -/
def State.hasAssigned (s : State) (k : Nat) : Bool :=
  s.queues.any fun x => x.2.group && x.2.recs.any fun r => r.core = some k && !r.done

/-- The member to which a record of a group goes, if one is eligible. -/
def State.assignee (s : State) (q : Queue) (x : PRec) : Option Nat :=
  let ms := s.groupCores q.reader
  if q.bal then ms.find? fun k => (s.core k).atDispatch && !s.hasAssigned k
  else if ms.isEmpty then none
  else ms[(bits x.hdr.toNat 20 8 + bits x.hdr.toNat 32 32) % ms.length]?

/-- A record is assigned to a member. -/
def Queue.assign (q : Queue) (no k : Nat) : Queue :=
  { q with recs := q.recs.map fun (y : PRec) => if y.no = no && !y.pad then { y with core := some k } else y }

/-- GROUP_ASSIGN. -/
def execGroupAssign (qid : Nat) (s : State) : Host.Outcome State Fault Refusal :=
  accept (.groupAssign qid) (
    let q := s.queue qid
    match q.recs.find? (fun x => q.group && x.core = none && !x.pad && !x.done) with
    | none => s
    | some x =>
      match s.assignee q x with
      | none => s
      | some k => s.setQueue qid (q.assign x.no k))

/-! ### Combining (R336 to R339) -/

/-- SAT and the sum words of a total. -/
def totalWords (exact : Bool) (e : CombEntry) : Bool × W64 × W64 :=
  if exact then
    match e.tag with
    | .none =>
      let r := xSat e.sum
      let x := BitVec.ofInt 128 r.1
      (r.2, x.truncate 64, (x >>> 64).truncate 64)
    | t => (false, (tagPattern t).truncate 64, (tagPattern t >>> 64).truncate 64)
  else
    let hi : Int := 2 ^ 63 - 1
    let lo : Int := -(2 ^ 63)
    let v := if hi < e.sum then hi else if e.sum < lo then lo else e.sum
    let x := BitVec.ofInt 128 v
    (v ≠ e.sum, x.truncate 64, (x >>> 64).truncate 64)

/-- The total of an entry goes to DQ; the entry is freed. -/
def State.deliverTotal (s : State) (qid : Nat) (e : CombEntry) (partl : Bool) : State :=
  let q := s.queue qid
  let hub := s.hub q.home
  let (sat, w1, w2) := totalWords q.exact e
  let op : QOp := .total (q.totals % 2 ^ 32) sat partl
    [BitVec.ofNat 64 e.key, w1, w2, BitVec.ofNat 64 e.count] e.poison
  let s := s.setHub q.home { hub with
    comb := hub.comb.filter fun x => !(x.qid = qid && x.key = e.key)
    combDel := hub.combDel + 1
    combPar := if partl then satAdd hub.combPar 1 else hub.combPar }
  let s := s.setQueue qid { q with totals := q.totals + 1 }
  s.deliver (toQueue { s.env 0 with core := 0xFF } q.dq qid 64 0 op (.total qid))

/-- An entry of a key that has none: one of the queue's reserved entries for CLASS 2, an unreserved one for CLASS 3. -/
def Hub.takeEntry (h : Hub) (q : Queue) (qid key cls tbt : Nat) : Option CombEntry :=
  let mine := (h.comb.filter fun x => x.qid = qid && x.resv).length
  let open_ := (h.comb.filter fun x => !x.resv).length
  if cls = 2 then if mine < q.keys then some ⟨qid, key, 0, 0, .none, false, tbt, true⟩ else none
  else if open_ < 65536 - h.combRes then some ⟨qid, key, 0, 0, .none, false, tbt, false⟩
  else none

/-- A contribution is added exactly (R337). -/
def CombEntry.add (e : CombEntry) (exact : Bool) (x : W128) (p : Bool) : CombEntry :=
  let e := { e with count := e.count + 1, poison := e.poison || p }
  if exact && patternTag x ≠ .none then { e with tag := e.tag.join (patternTag x) } else { e with sum := e.sum + x.toInt }

/-- The TBT at which an entry of a queue times out (R339): CTMO is in µs, of 4,000 ticks. -/
def CombEntry.due (e : CombEntry) (q : Queue) : Option Nat := if q.ctmo = 0 then none else some (e.first + 4000 * q.ctmo)

/-- An entry whose time passed before the hcyc in which a contribution arrived is delivered before it (R339). -/
def State.expireBefore (s : State) (qid key at0 : Nat) : State :=
  let q := s.queue qid
  match (s.hub q.home).comb.find? (fun e => e.qid = qid && e.key = key) with
  | none => s
  | some e =>
    match e.due q with
    | none => s
    | some t => if t / 2 < at0 / 2 then s.deliverTotal qid e true else s

/-- COMBINING_CONTRIBUTION. -/
def execCombiningContribution (req : Nat) (s : State) : Host.Outcome State Fault Refusal :=
  accept (.combiningContribution req) (
    match s.queueReq req with
    | some r =>
      match r.op with
      | .csend key exact x p =>
        let s := s.take req
        let qid := r.qid
        let q := s.queue qid
        match q.conn r with
        | none => s.refuse qid r.reply .epeerGone
        | some c =>
          if q.state ≠ 1 then s.refuse qid r.reply .epeerGone
          else if q.kind ≠ 1 then s.refuse qid r.reply .eparam
          else
            let s := s.expireBefore qid key.toNat r.at0
            let q := s.queue qid
            let hub := s.hub q.home
            let old := hub.comb.find? fun e => e.qid = qid && e.key = key.toNat
            match old.orElse (fun _ => hub.takeEntry q qid key.toNat c.cls s.clk.tbt.toNat) with
            | none =>
              (s.setHub q.home { hub with combRef := satAdd hub.combRef 1 }).refuse qid r.reply .erefused
            | some e =>
              let e := e.add exact x p
              let rest := hub.comb.filter fun y => !(y.qid = qid && y.key = key.toNat)
              let hub := { hub with comb := rest ++ [e], combHwm := max hub.combHwm (rest.length + 1) }
              let s := (s.setHub q.home hub).answer r.reply .ok 0 0 0 [] false
              if q.expect ≤ e.count then s.deliverTotal qid e false else s
      | _ => s
    | none => s)

/-- Whether a contribution to a key that arrived by a TBT's hcyc waits at the hub. -/
def State.contribWaits (s : State) (qid key t : Nat) : Bool :=
  s.plane.any fun x => match x.2 with
    | some (.queue y) => y.qid = qid && y.at0 / 2 ≤ t / 2 && (match y.op with
        | .csend k _ _ _ => k.toNat = key
        | _ => false)
    | _ => false

/-- COMBINING_TIMEOUT (R339): a contribution that arrived in the same hcyc, or before, is added first. -/
def execCombiningTimeout (qid key : Nat) (s : State) : Host.Outcome State Fault Refusal :=
  accept (.combiningTimeout qid key) (
    let q := s.queue qid
    match (s.hub q.home).comb.find? (fun e => e.qid = qid && e.key = key) with
    | none => s
    | some e =>
      match e.due q with
      | none => s
      | some t => if s.clk.tbt.toNat < t || s.contribWaits qid key t then s else s.deliverTotal qid e true)

end Sys2Proof.Machine
end

