-- ==== Sys2Proof/Machine/Records.lean ====
section
/-!
DEFINITION. Completion records: what waits for its ring, the end of a command, the record of a run, and the states of the
device and of its jobs as they follow (14 R432 to R439, R444, R445; 16 R484).
-/

namespace Sys2Proof.Machine

open Sys2Proof

/-! ### Ccyc and ticks (12 R359, R360) -/

/-- The arithmetic clock of an operating point, in units of 0.1 GHz. -/
def clock10 (op : Nat) : Nat :=
  match op with
  | 0 => 36 | 1 => 32 | 2 => 28 | 3 => 22 | _ => 16

/-- Ccyc in a number of ticks, and the ticks that a number of ccyc takes, at an operating point. -/
def ccycOf (op ticks : Nat) : Nat := ticks * clock10 op / 40
def ticksOf (op ccyc : Nat) : Nat := ceilDiv (ccyc * 40) (clock10 op)

/-! ### Rings (14 R429, R432, R433) -/

def Ring.en (r : Ring) : Bool := bitAt r.ctrl.toNat 0
def Ring.inDevice (r : Ring) : Bool := bitAt r.ctrl.toNat 1
def Ring.cqLog (r : Ring) : Nat := bits r.ctrl.toNat 7 5
def Ring.sqLog (r : Ring) : Nat := bits r.ctrl.toNat 2 5
def Ring.vec (r : Ring) : Nat := bits r.ctrl.toNat 12 9
def Ring.full (r : Ring) : Bool := (r.cqtail - r.cqHead).toNat = 2 ^ r.cqLog

/-- ACTIVE: fetched commands of the ring are incomplete. -/
def Ring.active (r : Ring) : Bool := r.open_ ≠ 0

/-- A record waits for its ring. A run record that falls due on a ring that is disabled and no longer ACTIVE, or behind 256
others of a full ring, is dropped and counted (R432, R433). -/
def State.addRecord (s : State) (ring : Nat) (x : CRec) : State :=
  let r := s.ring ring
  let lost := x.runrec && ((!r.en && !r.active) || (r.full && 256 ≤ (r.waiting.filter fun y => y.runrec).length))
  if lost then { s with host := { s.host with cqLost := satAdd s.host.cqLost 1 } }
  else s.setRing ring { r with waiting := r.waiting ++ [x] }

/-- RUNINFO (R437). -/
def runInfo (delay stretch digest : Nat) : W64 :=
  BitVec.ofNat 64 (min delay 0xFFFFFF + fld (min stretch 0xFFFFFF) 24 24 + fld digest 48 16)

/-! ### The end of a command (14 R437 to R439) -/

/-- DETAIL of ESTATE (R439). -/
def State.stateDetail (s : State) (job : Nat) : Nat :=
  fld s.host.state 0 8 + fld (if job < 64 then (s.job job).state else 0xFF) 8 8

/-- The record of a command, with its DETAIL. OK becomes DELAYED where execution began late. -/
def State.cmdRecord (s : State) (c : Cmd) (st : Status) (detail : Nat) : State :=
  let st := if st = .ok && c.delay ≠ 0 then .delayed else st
  if c.mute then s
  else s.addRecord c.ring
    { tag := c.p.tag.toNat, status := st, delayed := c.delay ≠ 0, cls := c.cls, dvalid := false, runrec := false
      detail := BitVec.ofNat 32 detail, start := BitVec.ofNat 64 c.begin0, info := runInfo c.delay 0 0
      notify := c.p.cflags.getLsbD 2 }

/-- The executing command of an identity. -/
def State.cmd (s : State) (id : Nat) : Option Cmd := s.host.exec.find? fun c => c.id = id

/-- The command is done: it leaves the commands in execution, and its record waits. -/
def State.finish (s : State) (id : Nat) (st : Status) (detail : Nat) : State :=
  match s.cmd id with
  | none => s
  | some c =>
    ({ s with host := { s.host with exec := s.host.exec.filter fun x => x.id ≠ id } }).cmdRecord c st detail

/-- Ends a command with ESTATE. -/
def State.badState (s : State) (id : Nat) : State :=
  match s.cmd id with
  | none => s
  | some c => s.finish id .estate (s.stateDetail c.p.job.toNat)

/-- Ends a command with EPARAM for parameter `k`, or with another status that names no fault record. -/
def State.badParam (s : State) (id k : Nat) : State := s.finish id .eparam k
def State.noRecord (s : State) (id : Nat) (st : Status) : State := s.finish id st 0xFFFF

/-! ### Device state (14 R444) -/

/-- Whether some job is ARMED or RUNNING. -/
def State.anyArmed (s : State) : Bool := s.jobs.any fun x => x.2.state = jARMED || x.2.state = jRUNNING

/-- The device state follows the jobs; a drain that reaches READY completes (R448). -/
def State.settleDevice (s : State) : State :=
  let st := s.host.state
  if st = dREADY && s.anyArmed then { s with host := { s.host with state := dRUNNING } }
  else if st = dRUNNING && !s.anyArmed then { s with host := { s.host with state := dREADY } }
  else if st = dDRAINING && !s.anyArmed then
    let s' := { s with host := { s.host with state := dREADY, drain := none } }
    match s.host.drain with
    | some (id, _) => s'.finish id .ok 0
    | none => s'
  else s

/-! ### Run records (14 R437, 16 R484) -/

/-- The status of a run, and the fault record that its DETAIL names (16 R484). -/
def Run.status (r : Run) : Status × Option Nat :=
  match r.fault with
  | some (_, _, i, st) => (st, some i)
  | none =>
    match r.slip with
    | some i => (.eslip, some i)
    | none =>
      match r.poison with
      | some i => (.epoison, some i)
      | none => (if r.delay = 0 then .ok else .delayed, none)

/-- DETAIL of a run record (14 R439). -/
def Run.detail (r : Run) : Nat :=
  match r.status with
  | (_, some i) => i
  | (.ok, none) => min r.hold 0xFFFFFFFF
  | (.delayed, none) => min r.hold 0xFFFFFFFF
  | (_, none) => 0xFFFF

/-- Die events of a run (12 R355). -/
def Run.stretches (r : Run) : Nat := r.stretch0.elim 0 fun a => r.stretch1 - a

/-- The record of a run; `digest` is the index of its digest record. -/
def State.runRecord (s : State) (r : Run) (st : Status) (detail : Nat) (digest : Option Nat) : State :=
  s.addRecord r.ring
    { tag := r.tag, status := st, delayed := r.delay ≠ 0, cls := r.cls, dvalid := digest.isSome, runrec := true
      detail := BitVec.ofNat 32 detail, start := BitVec.ofNat 64 r.start
      info := runInfo r.delay r.stretches (digest.getD 0), notify := true }

end Sys2Proof.Machine
end

