-- ==== Sys2Proof/Machine/Blocks.lean ====
section
/-!
DEFINITION. The blocks of a core: the end of a hold or a wait, timeouts, block boundaries, service blocks, and the dispatch of
handlers (02 R36, R48, R49; 06 R173, R177; 11 R327 to R334).
-/

namespace Sys2Proof.Machine

open Sys2Proof

/-! ### Holds and waits (02 R48, R49, 10 R291) -/

/-- Whether what an engine awaits has come about. -/
def Core.awaitOk (c : Core) (env : Env) (e : Engine) : Await → Bool
  | .tally a i n => n.toNat ≤ (c.seenTally a i).toNat
  | .gate i n _ => n.toNat ≤ (c.seenTally false i).toNat
  | .fence k sc => c.fenceOk env e k sc
  | .queue _ _ =>
    match c.ms.wait with
    | some w => c.queueOk w.out.ctx w.size
    | none => true

/-- Whether a wait's timeout has not passed before this ccyc. -/
def Wait.live (w : Wait) (now : Nat) : Bool :=
  match w.tmo with
  | some t => now - w.start ≤ t
  | none => true

/-- What waits in the message engine goes (11 R323, R325). -/
def Core.launchWaiting (c : Core) : Core :=
  match c.ms.wait with
  | some w => { c with ms := { c.ms with wait := none } }.launch w
  | none => c

/-- The wait of an engine ends in this ccyc; its engine, or after a hold every engine, issues from the next on. -/
def Core.finishWait (c : Core) (w : Wait) (all : Bool) : Core :=
  let c := c.endWait w.eng
  let c := if w.eng = .mse then c.noteMse else c
  let keys := if all then upFrom 0 32 else [w.eng.code]
  let c := { c with ck := { c.ck with
    seen := keys.foldl (fun (m : SMap Nat) k => tput 0 m k (max (tget 0 m k) (c.tm.now + 1))) c.ck.seen } }
  match w.what with
  | .queue _ _ => c.launchWaiting
  | _ => c

/-- The waits of the list whose conditions are seen end. -/
def Core.endWaits (c : Core) (env : Env) (all : Bool) (l : List Wait) : Core :=
  l.foldl (fun (c : Core) w =>
    if w.live c.tm.now && c.awaitOk env w.eng w.what then c.finishWait w all else c) c

/-- HOLD_END: in scheduled mode for every engine that shares the hold, from the ccyc after it began; in service mode for every wait. -/
def execHoldEnd (c delta : Nat) (s : State) : Host.Outcome State Fault Refusal :=
  accept (.holdEnd c delta) (s.onCore c fun env k =>
    let k := k.comeTo env delta
    match k.rn.hold with
    | some w => if w.start < k.tm.now then k.endWaits env true (w :: k.rn.waits) else k
    | none => k.endWaits env false k.rn.waits)

/-- SPEC0 and the value awaited of a WAIT_TIMEOUT (10 R309). -/
def Core.timeoutSpec (c : Core) : Await → Nat × Nat
  | .tally a i n => (tallySpec0 a i false 0 (c.seenTally a i).toNat, n.toNat)
  | .gate i n slot => (tallySpec0 false i true slot (c.seenTally false i).toNat, n.toNat)
  | _ => (0, 0)

/-- WAIT_TIMEOUT (02 R49, 10 R291): TMO ccyc have passed and the condition is not seen. -/
def execWaitTimeout (c delta : Nat) (e : Engine) (s : State) : Host.Outcome State Fault Refusal :=
  accept (.waitTimeout c delta e) (s.onCore c fun env k =>
    let k := k.comeTo env delta
    match k.waitOf e with
    | none => k
    | some w =>
      match w.tmo with
      | none => k
      | some t =>
        if k.tm.now - w.start < t || k.awaitOk env e w.what then k
        else
          let x := k.timeoutSpec w.what
          k.waitTimeout e w.kvi x.1 x.2 t)

/-! ### Runs on a core (00 R23, 03 R77, R83, 04 R123, R136, 11 R331) -/

def Core.setRctx (c : Core) (n : Nat) (x : RunCtx) : Core :=
  { c with rn := if n = 0 then { c.rn with c0 := x } else { c.rn with c1 := x } }

/-- Whether a block is a service block. -/
def isService (env : Env) (b : Nat) : Bool :=
  match env.img.blocks[b]? with
  | some blk => blk.mode % 2 = 1
  | none => false

/-- The run of context `n` begins its block 0 `gap` ccyc from now. -/
def Core.enterRun (c : Core) (env : Env) (n gap : Nat) : Core :=
  let x := c.ctx n
  { c with
    ck := { c.ck with wcnt := [] }
    mx := { c.mx with tile := Tile.zero, beam := [], modes := [] }
    vx := { c.vx with
      flags := VFlags.none, srSeq := 0, seed := env.seed, lut := { c.vx.lut with valid := false } }
    rn := { c.rn with
      mode := if isService env 0 then 2 else 1, block := 0, begin0 := c.tm.p + gap, replay := false, succ := none, after := none, startCtx := none, ctx := n
      run := x.run, runCcyc := 0, holdCcyc := 0, slip := false, hold := none, waits := [], stop := .no
      progress := env.tbt.toNat } }

/-- A run starts on a core: `wait` ccyc from now, or after the handler that runs. -/
def Core.startRun (c : Core) (env : Env) (job run wait : Nat) : Core :=
  let n := if c.rn.c0.used then 1 else 0
  let c := c.setRctx n ⟨true, job, run, false⟩
  if c.ms.handler.isSome then { c with rn := { c.rn with startCtx := some n, startAt := c.tm.now + wait } }
  else c.enterRun env n (1 + wait)

/-- The run's compute ends on the core (06 R173). -/
def Core.endRun (c : Core) : Core :=
  let x := c.ctx c.rn.ctx
  let c := c.setRctx c.rn.ctx { x with done := true }
  { c with rn := { c.rn with mode := 0, succ := none, after := none } }

/-- The device notes that core `k` has begun, or ended, its part of a run. -/
def State.noteCore (s : State) (k : Nat) : State :=
  let c := s.core k
  let x := c.ctx c.rn.ctx
  if !x.used || 64 ≤ x.job then s
  else
    let j := s.job x.job
    let begun := fun (r : Run) =>
      if r.toBegin.contains k && c.rn.startCtx.isNone then
        { r with toBegin := r.toBegin.filter fun y => y ≠ k
                 delay := max r.delay (c.tm.now + 16 - c.rn.startAt) }
      else r
    let ended := fun (r : Run) =>
      if x.done && r.toEnd.contains k && !r.toBegin.contains k then
        { r with toEnd := r.toEnd.filter fun y => y ≠ k
                 hold := max r.hold c.rn.holdCcyc.toNat
                 ccyc := max r.ccyc c.rn.runCcyc.toNat
                 stretch1 := s.clk.stretch.toNat }
      else r
    s.setJob x.job (j.modRun x.run fun r => ended (begun r))

/-! ### Blocks (02 R36, 06 R172, R173) -/

def nBranch : Nat := 0xFFFD
def nReturn : Nat := 0xFFFE
def nEnd : Nat := 0xFFFF

/-- Block `b` begins in pipeline ccyc `t`. Its audit write counters begin at 0 (02 R59), those of a block that has begun already when
it did. -/
def Core.enterBlock (c : Core) (env : Env) (b t : Nat) : Core :=
  match env.img.blocks[b]? with
  | none => c
  | some blk =>
    let sched := blk.mode % 2 = 0
    let ck := if c.tm.p ≤ t then { c.ck with wcnt := [] } else c.ck
    { c with ck := ck, rn := { c.rn with
      mode := if sched then 1 else 2, block := b, begin0 := t, succ := none
      runCcyc := if sched then c.rn.runCcyc + BitVec.ofNat 64 (min (c.tm.p - t) blk.length) else c.rn.runCcyc } }

/-- The core waits, with block `b` to follow, for the dispatch of the records below `upTo` (11 R328), or at a stop point
(12 R361). -/
def Core.waitBlock (c : Core) (b upTo : Nat) : Core :=
  { c with rn := { c.rn with mode := 0, succ := none, after := some b, upTo := upTo } }

/-- A block follows a service block: a scheduled one 16 ccyc from now, a service one in the next ccyc (02 R36). -/
def Core.follow (c : Core) (env : Env) (b : Nat) : Core :=
  c.enterBlock env b (c.tm.p + if isService env b then 1 else 16)

/-- What waits at a stop point or for dispatch goes on: a handler's next block, a run that starts, or the run's successor block. -/
def Core.resume (c : Core) (env : Env) : Core :=
  match c.rn.hnext, c.rn.startCtx, c.rn.after with
  | some b, _, _ => { c with rn := { c.rn with hnext := none } }.follow env b
  | none, some x, _ => c.enterRun env x 16
  | none, none, some b => { c with rn := { c.rn with after := none } }.follow env b
  | none, none, none => c

/-- The next block of what runs waits at a stop point (12 R361). -/
def Core.stopPoint (c : Core) (b upTo : Nat) : Core :=
  if c.ms.handler.isSome then { c with rn := { c.rn with mode := 0, succ := none, hnext := some b } } else c.waitBlock b upTo

/-- The NEXT of the running block, BRANCH replaced by the branch's choice. -/
def Core.nextOf (c : Core) (env : Env) : Option Nat :=
  match env.img.blocks[c.rn.block]? with
  | none => none
  | some blk => if blk.next = nBranch then c.rn.succ else some blk.next

/-- BLOCK_BOUNDARY: a scheduled block has reached its length. -/
def Core.boundary (c : Core) (env : Env) : Core :=
  let t := c.rn.begin0 + c.blockLen env
  if c.rn.mode ≠ 1 || c.rn.stop ≠ .no || c.held || c.tm.p < t then c
  else
    match c.nextOf env with
    | none => c
    | some n =>
      if n = nEnd then c.endRun
      else if isService env n && env.opWait then c.stopPoint n 0
      else c.enterBlock env n t

def execBlockBoundary (c delta : Nat) (s : State) : Host.Outcome State Fault Refusal :=
  accept (.blockBoundary c delta) ((s.onCore c fun env k => (k.comeTo env delta).boundary env).noteCore c)

/-! ### Records that await dispatch (11 R328) -/

/-- A queue's first record for core `k` that is not yet released. -/
def Queue.firstFor (q : Queue) (k : Nat) : Option PRec := q.recs.find? fun r => r.core = some k && !r.pad && !r.done

/-- The next record that core `k` dispatches: the first placed of those below `upTo`, whether it has landed or not. -/
def pickRecord (k upTo : Nat) : SMap Queue → Option (Nat × PRec)
  | [] => none
  | (qid, q) :: t =>
    match q.firstFor k with
    | none => pickRecord k upTo t
    | some r =>
      if q.state ≠ 1 || upTo ≤ r.no then pickRecord k upTo t
      else
        match pickRecord k upTo t with
        | none => some (qid, r)
        | some (q2, r2) => if r2.no < r.no then some (q2, r2) else some (qid, r)

def State.nextRecord (s : State) (k upTo : Nat) : Option (Nat × PRec) := pickRecord k upTo s.queues

/-- Records that core `k` has still to dispatch before its successor block. -/
def State.toDispatch (s : State) (k : Nat) : Bool :=
  (s.core k).rn.after.isSome && (s.nextRecord k (s.core k).rn.upTo).isSome

/-- The queue of a group with BAL 1 whose oldest unassigned record a core may be given. -/
def State.balancedQueue (s : State) (k : Nat) : Option Nat :=
  (s.queues.find? fun x => x.2.group && x.2.bal && x.2.state = 1 && (s.groupCores x.2.reader).contains k
    && x.2.recs.any fun r => r.core = none && !r.pad && !r.done).map (·.1)

/-- A core that comes to a dispatch point is given the record that waits for a member (R333). -/
def State.assignAt (s : State) (k : Nat) : State :=
  if s.hasAssigned k then s
  else
    match s.balancedQueue k with
    | none => s
    | some qid =>
      let q := s.queue qid
      match q.recs.find? (fun x => x.core = none && !x.pad && !x.done) with
      | none => s
      | some x => s.setQueue qid (q.assign x.no k)

/-! ### Service blocks and handlers -/

/-- Whether the last words of the engines of a service block can have retired. -/
def Core.blockOver (c : Core) : Bool :=
  c.rn.mode = 2 && c.rn.stop = .no && c.rn.waits.isEmpty && c.pend.isEmpty && c.pev.isEmpty && c.rn.begin0 ≤ c.tm.p

/-- A service block of a run, or of a handler, ends. -/
def Core.serviceEnd (c : Core) (env : Env) (more : Bool) (recNo : Nat) : Core :=
  if !c.blockOver then c
  else
    match c.nextOf env with
    | none => c
    | some n =>
      if c.ms.handler.isSome then
        if n = nReturn then
          let c := { c with ms := { c.ms with handler := none, curHdr := 0 }, rn := { c.rn with mode := 0 } }
          match c.rn.startCtx with
          | some x => if env.opWait then c else c.enterRun env x 16
          | none => c
        else if env.opWait then c.stopPoint n recNo
        else c.follow env n
      else if n = nEnd then c.endRun
      else if more || env.opWait then c.waitBlock n recNo
      else (c.waitBlock n recNo).resume env

/-- Where the records before the block's end have all been dispatched, the successor begins; after a change of operating point what
waits at a stop point does. -/
def State.resumeCore (s : State) (k : Nat) : State :=
  let c := s.core k
  if c.rn.mode ≠ 0 || c.rn.stop ≠ .no || s.clk.change.isSome then s
  else if c.ms.handler.isSome then if c.rn.hnext.isSome then s.onCore k fun env c => c.resume env else s
  else if c.rn.after.isSome || c.rn.startCtx.isSome then
    let s := s.assignAt k
    if s.toDispatch k then s else s.onCore k fun env c => c.resume env
  else s

/-- Whether the core, `delta` ccyc on, stands at the end of a service block of its run, which a block of it follows. -/
def State.runServiceEnds (s : State) (k delta : Nat) : Bool :=
  let c := { s.core k with fc := s.freeCtr }.comeTo (s.env k) delta
  c.blockOver && c.ms.handler.isNone && (match c.nextOf (s.env k) with
    | some n => n ≠ nEnd
    | none => false)

/-- SERVICE_BLOCK_END (R177, R328, R329). The end of a handler releases its record. -/
def execServiceBlockEnd (c delta : Nat) (s : State) : Host.Outcome State Fault Refusal :=
  accept (.serviceBlockEnd c delta) (
    if s.gated then s else
    let h := (s.core c).ms.handler
    let s := if s.runServiceEnds c delta then s.assignAt c else s
    let more := (s.nextRecord c s.recNo).isSome
    let n := s.recNo
    let s := (s.onCore c fun env k => (k.comeTo env delta).serviceEnd env more n).noteCore c
    match h with
    | some h =>
      if (s.core c).ms.handler.isSome then s else (s.release h.qid h.recNo).resumeCore c
    | none => s)

/-- The TBT of a job's next start, if it has one (R331). -/
def tickAt (e k num den : Nat) : Nat :=
  e + k / num * den * 4000000000 + k % num * den * 4000000000 / num

def Job.nextStart (j : Job) : Option Nat :=
  let l := j.starts.map (·.tbt)
  let l := match j.per with
    | some p => if p.stopped then l else tickAt p.epoch p.tick p.num p.den :: l
    | none => l
  match l with
  | [] => none
  | a :: t => some (t.foldl min a)

/-- Whether R331 lets a handler of this budget begin on a core of the job. -/
def State.mayHandle (s : State) (job budget : Nat) : Bool :=
  let j := s.job job
  if !j.det || !(j.state = jARMED || j.state = jRUNNING) then true
  else
    budget ≠ 0 && match j.nextStart with
      | some t => s.clk.tbt.toNat + ticksOf s.clk.op (budget + 16) ≤ t
      | none => true

/-- S55 to S63 of a record. -/
def recordRegs (s : SMap SVal) (hdr : W64) (words : List W64) (p : Bool) : SMap SVal :=
  (upFrom 0 8).foldl (fun (m : SMap SVal) i =>
    tput ⟨0, false⟩ m (56 + i) ⟨words.getD i 0, p && decide (i < words.length)⟩) (tput ⟨0, false⟩ s 55 ⟨hdr, false⟩)

/-- A record as its reader finds it in the ring: its header, its words, and whether it is poisoned (R319, R340). -/
structure RingRec where
  hdr   : W64
  words : List W64
  p     : Bool
  deriving DecidableEq, Repr

/-- The record at the place of `r`: in the scratchpad of core `k`, or in HBM for a ring or a spill ring there. What a program has
written over it is what is read (R340). -/
def State.ringRec (s : State) (k : Nat) (hbm : Bool) (r : PRec) : RingRec :=
  let m := if hbm || r.spill then s.hbm.mem else (s.core k).mem
  let hdr : W64 := BitVec.ofNat 64 (leVal (readBytes m r.at0 8))
  let n := min 8 (bits hdr.toNat 4 4)
  let p := if hbm || r.spill then anyMark s.hbm.pois (r.at0 / 64) (ceilDiv (r.at0 % 64 + r.size) 64)
    else anyMark (s.core k).pois (r.at0 / 256) (ceilDiv (r.at0 % 256 + r.size) 256)
  ⟨hdr, (upFrom 0 n).map fun i => BitVec.ofNat 64 (leVal (readBytes m (r.at0 + 8 + 8 * i) 8)), hdr.getLsbD 3 || p⟩

/-- A handler begins (R329). -/
def Core.dispatch (c : Core) (env : Env) (h : Nat) (e : HandlerEntry) (qid : Nat) (r : PRec) (x : RingRec) : Core :=
  { c with
    ck := { c.ck with wcnt := [] }
    regs := { c.regs with
      s := recordRegs c.regs.s x.hdr x.words x.p
      a := tput ⟨0, false⟩ c.regs.a 31 ⟨BitVec.ofNat 48 r.at0, false⟩ }
    ms := { c.ms with
      handler := some ⟨h, qid, r.no, c.tm.now, e.budget⟩, curHdr := x.hdr, disp := c.ms.disp + 1, held := false }
    rn := { c.rn with mode := 2, block := e.block, begin0 := c.tm.p + 1, progress := env.tbt.toNat } }

/-- Records that core `k` may dispatch at this point: all, or those placed before its service block ended. -/
def State.dispatchLimit (s : State) (k : Nat) : Nat :=
  match (s.core k).rn.after with
  | some _ => (s.core k).rn.upTo
  | none => s.recNo

/-- HANDLER_DISPATCH (R328 to R331). -/
def execHandlerDispatch (c delta : Nat) (s : State) : Host.Outcome State Fault Refusal :=
  accept (.handlerDispatch c delta) (
    if s.gated then s else
    let s := s.onCore c fun env k => k.comeTo env delta
    let k := s.core c
    if !k.atDispatch || k.rn.startCtx.isSome then s
    else
      match s.nextRecord c (s.dispatchLimit c) with
      | none => s
      | some (qid, r) =>
        -- wrap pads at the front are released first
        let s := s.popFront qid
        let q := s.queue qid
        let x := s.ringRec c q.hbm r
        let h := if q.hmode then bits (x.words.getD 0 0).toNat 0 6 else q.hidx
        if !r.ready then s else
        match ((s.env c).img.handlers[h]?).filter (·.valid) with
        | none =>
          let s := s.modCore c fun (k : Core) => { k with ms := { k.ms with noHdl := satAdd k.ms.noHdl 1 } }
          (s.release qid r.no).resumeCore c
        | some e =>
          if s.mayHandle k.rn.job e.budget then s.onCore c fun env k => k.dispatch env h e qid r x
          else s.modCore c fun (k : Core) => { k with ms := { k.ms with held := true } })

/-- HANDLER_BUDGET_EXPIRY (R330). -/
def execHandlerBudgetExpiry (c delta : Nat) (s : State) : Host.Outcome State Fault Refusal :=
  accept (.handlerBudgetExpiry c delta) (s.onCore c fun env k =>
    let k := k.comeTo env delta
    match k.ms.handler with
    | none => k
    | some h =>
      if h.budget = 0 || k.tm.now - h.at0 ≤ h.budget || k.rn.stop ≠ .no then k
      else
        k.queueFault k.rn.ctx (kviEntry k.rn.image 6 h.hidx) .etimeout 4 0 h.hidx 0 (env.dev * 2 ^ 20 + h.qid))

end Sys2Proof.Machine
end

