-- ==== Sys2Proof/Machine/Host.lean ====
section
/-!
DEFINITION. The host interface but for the command set: the link, rings and doorbells, completion records, decoders and bias,
BAR2, CXL.mem, snoops (14 R419 to R437, R456; 05 R163).
-/

namespace Sys2Proof.Machine

open Sys2Proof

/-! ### What the command processor reads and writes (R436) -/

/-- Bytes of a parameter buffer: of device memory where bit 63 of its address is 1, else those that the host's memory holds. -/
def State.buffer (s : State) (addr : W64) (len : Nat) (given : List Byte) : List Byte :=
  let dpa := addr.toNat % 2 ^ 48
  if !addr.getLsbD 63 then given.take len ++ List.replicate (len - given.length) 0
  else
    match dpaPlace true dpa with
    | .hbm _ => s.hbm.bytes dpa len
    | .scr k a => readBytes (s.core k).mem a len
    | _ => List.replicate len 0

/-- The parameter buffers of a command are read: the errors that this meets in HBM, and whether any of them is poisoned (00 R18). -/
def State.touchBuffers (s : State) (ecc : List EccObs) (l : List (W64 × Nat)) : State × Bool :=
  let dev := (l.filter fun x => x.1.getLsbD 63).map fun x => (x.1.toNat % 2 ^ 48, x.2)
  let r := s.touch ecc (dev.filter fun x => x.1 < hbmEnd)
  (r.1, r.2 || dev.any fun x => match dpaPlace true x.1 with
    | .scr k a => x.2 ≠ 0 && anyMark (s.core k).pois (a / 256) ((a + x.2 - 1) / 256 + 1 - a / 256)
    | _ => false)

/-- Bytes cut at the ends of lines: each piece with its address. -/
def chunksBy : Nat → Nat → List Byte → List (Nat × List Byte)
  | 0, _, _ => []
  | n + 1, a, d =>
    let k := 256 - a % 256
    if d.length ≤ k then [(a, d)] else (a, d.take k) :: chunksBy n (a + k) (d.drop k)

def chunks (a : Nat) (d : List Byte) : List (Nat × List Byte) := if d.isEmpty then [] else chunksBy d.length a d

/-- A write by the command processor, or the host, to a scratchpad (05 R163): one packet for each line. -/
def State.scrWrite (s : State) (core a : Nat) (d : List Byte) (poison : Bool) : State :=
  (chunks a d).foldl (fun (s : State) x =>
    s.put (.line core ⟨x.1, x.2, poison, false, ⟨s.fab.devId, 0xFF, false⟩, .host, .none, none, none⟩)) s

/-- Bytes written to the host's memory, or to the device's. -/
def State.writeOut (s : State) (device : Bool) (addr : Nat) (d : List Byte) : State :=
  if !device then s
  else
    let dpa := addr % 2 ^ 48
    match dpaPlace true dpa with
    | .hbm _ => { s with hbm := s.hbm.put dpa d false }
    | .scr k a => s.scrWrite k a d false
    | _ => s

/-- A result buffer. -/
def State.result (s : State) (addr : W64) (d : List Byte) : State :=
  if d.isEmpty then s else (s.writeOut (addr.getLsbD 63) addr.toNat d).emit (.buffer addr.toNat d)

/-! ### Reserved fields (00 R12) -/

/-- What a write stores in a register whose fields are `fields`: a write of 1 to a reserved field has an unpredictable effect, which
is that the register takes a free value. -/
def State.defined (s : State) (fields v : W32) : State × W32 :=
  if v &&& ~~~ fields = 0 then (s, v) else (s.draw, Config.free32 s.freeCtr &&& fields)

/-! ### The link (R419 to R421, R456) -/

/-- HOST_LINK_TRAINED. -/
def execHostLinkTrained (width rate : Nat) (cxl : Bool) (s : State) : Host.Outcome State Fault Refusal :=
  accept (.hostLinkTrained width rate cxl) (
    if width = 0 || 16 < width || rate = 0 || 5 < rate then s
    else { s with host := { s.host with
      width := width, rate := rate, cxl := cxl && rate = 5 && (width = 16 || width = 8) } })

/-- The record of a command will be discarded. -/
def Cmd.muted (c : Cmd) : Cmd := { c with mute := true }

/-- A reply without its host. -/
def Reply.lost (r : Reply) : Reply :=
  match r with
  | .host _ => .none
  | r => r

/-- CXL.mem requests in flight: those that no run has served yet are discarded whole, the others complete on the device side. -/
def State.dropHostReqs (s : State) : State :=
  { s with
    plane := s.plane.filter fun (x : Nat × Option Msg) => match x.2 with
      | some (.hub r) => !r.reply.isHost
      | _ => true
    hbm := { s.hbm with
      el := (s.hbm.el.map fun (x : Nat × ElQueue) =>
        (x.1, { x.2 with reqs := x.2.reqs.filter fun e => !e.req.reply.isHost })).filter fun x => x.2 ≠ ElQueue.empty
      egress := s.hbm.egress.map fun (e : Egress) => { e with req := { e.req with reply := e.req.reply.lost } }
      acks := s.hbm.acks.map fun (a : WrAck) => { a with reply := a.reply.lost } } }

/-- A ring whose EN clears and whose records are discarded. -/
def Ring.cut (r : Ring) : Ring := { r with ctrl := r.ctrl &&& 0xFFFFFFFE, waiting := [], open_ := 0 }

/-- The link is down: until it has trained again DEV_STATE shows no link (DEDUCED). -/
def State.linkDown (s : State) : State :=
  let h := s.host
  let s := { s with
    host := { h with
      width := 0, rate := 0, cxl := false
      rings := (h.rings.map fun (x : Nat × Ring) => (x.1, x.2.cut)).filter fun x => x.2 ≠ Ring.zero
      elastic := h.elastic.map Cmd.muted, bulk := h.bulk.map Cmd.muted, stalled := h.stalled.map Cmd.muted
      exec := h.exec.map Cmd.muted
      hdm0 := { h.hdm0 with commit := false }
      hdm1 := { h.hdm1 with commit := false } }
    cfg := { s.cfg with bar2Sel := 0 } }
  s.dropHostReqs

/-- HOST_LINK_RESET. -/
def execHostLinkReset (s : State) : Host.Outcome State Fault Refusal := accept .hostLinkReset s.linkDown

/-- SNOOP: the device holds no line, so the answer is RspIHitI; without CXL.cache there is none. -/
def execSnoop (hpa : Nat) (s : State) : Host.Outcome State Fault Refusal :=
  accept (.snoop hpa) (if s.host.cxl then s.emit (.snoop hpa) else s)

/-! ### Rings (R429 to R434) -/

/-- A write of a ring's SQ_TAIL: a ring whose EN is 0 ignores it. -/
def State.writeSqTail (s : State) (ring : Nat) (v : W32) : State :=
  let r := s.ring ring
  if r.en then s.setRing ring { r with sqTail := v, bell := s.clk.tbt.toNat } else s

/-- A write of a ring's CQ_HEAD. -/
def State.writeCqHead (s : State) (ring : Nat) (v : W32) : State :=
  let r := s.ring ring
  if r.en then s.setRing ring { r with cqHead := v } else s

/-- DOORBELL_SQ_TAIL. -/
def execDoorbellSqTail (ring : Nat) (v : W32) (s : State) : Host.Outcome State Fault Refusal :=
  accept (.doorbellSqTail ring v) (s.writeSqTail ring v)

/-- DOORBELL_CQ_HEAD. -/
def execDoorbellCqHead (ring : Nat) (v : W32) (s : State) : Host.Outcome State Fault Refusal :=
  accept (.doorbellCqHead ring v) (s.writeCqHead ring v)

/-- RINGr_CTRL as a write leaves it: while EN is 1, LOC, SQLOG2 and CQLOG2 keep their values. -/
def ringCtrl (old v : W32) : W32 :=
  if old.getLsbD 0 then (old &&& 0xFFE) ||| (v &&& 0x1FF001) else v &&& 0x1FFFFF

/-- A write of RINGr_CTRL: setting EN sets HEAD and CQTAIL, and both doorbell counts, to 0. -/
def Ring.writeCtrl (r : Ring) (v : W32) : Ring :=
  let c := ringCtrl r.ctrl v
  if v.getLsbD 0 && !r.en then { r with ctrl := c, head := 0, cqtail := 0, sqTail := 0, cqHead := 0 }
  else { r with ctrl := c }

/-- A write of RINGr_CTRL (R433); ACTIVE is read-only. -/
def State.writeRingCtrl (s : State) (ring : Nat) (v : W32) : State :=
  let (s, v) := s.defined 0x3FFFFF v
  s.setRing ring ((s.ring ring).writeCtrl v)

/-- RING_ENABLE: a write of RINGr_CTRL with EN 1. -/
def execRingEnable (ring : Nat) (v : W32) (s : State) : Host.Outcome State Fault Refusal :=
  accept (.ringEnable ring v) (s.writeRingCtrl ring (v ||| 1))

/-- RING_DISABLE: a write of RINGr_CTRL with EN 0. -/
def execRingDisable (ring : Nat) (v : W32) (s : State) : Host.Outcome State Fault Refusal :=
  accept (.ringDisable ring v) (s.writeRingCtrl ring (v &&& 0xFFFFFFFE))

/-- A value clamped to a range. -/
def clamp (lo hi n : Nat) : Nat := max lo (min hi n)

/-- RINGr_DEFER of a ring. -/
def Cfg.deferOf (c : Cfg) (ring : Nat) : Nat := tget 100 c.defer ring

/-- A write of RINGr_DEFER (R434). -/
def State.writeDefer (s : State) (ring : Nat) (v : W32) : State :=
  { s with cfg := { s.cfg with defer := tput 100 s.cfg.defer ring (clamp 1 60000 v.toNat) } }

/-- RING_DEFER_WRITE. -/
def execRingDeferWrite (ring : Nat) (v : W32) (s : State) : Host.Outcome State Fault Refusal :=
  accept (.ringDeferWrite ring v) (s.writeDefer ring v)

/-! ### Completion records (R432, R437, R438) -/

/-- RFLAGS. -/
def CRec.rflags (x : CRec) (phase : Bool) : Nat :=
  fld (b2n phase) 0 1 + fld (b2n x.delayed) 1 1 + fld x.cls 2 2 + fld (b2n x.dvalid) 4 1 + fld (b2n x.runrec) 5 1

/-- The 32 bytes of a record. -/
def CRec.bytes (x : CRec) (phase : Bool) (now : W64) : List Byte :=
  leBytes x.tag 2 ++ leBytes x.status.code 1 ++ leBytes (x.rflags phase) 1 ++ leBytes x.detail.toNat 4
    ++ leBytes x.start.toNat 8 ++ leBytes now.toNat 8 ++ leBytes x.info.toNat 8

/-- PHASE of the record that a ring takes next: 1 in its first lap (R432). -/
def Ring.phase (r : Ring) : Bool := !bitAt r.cqtail.toNat r.cqLog

/-- Where a ring's next record goes. -/
def Ring.cqAddr (r : Ring) : Nat :=
  let base := if r.inDevice then r.cqbase.toNat % 2 ^ 48 else r.cqbase.toNat % 2 ^ 63
  base + r.cqtail.toNat % 2 ^ r.cqLog * 32

/-- COMPLETION_RECORD_WRITE: the first record that waits is written, unless the ring is full. -/
def execCompletionRecordWrite (ring : Nat) (s : State) : Host.Outcome State Fault Refusal :=
  accept (.completionRecordWrite ring) (
    let r := s.ring ring
    match r.waiting with
    | [] => s
    | x :: rest =>
      if r.full then s
      else
        let d := x.bytes r.phase s.clk.tbt
        let s := s.writeOut r.inDevice r.cqAddr d
        let s := s.emit (.record ring (r.cqtail.toNat % 2 ^ r.cqLog) d)
        let s := s.setRing ring { r with
          waiting := rest, cqtail := r.cqtail + 1, open_ := if x.runrec then r.open_ else r.open_ - 1 }
        if x.notify then s.emit (.vector r.vec) else s)

/-! ### Decoders and bias (R424, R427, R428) -/

def HostIf.hdm (h : HostIf) (n : Bool) : Hdm := if n then h.hdm1 else h.hdm0
def State.setHdm (s : State) (n : Bool) (x : Hdm) : State :=
  { s with host := if n then { s.host with hdm1 := x } else { s.host with hdm0 := x } }

/-- HDMn_DPA holds bits [47:28]. -/
def hdmDpa (v : W64) : W64 := v &&& 0xFFFFF0000000

/-- Whether two ranges of DPA overlap. -/
def overlaps (a n b m : Nat) : Bool := a < b + m && b < a + n && n ≠ 0 && m ≠ 0

/-- What makes a commit fail. -/
def commitFails (x other : Hdm) (size : Nat) : Bool :=
  0x011E00000000 < x.dpa.toNat + size
    || (other.commit && (overlaps x.dpa.toNat size other.map other.size || 2 ^ 40 < size + other.size))
    || 2 ^ 40 < size

/-- HDM_COMMIT of decoder 0 or 1, with its HPA window. In PCIe mode there are no decoders (R421). -/
def execHdmCommit (n : Bool) (base size : Nat) (s : State) : Host.Outcome State Fault Refusal :=
  accept (.hdmCommit n base size) (
    let x := s.host.hdm n
    if !s.host.cxl then s
    else if commitFails x (s.host.hdm !n) size then s.setHdm n { x with commit := false, err := true }
    else s.setHdm n { x with base := base, size := size, commit := true, err := false, map := x.dpa.toNat })

/-- Pages of a committed decoder: the first, and that after the last. -/
def Hdm.pages (x : Hdm) : Nat × Nat :=
  if x.commit then (x.map / 4096, x.map / 4096 + x.size / 4096) else (0, 0)

/-- Whether one of two ranges of pages, or both together, cover pages `a` to `b` - 1. -/
def coversFrom (x y : Nat × Nat) (a b : Nat) : Bool :=
  x.1 ≤ a && a < x.2 && (b ≤ x.2 || (y.1 ≤ x.2 && x.2 < y.2 && b ≤ y.2))

def HostIf.mapsPages (h : HostIf) (a b : Nat) : Bool :=
  b ≤ a || coversFrom h.hdm0.pages h.hdm1.pages a b || coversFrom h.hdm1.pages h.hdm0.pages a b

/-- A write of BIAS_CMD. While BUSY a GO is ignored; DIR is stored (00 R11). -/
def State.writeBiasCmd (s : State) (v : W32) : State :=
  let (s, v) := s.defined 0xF v
  let h := s.host
  let h := { h with biasDir := v.getLsbD 1 }
  if !v.getLsbD 0 || h.flip.isSome then { s with host := h }
  else
    let a := bits h.biasPage.toNat 0 36
    let n := bits h.biasN.toNat 0 29
    if h.mapsPages a (a + n) then { s with host := { h with biasErr := false, flip := some (a, n, !h.biasDir) } }
    else { s with host := { h with biasErr := true } }

/-- BIAS_FLIP_GO. -/
def execBiasFlipGo (v : W32) (s : State) : Host.Outcome State Fault Refusal :=
  accept (.biasFlipGo v) (s.writeBiasCmd v)

/-- BIAS_FLIP_DONE. -/
def execBiasFlipDone (s : State) : Host.Outcome State Fault Refusal :=
  accept .biasFlipDone (
    match s.host.flip with
    | none => s
    | some (a, n, dev) => { s with host := { s.host with flip := none, bias := setMarks s.host.bias a dev n } })

/-! ### CXL.mem (R425) -/

/-- The DPA that a committed decoder gives a range of host addresses. -/
def Hdm.maps (x : Hdm) (hpa len : Nat) : Option Nat :=
  if x.commit && x.base ≤ hpa && hpa + len ≤ x.base + x.size then some (x.map + (hpa - x.base)) else none

def HostIf.dpaOf (h : HostIf) (hpa len : Nat) : Option Nat :=
  if !h.cxl then none else (h.hdm0.maps hpa len).orElse fun _ => h.hdm1.maps hpa len

/-- Elastic requests of the host link: one for each granule (08 R227). -/
def State.hostReq (s : State) (hpa dpa : Nat) (r : MemReq) : State :=
  (r.cut dpa).foldl (fun (s : State) x =>
    s.put (.hub ⟨dpa + x.1, x.2, false, none, 0, ⟨s.fab.devId, 0xFF, false⟩, [], .host (hpa + x.1)⟩)) s

/-- HOST_CXL_MEM_READ. -/
def execHostCxlMemRead (hpa len : Nat) (s : State) : Host.Outcome State Fault Refusal :=
  accept (.hostCxlMemRead hpa len) (
    match s.host.dpaOf hpa len with
    | none => s
    | some dpa => if len = 0 then s else s.hostReq hpa dpa (.read len))

/-- HOST_CXL_MEM_WRITE. -/
def execHostCxlMemWrite (hpa : Nat) (data : List Byte) (poison : Bool) (s : State) : Host.Outcome State Fault Refusal :=
  accept (.hostCxlMemWrite hpa data poison) (
    match s.host.dpaOf hpa data.length with
    | none => s
    | some dpa =>
      if data.isEmpty then s
      else s.hostReq hpa dpa (.write data (List.replicate data.length poison)))

/-! ### BAR2 (R423, R456, 05 R163) -/

/-- A write of BAR2_SEL. -/
def State.writeBar2Sel (s : State) (v : W32) : State :=
  let (s, v) := s.defined 0x3F v
  { s with cfg := { s.cfg with bar2Sel := v.toNat % 64 } }

/-- BAR2_SEL_WRITE. -/
def execBar2SelWrite (v : W32) (s : State) : Host.Outcome State Fault Refusal :=
  accept (.bar2SelWrite v) (s.writeBar2Sel v)

def bar2Size : Nat := 0x4000000

/-- The core and the local address of a BAR2 offset. -/
def State.bar2Place (s : State) (off : Nat) : Nat × Nat := (2 * s.cfg.bar2Sel + off / scrBytes, off % scrBytes)

/-- The pieces of a read, one for each line. -/
def readPieces : Nat → Nat → Nat → List (Nat × Nat)
  | 0, _, _ => []
  | n + 1, a, len =>
    let k := 256 - a % 256
    if len ≤ k then [(a, len)] else (a, k) :: readPieces n (a + k) (len - k)

/-- BAR2_READ: one service-plane read for each line. It returns 0 while RESETTING. -/
def execBar2Read (off len : Nat) (s : State) : Host.Outcome State Fault Refusal :=
  accept (.bar2Read off len) (
    if len = 0 || bar2Size < off + len then s
    else if s.host.state = dRESETTING then s.emit (.data off (List.replicate len 0) false)
    else (readPieces len off len).foldl (fun (s : State) (x : Nat × Nat) =>
      let (k, a) := s.bar2Place x.1
      s.put (.remote k ⟨scrDpa k a, .read x.2, false, none, 0, ⟨s.fab.devId, 0xFF, false⟩, [], .host x.1⟩)) s)

/-- BAR2_WRITE: ignored while RESETTING. -/
def execBar2Write (off : Nat) (data : List Byte) (poison : Bool) (s : State) : Host.Outcome State Fault Refusal :=
  accept (.bar2Write off data poison) (
    if data.isEmpty || bar2Size < off + data.length || s.host.state = dRESETTING then s
    else (chunks off data).foldl (fun (s : State) (x : Nat × List Byte) =>
      let (k, a) := s.bar2Place x.1
      s.scrWrite k a x.2 poison) s)

end Sys2Proof.Machine
end

