-- ==== Sys2Proof/Machine/Design.lean ====
section
/-!
DEFINITION. Design-time values: what the capability registers report (04 R136; 05 R164; 14 R423; 03 R106).
-/

namespace Sys2Proof.Machine

/-- Spare rods per array (03 R106 MX_SPARE.SPARES). -/
def spareRods : Nat := 4

/-- CORE_CAP (04 R136): 256 lanes, ratio 2, 4 spare rods, 512 entries. -/
def coreCap : Nat := fld 256 0 9 + fld 2 9 3 + fld spareRods 12 3 + fld 512 16 10

/-- SCR_SIZE (05 R164): 2,048 rows, 64 columns, lines of 256 bytes. -/
def scrSize : Nat := fld 2048 0 16 + fld 64 16 8 + fld 8 24 4

/-- DEV_ID, DEV_CAP0, DEV_CAP1 (14 R423). -/
def devIdWord : Nat := 0x01109612
def devCap0 : Nat := fld 128 0 8 + fld 136 8 8 + fld 4 16 3 + fld 64 19 8 + fld 8 27 4
def devCap1 : Nat := fld 12 0 4 + fld 96 4 8 + fld 768 12 10 + fld 16 22 5 + fld 12 27 4

end Sys2Proof.Machine
end

