-- ==== Sys2Proof/Machine/Thermal.lean ====
section
/-!
DEFINITION. The THERMAL fault: its conditions, as the sensors and the power monitors last reported them, and what it does to a
run; the throttle step (16 R482; 17 R508, R511, R513, R515).
-/

namespace Sys2Proof.Machine

open Sys2Proof

/-- The core number of a fault that names no core: after every core (16 R484). -/
def noCore : Nat := 0x100

/-- Whether a job loaded with JOB_DETERMINISTIC is ARMED or RUNNING (17 R513). -/
def State.detArmed (s : State) : Bool := s.jobs.any fun x => x.2.det && (x.2.state = jARMED || x.2.state = jRUNNING)

/-- The watts that a power-cap code allows (17 R511). -/
def capWatts (code : Nat) : Nat := 2250 - 50 * code

/-- The first of the 164 sensors whose register has bit `k` (17 R526: 10 at or above T_THR, 11 at or above T_CRIT). -/
def MssState.hot (m : MssState) (k : Nat) : Option Nat := (upFrom 0 164).find? fun n => (tget 0 m.sensors n).getLsbD k

/-- Package power now, in whole watts (17 R510). -/
def MssState.watts (m : MssState) : Nat := (((upFrom 0 22).map fun r => bits (tget 0 m.rails r).toNat 32 16).sum + 5) / 10

/-- The hottest stack's sensor of the first hub that reports THERM_LIMIT. -/
def State.limited (s : State) : Option Nat :=
  ((upFrom 0 4).find? fun h => (s.hub h).therm).map fun h => 152 + 3 * h + (s.hub h).tempStk

/-- SPEC0 and SPEC1 of THERMAL for a sensor, and for the power cap (16 R482). -/
def State.thermalSensor (s : State) (n : Nat) : Nat × Nat :=
  (fld n 0 8 + fld (bits (tget 0 s.mss.sensors n).toNat 0 8) 8 8 + fld 0x1F 16 5, s.mss.watts)
def thermalPower (watts : Nat) : Nat × Nat := (fld 0xFF 0 8 + fld 0x1F 16 5 + fld 1 21 1, watts)

/-- Whether the 1 ms average, and the 10 ms average, is above the cap. -/
def MssState.over1 (m : MssState) : Bool := decide (capWatts m.pcapAct < m.pwr1)
def MssState.over10 (m : MssState) : Bool := decide (capWatts m.pcapAct < m.pwr10)

/-- What is critical whatever is armed: a sensor at or above T_CRIT, or THERM_LIMIT. -/
def State.critical (s : State) : Option Nat := (s.mss.hot 11).orElse fun _ => s.limited

/-- The THERMAL condition that holds, in the column of R513 for the jobs that are armed. None while the MSS is not up (R516). -/
def State.thermalNow (s : State) : Option (Nat × Nat) :=
  if !s.mss.up || s.mss.restart then none
  else
    match s.critical with
    | some n => some (s.thermalSensor n)
    | none =>
      if !s.detArmed then none
      else if s.mss.over10 then some (thermalPower s.mss.pwr10)
      else (s.mss.hot 10).map s.thermalSensor

/-- THERMAL on one run. -/
def State.thermalRun (s : State) (job run : Nat) (x : Nat × Nat) : State :=
  let (s, i) := s.logUnit 4 0 161 0x0C true job run x.1 x.2
  let j := (s.job job).modRun run fun r => r.mark 0x0C true s.clk.tbt.toNat noCore i .efault
  s.setJob job { j with faulting := true }

/-- An entry of TYPE 0x0006: sensor or rail, value, point (17 R517; notes/assumptions/27.md). -/
def State.ledgerThermal (s : State) (sensor value point : Nat) : State :=
  s.ledger 0x0006 (leBytes sensor 1 ++ leBytes value 2 ++ leBytes point 1)

/-- The ledger entry and the alert of a THERMAL action (17 R513). -/
def State.thermalNoted (s : State) (x : Nat × Nat) : State :=
  (s.ledgerThermal (bits x.1 0 8) (if bitAt x.1 21 then x.2 else bits x.1 8 8) s.mss.throttle).alert 3

/-- Runs of a job that no fault has ended. -/
def Job.sound (j : Job) : List Nat := (j.live.filter fun r => r.fault.isNone).map (·.idx)

/-- THERMAL on every run in progress. -/
def State.thermalAll (s : State) (x : Nat × Nat) : State :=
  let hit := s.jobs.flatMap fun (y : Nat × Job) => y.2.sound.map fun r => (y.1, r)
  if hit.isEmpty then s
  else
    (hit.foldl (fun (s : State) (y : Nat × Nat) => s.thermalRun y.1 y.2 x) s).thermalNoted x

/-- A run that starts while a THERMAL condition holds receives THERMAL in its first ccyc (17 R513). -/
def State.thermalStart (s : State) (job run : Nat) : State :=
  match s.thermalNow with
  | none => s
  | some x => (s.thermalRun job run x).thermalNoted x

/-! ### The throttle (17 R513 to R515) -/

/-- The operating point that the host's point and the throttle give. -/
def State.targetOp (s : State) : Nat := max s.clk.hostOp s.mss.throttle

/-- The throttle point becomes `n`: a change waits for its stop, or joins the stop that is pending (R515). -/
def State.setThrottle (s : State) (n : Nat) : State :=
  let s := { s with mss := { s.mss with throttle := n } }
  match s.clk.change with
  | some (p, some id, t) => if s.clk.stopped then s else { s with clk := { s.clk with change := some (max p n, some id, t) } }
  | some (_, none, t) => if s.clk.stopped then s else { s with clk := { s.clk with change := some (s.targetOp, none, t) } }
  | none =>
    if s.targetOp = s.clk.op then s
    else { s with clk := { s.clk with change := some (s.targetOp, none, s.clk.tbt.toNat) } }

/-- One throttle step for a sensor (0xFF: the power cap), to point `n`. -/
def State.throttleStep (s : State) (sensor value n : Nat) : State :=
  let s := { s with mss := { s.mss with lastThr := some s.clk.tbt.toNat } }
  ((s.setThrottle n).ledgerThermal sensor value n).alert 2

end Sys2Proof.Machine
end

