-- ==== Sys2Proof/Machine/Runs.lean ====
section
/-!
DEFINITION. The runs of a job: starts, ticks, retirement, the halt of a faulting run, deadlines, the progress watchdog and its
escalation (09 R277; 12 R372, R373; 15 R470, R475; 16 R483 to R491, R553).
-/

namespace Sys2Proof.Machine

open Sys2Proof

/-! ### Starts (09 R277, 12 R373) -/

/-- Whether R277 forbids a start: a run is before END on some core, or two runs are retiring. -/
def Job.forbids (j : Job) : Bool :=
  (j.live.any fun r => !r.toBegin.isEmpty || !r.toEnd.isEmpty) || 2 ≤ j.live.length

/-- A digest record that is still PENDING over a set that a later run starts to write is INCOMPLETE (15 R478). -/
def State.spoilDigests (s : State) (job set : Nat) : State :=
  let m := max 1 (s.job job).sets
  let hit := fun (d : Digest) => d.state = 1 && d.job = job && d.set % m = set % m
  { s with mss := { s.mss with
    digests := s.mss.digests.map fun (x : Nat × Digest) =>
      if hit x.2 then (x.1, { x.2 with state := 4, inp := [], outp := [] }) else x
    hashing := s.mss.hashing.filter fun i => !hit (tget Digest.empty s.mss.digests i) } }

/-- What a start names: its instant, set, deadline, delay, ring, tag and class. -/
structure StartArgs where
  start    : Nat
  set      : Nat
  deadline : Nat
  delay    : Nat
  ring     : Nat
  tag      : Nat
  cls      : Nat
  deriving DecidableEq, Repr

/-- How many ccyc the copy of core `k` is short of an instant (12 R373): a copy that has reached it is not. -/
def State.shortOf (s : State) (k t : Nat) : Nat :=
  ceilDiv ((t - (s.copyTbt (s.phys k)).toNat) * clock10 s.clk.op) 40

/-- Whether some core's copy of the timebase has reached an instant: a run of the job then begins there (12 R364, R373). -/
def State.reached (s : State) (job t : Nat) : Bool := (s.job job).placement.any fun k => t ≤ (s.copyTbt (s.phys k)).toNat

/-- A run of a job starts on each of its cores, in the first ccyc whose copy of the timebase is at or after its instant. -/
def State.startRun (s : State) (job : Nat) (a : StartArgs) : State :=
  let j := s.job job
  let busy := j.placement.filter fun k => (s.core k).ms.handler.isSome
  let r : Run :=
    { idx := j.runIdx, start := a.start, set := a.set, deadline := a.deadline, delay := a.delay, toBegin := busy
      toEnd := j.placement, hold := 0, ccyc := 0, stretch0 := none, stretch1 := 0
      slip := none, poison := none, halted := false, fault := none, op := s.clk.op, pcap := s.mss.pcapAct
      ring := a.ring, tag := a.tag, cls := a.cls }
  let s := s.spoilDigests job a.set
  let s := s.setJob job { j with state := jRUNNING, runIdx := j.runIdx + 1, live := j.live ++ [r] }
  (j.placement.foldl (fun (s : State) k =>
    let wait := s.shortOf k a.start
    s.onCore k fun env c => c.startRun env job r.idx wait) s).thermalStart job r.idx

/-- The ccyc by which a stop of the C-die delays a start that falls within it (12 R362, R373). -/
def State.stopDelay (s : State) (t : Nat) : Nat :=
  let e := s.clk.stopAt + s.clk.lastStop.toNat
  if s.clk.stopAt ≤ t && t < e then ccycOf s.clk.op (e - t) else 0

/-! ### The end of a job's runs (14 R445, R448) -/

/-- Where nothing of the job runs or waits any more, the job is DONE, or FAULTED; STOP commands complete. -/
def State.settleJob (s : State) (job : Nat) : State :=
  let j := s.job job
  let idle := j.live.isEmpty && j.starts.isEmpty && (match j.per with
    | some p => p.stopped
    | none => true)
  if j.state ≠ jRUNNING || !idle then s
  else
    let s := s.setJob job { j with state := if j.faulting then jFAULTED else jDONE, stopCmd := [], faulting := false }
    (j.stopCmd.foldl (fun (s : State) id => s.finish id .ok 0) s).settleDevice

/-- Pending starts and later ticks are cancelled (14 R448, 16 R483); the STARTs are refused (notes/assumptions/24.md). -/
def State.cancelStarts (s : State) (job : Nat) : State :=
  let j := s.job job
  let s := s.setJob job { j with
    starts := []
    per := j.per.map fun (p : Periodic) => { p with stopped := true } }
  j.starts.foldl (fun (s : State) (x : PendStart) => s.noRecord x.cmd .erefused) s

/-! ### Ticks and timed starts (12 R372, 14 R443, 15 R470, 16 R490, R553) -/

/-- A missed tick. -/
def State.missTick (s : State) (job : Nat) (p : Periodic) (t : Nat) : State :=
  let j := s.job job
  let (s, i) := s.logUnit 3 0 140 0x0B false job j.runIdx 3 t
  let s := s.addRecord j.ring
    { tag := p.tag, status := .etimeout, delayed := false, cls := p.cls, dvalid := false, runrec := true
      detail := BitVec.ofNat 32 i, start := BitVec.ofNat 64 t, info := 0, notify := true }
  s.setJob job { s.job job with
    per := some { p with tick := p.tick + 1, stopped := p.stopped || j.det }
    faulting := j.faulting || j.det }

/-- FRAME_TICK (R372, R373, R490). -/
def execFrameTick (job : Nat) (s : State) : Host.Outcome State Fault Refusal :=
  accept (.frameTick job) (
    let j := s.job job
    match j.per with
    | none => s
    | some p =>
      let t := tickAt p.epoch p.tick p.num p.den
      if p.stopped || j.state ≠ jRUNNING || !s.reached job t || s.gated then s
      else if j.forbids then s.missTick job p t
      else
        let last := p.limit ≠ 0 && p.limit ≤ j.runIdx + 1
        let s := s.setJob job { j with per := some { p with tick := p.tick + 1, stopped := last } }
        s.startRun job ⟨t, j.runIdx % p.nsets, p.deadline, s.stopDelay t, j.ring, p.tag, p.cls⟩)

/-- A start of a job that falls due. -/
def State.dueStart (s : State) (job : Nat) : Option (PendStart × List PendStart) := pick (fun x => s.reached job x.tbt) (s.job job).starts

/-- START_AT_TBT (R443, R553). -/
def execStartAtTbt (job : Nat) (s : State) : Host.Outcome State Fault Refusal :=
  accept (.startAtTbt job) (
    let j := s.job job
    match s.dueStart job with
    | none => s
    | some (x, rest) =>
      if s.gated then s
      else
        let s := s.setJob job { j with starts := rest }
        if j.forbids then (s.noRecord x.cmd .erefused).settleJob job
        else
          let (ring, tag, cls) := match s.cmd x.cmd with
            | some c => (c.ring, c.p.tag.toNat, c.cls)
            | none => (j.ring, 0, 0)
          let s := s.startRun job ⟨x.tbt, x.set, x.deadline, s.stopDelay x.tbt, ring, tag, cls⟩
          s.finish x.cmd .ok 0)

/-! ### Retirement (09 R277, 15 R457, R475 to R477) -/

/-- Whether everything that context `n` of a core started has completed. -/
def Core.quietCtx (c : Core) (n : Nat) : Bool :=
  !(c.dm.slots.any fun x => x.2.state = 2 && x.2.rctx = n) && !(c.dm.txns.any fun t => t.rctx = n)
    && !(c.ms.outs.any fun o => 2 ≤ o.op && o.rctx = n)

/-- The context of a core that holds a run. -/
def Core.ctxOf (c : Core) (job run : Nat) : Option Nat :=
  if c.rn.c0.used && c.rn.c0.job = job && c.rn.c0.run = run then some 0
  else if c.rn.c1.used && c.rn.c1.job = job && c.rn.c1.run = run then some 1
  else none

/-- Whether a run that has reached END everywhere can retire. -/
def State.canRetire (s : State) (job : Nat) (r : Run) : Bool :=
  r.toBegin.isEmpty && r.toEnd.isEmpty && r.fault.isNone
    && (s.job job).placement.all fun k => match (s.core k).ctxOf job r.idx with
      | some n => (s.core k).quietCtx n
      | none => true

/-- The run contexts of a run are free again. -/
def State.freeCtx (s : State) (job run : Nat) : State :=
  (s.job job).placement.foldl (fun (s : State) k => s.modCore k fun c =>
    match c.ctxOf job run with
    | some n => c.setRctx n RunCtx.free
    | none => c) s

/-- The configuration word of a run (15 R476). -/
def State.configWord (s : State) (j : Job) (r : Run) : W128 :=
  let balOff := !(s.queues.any fun x => x.2.state = 1 && x.2.bal && s.job x.2.job = j)
  BitVec.ofNat 128 (j.seed.toNat + fld r.op 64 3 + fld r.pcap 67 5 + fld (b2n j.det) 72 1 + fld (b2n j.audit) 73 1
    + fld (b2n j.fabSched) 74 1 + fld (b2n balOff) 75 1 + fld (b2n j.isa3) 76 1)

/-- The ranges of HBM of a role's bindings, in a buffer set (15 R464, R477). -/
def Job.ranges (j : Job) (role set : Nat) : List (Nat × Nat) :=
  (j.bindings.filter fun b => b.kind = 1 && b.role = role).map fun b => (b.value + (set % max 1 b.sets) * b.param, b.size)

/-- The digest record of a run that retires: PENDING, its inputs and outputs still to be hashed (15 R475). -/
def State.newDigest (s : State) (job : Nat) (r : Run) (st : Status) : State × Option Nat :=
  let j := s.job job
  if j.digest = 0 then (s, none)
  else
    let i := s.mss.digNext
    let d : Digest :=
      { state := 1, job := job, status := st, sign := j.digest = 2, skip := false, run := r.idx
        start := BitVec.ofNat 64 r.start, stop := s.clk.tbt, ccyc := BitVec.ofNat 64 r.ccyc
        stretch := BitVec.ofNat 64 r.stretches, config := s.configWord j r, prog := j.progDg, wgt := j.wgtDg
        inp := [], outp := [], sig := [], set := r.set
        ins := j.ranges 2 r.set, outs := j.ranges 3 r.set }
    ({ s with mss := { s.mss with
      digests := tput Digest.empty s.mss.digests i d, digNext := (i + 1) % 65536, hashing := (s.mss.hashing.filter fun x => x ≠ i) ++ [i]
      signing := s.mss.signing.filter fun x => x ≠ i } }, some i)

/-- RUN_RETIRE. -/
def execRunRetire (job run : Nat) (s : State) : Host.Outcome State Fault Refusal :=
  accept (.runRetire job run) (
    let j := s.job job
    match j.live.find? (fun r => r.idx = run) with
    | none => s
    | some r =>
      if !s.canRetire job r then s
      else
        let (s, dig) := s.newDigest job r r.status.1
        let s := s.runRecord r r.status.1 r.detail dig
        let s := s.freeCtx job run
        let j := s.job job
        (s.setJob job { j with
          live := j.live.filter fun x => x.idx ≠ run
          runs := j.runs + 1, lastStretch := BitVec.ofNat 64 r.stretches, lastEnd := s.clk.tbt }).settleJob job)

/-! ### The halt of a run (16 R483, R487, R489, R492) -/

/-- In-flight transfers of a run complete without raising tallies (09 R279, 16 R489). -/
def Core.muteCtx (c : Core) (n : Nat) : Core :=
  { c with dm := { c.dm with
    slots := c.dm.slots.map fun (x : Nat × Slot) => if x.2.rctx = n then (x.1, { x.2 with fault := true }) else x
    txns := c.dm.txns.map fun (t : Txn) => if t.rctx = n then { t with dead := true, raise := false } else t } }

/-- A fault trigger of the capture: none while LOCKED (R492). -/
def State.faultCapture (s : State) (cores : List Nat) (idx : Nat) : State :=
  if s.fl.capL || s.fl.capB then { s with fl := { s.fl with capSkip := satAdd s.fl.capSkip 1 } }
  else
    let log := match tget none s.fl.log idx with
      | some f => tput none s.fl.log idx (some { f with capt := true })
      | none => s.fl.log
    { s with fl := { s.fl with capB := true, capT := 1, capTbt := s.clk.tbt, capCores := cores, capIdx := idx, log := log } }

/-- Whether a halt reaches a core: the faulting run is in progress on it, or a later run has begun. -/
def Run.onCore (r : Run) (k : Nat) : Bool := r.toEnd.contains k && !r.toBegin.contains k

/-- The last ccyc of a run that is cut short: its die events have been counted (12 R355). -/
def Run.cut (r : Run) (n : W64) : Run := if r.toEnd.isEmpty then r else { r with stretch1 := n.toNat }

/-- The stretch count of the last of some runs. -/
def lastStretches (l : List Run) (old : W64) : W64 := (l.getLast?.map fun r => BitVec.ofNat 64 r.stretches).getD old

/-- A core on which a halted run waits for a handler to end does not begin it. -/
def Core.cancelStart (c : Core) : Core := { c with rn := { c.rn with startCtx := none } }

/-- RUN_HALT (R483): cores of the faulting run, and of later runs, stop; ticks and starts are cancelled. -/
def execRunHalt (job : Nat) (s : State) : Host.Outcome State Fault Refusal :=
  accept (.runHalt job) (
    if s.gated then s else
    let j := s.job job
    match j.live.find? (fun r => r.fault.isSome && !r.halted) with
    | none => s
    | some r =>
      match r.fault with
      | none => s
      | some f =>
        let hit := fun (x : Run) => x.idx = r.idx || r.idx < x.idx
        let cores := j.placement.filter fun k => j.live.any fun x => hit x && x.onCore k
        let why : Stop := if f.2.1 = noCore && f.2.2.2 = .etimeout then .deadline else .job
        let s := s.setJob job { j with
          faulting := true
          live := j.live.map fun (x : Run) => if hit x then { x.cut s.clk.stretch with halted := true, fault := some f } else x }
        let s := s.faultCapture j.placement f.2.2.1
        let s := cores.foldl (fun (s : State) k => s.onCore k fun _ c => c.halt why) s
        let s := (j.placement.filter fun k => j.live.any fun x => hit x && x.toBegin.contains k).foldl
          (fun (s : State) k => s.modCore k Core.cancelStart) s
        let s := if f.2.1 = noCore then
            j.placement.foldl (fun (s : State) k => s.modCore k fun c => match c.ctxOf job r.idx with
              | some n => c.muteCtx n
              | none => c) s
          else s
        s.cancelStarts job)

/-- Whether a core's issued operations have completed. -/
def Core.quiet (c : Core) : Bool := c.pend.isEmpty && c.pev.isEmpty && c.dm.txns.isEmpty

/-- HALT_QUIESCED (R483): the records of the halted runs; the job is FAULTED. A capture comes first (R492). -/
def execHaltQuiesced (job : Nat) (s : State) : Host.Outcome State Fault Refusal :=
  accept (.haltQuiesced job) (
    let j := s.job job
    let halted := j.live.filter fun r => r.halted
    let still := j.placement.any fun k => (s.core k).rn.stop ≠ .no && !(s.core k).quiet
    if halted.isEmpty || still || s.fl.capB then s
    else
      let s := halted.foldl (fun (s : State) r => (s.runRecord r r.status.1 r.detail none).freeCtx job r.idx) s
      let s := j.placement.foldl (fun (s : State) k =>
        if (s.core k).rn.stop = .no then s
        else s.modCore k fun (c : Core) => { c with rn := { c.rn with mode := 0, succ := none, after := none } }) s
      let s := s.setJob job { s.job job with
        state := jFAULTED, faulting := false, live := j.live.filter fun r => !r.halted, stopCmd := []
        lastStretch := lastStretches halted j.lastStretch, lastEnd := s.clk.tbt }
      (j.stopCmd.foldl (fun (s : State) id => s.finish id .ok 0) s).settleDevice)

/-! ### Deadlines and the watchdog (16 R488, R489) -/

/-- RUN_DEADLINE: the deadline of a run that has not retired. -/
def execRunDeadline (job run : Nat) (s : State) : Host.Outcome State Fault Refusal :=
  accept (.runDeadline job run) (
    let j := s.job job
    match j.live.find? (fun r => r.idx = run) with
    | none => s
    | some r =>
      let t := r.start + 4000 * r.deadline
      if r.deadline = 0 || s.clk.tbt.toNat < t || r.fault.isSome then s
      else
        let (s, i) := s.logUnit 3 0 140 0x0B true job run 2 t
        let j := (s.job job).modRun run fun r => r.mark 0x0B true s.clk.tbt.toNat noCore i .etimeout
        s.setJob job { j with faulting := true })

/-- WATCHDOG_NO_PROGRESS: active in a run, and while a handler runs. -/
def execWatchdogNoProgress (c delta : Nat) (s : State) : Host.Outcome State Fault Refusal :=
  accept (.watchdogNoProgress c delta) (
    let lim := 4000 * s.cfg.wdLimit
    s.onCore c fun env k =>
      let k := k.comeTo env delta
      let active := k.ms.handler.isSome || ((k.ctx k.rn.ctx).used && !(k.ctx k.rn.ctx).done)
      if lim = 0 || !active || k.rn.stop ≠ .no || env.tbt.toNat < k.rn.progress + lim then k
      else k.raise 0x0B true 7 0xFFFFFFFF 1 (k.rn.progress + lim) .etimeout)

/-! ### FAULTED (14 R444, 16 R491) -/

/-- The device enters FAULTED: every job is FAULTED, its runs end with EFAULT or the status of their fault, the C-die stops. -/
def State.deviceFault (s : State) (cause : Nat) (rec : Option Nat) : State :=
  let s := { s with
    host := { s.host with state := dFAULTED, fcause := cause }
    fl := { s.fl with autoAt := if s.cfg.rsAuto then some (s.clk.tbt.toNat + 4000000) else s.fl.autoAt }
    cores := s.cores.map fun (x : Nat × Core) => (x.1, x.2.halt .job) }
  (upFrom 0 64).foldl (fun (s : State) k =>
    let j := s.job k
    if j.state = jEMPTY then s
    else
      let s := s.cancelStarts k
      let s := j.live.foldl (fun (s : State) r =>
        let r : Run := match r.fault with
          | some _ => r
          | none => { r with fault := some (0, noCore, rec.getD 0xFFFF, .efault) }
        let r := r.cut s.clk.stretch
        (s.runRecord r r.status.1 r.detail none).freeCtx k r.idx) s
      let s := s.setJob k { s.job k with
        state := jFAULTED, live := [], faulting := false, stopCmd := []
        lastStretch := lastStretches (j.live.map fun r => r.cut s.clk.stretch) j.lastStretch
        lastEnd := if j.live.isEmpty then j.lastEnd else s.clk.tbt }
      j.stopCmd.foldl (fun (s : State) id => s.noRecord id .efault) s) s

/-- Whether bit `k` of PEND_CORE is set. -/
def State.markCore (s : State) (p : Nat) : State :=
  if s.fl.pendCore.contains p then s
  else { s with
    fl := { s.fl with pendCore := s.fl.pendCore ++ [p] } }

/-- QUIESCE_TIMEOUT (R491): a stopped core that has not completed its operations within 1 ms. -/
def execQuiesceTimeout (c : Nat) (s : State) : Host.Outcome State Fault Refusal :=
  accept (.quiesceTimeout c) (
    match s.fl.stops.find? (fun x => x.1 = c) with
    | none => s
    | some x =>
      let k := s.core c
      let t := x.2 + 4000000
      if s.clk.tbt.toNat < t || k.quiet || k.rn.stop = .no then s
      else
        let s := { s with fl := { s.fl with stops := s.fl.stops.filter fun y => y.1 ≠ c } }
        let s := s.logNamed c false ⟨0x0B, true, 7, 0xFFFFFFFF, 0, 4, BitVec.ofNat 64 t, .etimeout, k.rn.ctx⟩
        (s.markCore (s.phys c)).deviceFault 3 none)

end Sys2Proof.Machine
end

