-- ==== Sys2Proof/Machine/Landing.lean ====
section
/-!
DEFINITION. The landing unit's commands: packets, reads and atomics arrive, and it is told what to do at the end of a ccyc (05
R153 to R164; 10 R304, R305).
-/

namespace Sys2Proof.Machine

open Sys2Proof

/-- A packet enters the landing buffer. -/
def Core.hold (c : Core) (p : LinePkt) (win : Option Nat) : Core :=
  let c := { c with lu := { c.lu with
    buf := c.lu.buf ++ [Held.mk c.lu.arrNo p (splitLines p.addr p.data) win], arrNo := c.lu.arrNo + 1 } }
  let c := { c with lu := { c.lu with hwm := max c.lu.hwm c.lu.level } }
  if p.data.isEmpty then c.finishHeld else c

/-- A packet arrives. A full buffer withholds credit from service-plane senders: the packet waits (R161). -/
def Core.arrive (c : Core) (p : LinePkt) : Core :=
  if !p.kind.checked then c.hold p none
  else
    match c.lu.check p.addr p.data.length p.src.fabric with
    | .ok n => c.hold p (some n)
    | .error cause => c.reject p.src cause p.kind p.addr p.reply

/-- A read or an atomic joins those that wait. -/
def Core.queueRemote (c : Core) (r : Request) : Core :=
  { c with lu := { c.lu with remote := c.lu.remote ++ [(c.lu.arrNo, r)], arrNo := c.lu.arrNo + 1 } }

/-- A read or an atomic arrives: reads need no window (R162), atomics do (R155). -/
def Core.arriveRemote (c : Core) (r : Request) : Core :=
  let addr := r.dpa % scrBytes
  match r.req with
  | .atom op =>
    match c.lu.check addr (atomLen op) r.src.fabric with
    | .ok _ => c.queueRemote r
    | .error cause => c.reject r.src cause .write addr r.reply
  | _ => c.queueRemote r

/-- LANDING_ARRIVAL: packet `pkt` of the planes reaches its core, once its turn has come. While the clocks are gated it waits (12 R362). -/
def execLandingArrival (c delta pkt : Nat) (s : State) : Host.Outcome State Fault Refusal :=
  accept (.landingArrival c delta pkt) (
    if s.gated || !(s.msg pkt).elim false fun m => s.inTurn pkt m then s else
    match s.msg pkt with
    | some (.line k p) =>
      let now := { s.core c with fc := s.freeCtr }.comeTo (s.env c) delta
      let room := 256 ≥ now.lu.level + (splitLines p.addr p.data).length
      if k ≠ c then s
      else if s.fenced then (s.take pkt).fenceAnswer (.line k p)
      else if !p.sched && !room then s
      else (s.take pkt).onCore c fun env x => (x.comeTo env delta).arrive p
    | some (.remote k r) =>
      if k ≠ c then s
      else if s.fenced then (s.take pkt).fenceAnswer (.remote k r)
      else (s.take pkt).onCore c fun env x => (x.comeTo env delta).arriveRemote r
    | _ => s)

/-! ### What the landing unit is told to do at the end of a ccyc (R42, R154, R162, R190; 10 R304) -/

/-- LANDING_PLACEMENT: at the end of this ccyc the landing unit places lines. -/
def execLandingPlacement (c delta : Nat) (ecc : List EccObs) (s : State) : Host.Outcome State Fault Refusal :=
  accept (.landingPlacement c delta ecc) (s.onCore c fun env k =>
    let k := k.comeTo env delta
    { k with lu := { k.lu with place := some ecc } })

/-- REMOTE_READ_SERVE: at the end of this ccyc the landing unit serves a read. -/
def execRemoteReadServe (c delta : Nat) (ecc : List EccObs) (s : State) : Host.Outcome State Fault Refusal :=
  accept (.remoteReadServe c delta ecc) (s.onCore c fun env k =>
    let k := k.comeTo env delta
    { k with lu := { k.lu with serve := some ecc } })

/-- LANDING_ATOMIC: at the end of this ccyc the landing unit begins the oldest atomic. -/
def execLandingAtomic (c delta : Nat) (ecc : List EccObs) (s : State) : Host.Outcome State Fault Refusal :=
  accept (.landingAtomic c delta ecc) (s.onCore c fun env k =>
    let k := k.comeTo env delta
    { k with lu := { k.lu with atom := some ecc } })

end Sys2Proof.Machine
end

