-- ==== Sys2Proof/Machine/Hbm.lean ====
section
/-!
DEFINITION. The hubs: arrival of requests, the cut-off of a run, what leaves the hub and when, the link to the C-die, frames,
and patrol scrub (08).
-/

namespace Sys2Proof.Machine

open Sys2Proof

/-- Whether a reservation's direction admits a request (R230). -/
def Resv.admits (v : Resv) (r : MemReq) : Bool :=
  match r with
  | .read _ => v.dir ≠ 1
  | .write _ _ => v.dir ≠ 0
  | .atom _ => false
  | .scrub => false

/-- The request for a hub of an identity, once its turn has come. -/
def State.hubReq (s : State) (id : Nat) : Option Request :=
  match s.msg id with
  | some (.hub r) => if s.inTurn id (.hub r) then some r else none
  | _ => none

/-! ### Arrival (R234, R235, R242) -/

/-- A scheduled request is refused: cause 0x10 CAL_MISMATCH or 0x11 CAL_OVERRUN (status: notes/assumptions/30.md). -/
def State.calRefuse (s : State) (r : Request) (cause slot : Nat) : State :=
  let pc := pcOf r.dpa
  let s := s.modHub (hubOf pc) fun (h : Hub) =>
    if cause = 0x10 then { h with misCnt := satAdd h.misCnt 1 } else { h with ovrCnt := satAdd h.ovrCnt 1 }
  s.answer r.reply (if cause = 0x11 then .erefused else .efault) cause pc slot [] false

/-- Whether a request came from a core of this device. -/
def Request.mine (r : Request) : Bool := r.src.core < 128 && !r.src.fabric

/-- A request joins its reservation's queue. -/
def Resv.push (v : Resv) (pc : Nat) (r : Request) : Resv :=
  let q := tget [] v.queues pc ++ [r]
  { v with queues := tput [] v.queues pc q, hwm := tput 0 v.hwm (hubOf pc) (max (tget 0 v.hwm (hubOf pc)) q.length) }

def Hbm.res (h : Hbm) (i : Nat) : Resv := tget Resv.free h.resv i
def Hbm.setRes (h : Hbm) (i : Nat) (v : Resv) : Hbm := { h with resv := tput Resv.free h.resv i v }

/-- SCHED_REQUEST_ARRIVAL. A slot beyond the frame's 512 is no SCHED entry's. Under the fence what comes from the C-die is discarded
(R250). -/
def execSchedRequestArrival (req : Nat) (s : State) : Host.Outcome State Fault Refusal :=
  accept (.schedRequestArrival req) (
    match s.hubReq req with
    | none => s
    | some r =>
      match r.resv with
      | none => s
      | some slot =>
        let s := s.take req
        let pc := pcOf r.dpa
        let e := s.hbm.entry pc (slot / 8)
        let v := s.hbm.res e.res
        if (s.hub (hubOf pc)).cfence && r.mine then s
        else if 512 ≤ slot || e.kind ≠ 1 || !v.admits r.req || 2048 < r.dpa % 2048 + r.req.len then s.calRefuse r 0x10 slot
        else if 8 ≤ (tget [] v.queues pc).length then s.calRefuse r 0x11 slot
        else { s with hbm := s.hbm.setRes e.res (v.push pc r) })

/-- The source of an elastic request: 0 the service plane, 1 the ports, 2 the host link, 3 the hub, whose atomic units and patrol
scrub ask too (R242). -/
def Request.source (r : Request) : Nat :=
  match r.req with
  | .atom _ => 3
  | .scrub => 3
  | _ =>
  match r.reply with
  | .host _ => 2
  | .fabric .. => 1
  | .core .. => 0
  | _ => if r.src.fabric then 1 else if r.src.core = 0xFF then 3 else 0

def Hbm.queueOf (h : Hbm) (pc : Nat) : ElQueue := tget ElQueue.empty h.el pc
def Hbm.setQueueOf (h : Hbm) (pc : Nat) (q : ElQueue) : Hbm := { h with el := tput ElQueue.empty h.el pc q }

/-- ELASTIC_REQUEST_ARRIVAL: a full queue withholds credit, and the request waits. -/
def execElasticRequestArrival (req : Nat) (s : State) : Host.Outcome State Fault Refusal :=
  accept (.elasticRequestArrival req) (
    match s.hubReq req with
    | none => s
    | some r =>
      let pc := pcOf r.dpa
      let q := s.hbm.queueOf pc
      if r.resv.isSome || 64 ≤ q.reqs.length then s
      else
        let s := s.take req
        if (s.hub (hubOf pc)).cfence && r.mine then s else
        let s := { s with hbm := s.hbm.setQueueOf pc { q with reqs := q.reqs ++ [ElReq.mk r.source r] } }
        s.modHub (hubOf pc) fun (h : Hub) => { h with elHwm := max h.elHwm (q.reqs.length + 1) })

/-! ### The cut-off of a run (R235, R236, R238, R239, R242, R243) -/

/-- The parts of a range within the 256-byte blocks that slots move: address, offset, length. -/
def slotParts : Nat → Nat → Nat → Nat → List (Nat × Nat × Nat)
  | 0, _, _, _ => []
  | fuel + 1, a, off, len =>
    if len = 0 then []
    else
      let n := min len (256 - a % 256)
      (a, off, n) :: slotParts fuel (a + n) (off + n) (len - n)

/-- The slot, within its run, that moves an address. -/
def slotIn (a : Nat) : Nat := a % 2048 / 256

/-- The TBT at which slot `j` of run `run`, counted from TBT 0, begins. -/
def slotTbt (run j : Nat) : Nat := 256 * run + 32 * j

/-- Lines leave for a request: one for each part, or one answer with the last. -/
def egressOf (pc run : Nat) (r : Request) (parts : List (Nat × Nat × List Byte × Bool)) : List Egress :=
  let mk := fun (a off : Nat) (d : List Byte) (p : Bool) =>
    Egress.mk pc (8 * (run % 64) + slotIn a) (slotTbt run (slotIn a)) off d p r
  if r.dests.isEmpty then
    match parts.getLast? with
    | none => []
    | some l => [mk l.1 0 (parts.flatMap fun x => x.2.2.1) (parts.any fun x => x.2.2.2)]
  else parts.map fun x => mk x.1 x.2.1 x.2.2.1 x.2.2.2

def State.addEgress (s : State) (l : List Egress) : State :=
  { s with hbm := { s.hbm with egress := s.hbm.egress ++ l } }

/-- Whether an address lies where only firmware knows the contents: job store, master copies, firmware reserve (R224). -/
def firmwareArea (a : Nat) : Bool :=
  (0x011E00000000 ≤ a && a < 0x011F00000000) || (0x011F40000000 ≤ a && a < 0x011F50000000)
    || (0x011F58000000 ≤ a && a < hbmEnd)

/-- Bytes that a read of HBM returns: a queue's descriptor where descriptors lie (11 R311, R312), a free value where only firmware
knows the contents (notes/assumptions/61.md), else those stored. -/
def State.hbmData (s : State) (a len : Nat) : List Byte :=
  if firmwareArea a then freeBytes s.freeCtr a len
  else if 0x011F00000000 ≤ a && a < 0x011F40000000 then
    let q := (a - 0x011F00000000) / 1024
    (((s.queue q).query ++ (s.queue (q + 1)).query ++ (s.queue (q + 2)).query).drop (a % 1024)).take len
  else s.hbm.bytes a len

/-- A request is performed whole in its run; a scrub rewrites what was corrected, so that corrections count anew. `k` counts the bursts
that the run has read. -/
def State.perform (s : State) (pc run : Nat) (ecc : List EccObs) (k : Nat) (r : Request) : State × Nat :=
  match r.req with
  | .read len =>
    let bs := burstsOf r.dpa len
    let (s, ue) := State.hbmErrors ecc k bs s
    let part := fun (x : Nat × Nat × Nat) =>
      (x.1, x.2.1, s.hbmData x.1 x.2.2,
        s.hbm.poisoned x.1 x.2.2 || ue.any fun b => x.1 / 64 ≤ b && b ≤ (x.1 + x.2.2 - 1) / 64)
    let parts := (slotParts 16 r.dpa 0 len).map part
    let s := if firmwareArea r.dpa then s.draw else s
    (s.addEgress (egressOf pc run r parts), k + bs.length)
  | .write d marks =>
    let j := slotIn (r.dpa + d.length - 1)
    let s := { s with
      hbm := { s.hbm.write r.dpa d marks with
        acks := s.hbm.acks ++
          [WrAck.mk s.nextId (slotTbt run j + 64) pc (8 * (run % 64) + j) r.sched r.reply d.length] }
      nextId := s.nextId + 1 }
    (s, k)
  | .atom op =>
    let n := atomLen op
    let bs := burstsOf r.dpa n
    let (s, ue) := State.hbmErrors ecc k bs s
    let p := s.hbm.poisoned r.dpa n || !ue.isEmpty
    let old := BitVec.ofNat 64 (leVal (s.hbm.bytes r.dpa n))
    let s := { s with hbm := s.hbm.put r.dpa (leBytes (atomNew op old).toNat n) (p || op.p) }
    (s.addEgress (egressOf pc run { r with dests := [] } [(r.dpa, 0, leBytes old.toNat 8, p)]), k + bs.length)
  | .scrub =>
    let s := (State.hbmErrors ecc k (upFrom (r.dpa / 64) 32) s).1
    ({ s with hbm := { s.hbm with fixed := tdrop (fun b => b / 32 = r.dpa / 2048) s.hbm.fixed } }, k + 32)

/-- Requests performed in order within one run. -/
def State.performAll (pc run : Nat) (ecc : List EccObs) : Nat → List Request → State → State
  | _, [], s => s
  | k, r :: t, s =>
    let x := s.perform pc run ecc k r
    State.performAll pc run ecc x.2 t x.1

/-- The elastic request whose turn comes: the oldest of the first source, from `turn` on, that has one. -/
def ElQueue.next (q : ElQueue) : Option ElReq :=
  ((upFrom 0 4).map fun i => (q.turn + i) % 4).findSome? fun src => q.reqs.find? fun x => x.src = src

/-- An elastic run: the next request, and all pending ones of its granule, in order of arrival. -/
def State.elasticRun (s : State) (pc run : Nat) (ecc : List EccObs) (lent : Bool) : State :=
  let q := s.hbm.queueOf pc
  match q.next with
  | none => s
  | some x =>
    let g := x.req.dpa / 2048
    let now := q.reqs.filter fun y => y.req.dpa / 2048 = g
    let rest := ElQueue.mk (q.reqs.filter fun y => y.req.dpa / 2048 ≠ g) ((x.src + 1) % 4)
    let s := { s with hbm := s.hbm.setQueueOf pc rest }
    let s := if lent then s.modHub (hubOf pc) fun (h : Hub) => { h with lentCnt := satAdd h.lentCnt 1 } else s
    State.performAll pc run ecc 0 (now.map (·.req)) s

/-- The run, counted from TBT 0, whose cut-off falls in this hcyc. -/
def State.cutting (s : State) : Option Nat :=
  let t := s.clk.tbt.toNat + 128
  if s.clk.run && t / 2 % 128 = 0 then some (t / 256) else none

/-- The entry of a run at its cut-off: that of run 0 is the next frame's (R233). -/
def Hbm.entryAt (h : Hbm) (pc run : Nat) : CalEntry :=
  let e := h.entry pc run
  if run = 0 && e.pend then ⟨e.kind2, e.res2, false, 0, 0⟩ else e

/-- RUN_CUTOFF. -/
def execRunCutoff (pc run : Nat) (ecc : List EccObs) (s : State) : Host.Outcome State Fault Refusal :=
  accept (.runCutoff pc run ecc) (
    match s.cutting with
    | none => s
    | some n =>
      if n % 64 ≠ run || n < tget 0 s.hbm.last pc || !(s.hub (hubOf pc)).calRun then s
      else
        let s := { s with hbm := { s.hbm with last := tput 0 s.hbm.last pc (n + 1) } }
        let e := s.hbm.entryAt pc run
        match e.kind with
        | 0 => s.elasticRun pc n ecc false
        | 1 =>
          let v := s.hbm.res e.res
          match tget [] v.queues pc with
          | [] => s.elasticRun pc n ecc true
          | r :: rest =>
            let v := { v with
              queues := tput [] v.queues pc rest
              served := tput 0 v.served (hubOf pc) (satAdd (tget 0 v.served (hubOf pc)) 1) }
            State.performAll pc n ecc 0 [r] { s with hbm := s.hbm.setRes e.res v }
        | _ => s)

/-! ### What leaves the hub (R238, R239) -/

/-- A line leaves the hub. -/
def State.egress (s : State) (x : Egress) : State :=
  if x.req.dests.isEmpty then s.answer x.req.reply .ok 0 0 0 x.data x.pois
  else x.req.dests.foldl (fun (s : State) d =>
    s.put (.line d.core
      ⟨d.addr + x.off, x.data, x.pois, x.req.sched, x.req.src, d.kind, x.req.reply, some (x.pc, x.slot), s.walkOf x.req.reply⟩)) s

/-- HBM_READ_EGRESS: 360 hcyc after the slot began. -/
def execHbmReadEgress (pc slot : Nat) (s : State) : Host.Outcome State Fault Refusal :=
  accept (.hbmReadEgress pc slot) (
    match pick (fun (x : Egress) => x.pc = pc && x.slot = slot && x.tbt + 720 ≤ s.clk.tbt.toNat) s.hbm.egress with
    | none => s
    | some (x, rest) => ({ s with hbm := { s.hbm with egress := rest } }).egress x)

/-- HBM_WRITE_ACK: 32 hcyc after the start of the last written slot. -/
def execHbmWriteAck (req : Nat) (s : State) : Host.Outcome State Fault Refusal :=
  accept (.hbmWriteAck req) (
    match pick (fun (x : WrAck) => x.id = req && x.tbt ≤ s.clk.tbt.toNat) s.hbm.acks with
    | none => s
    | some (x, rest) =>
      ({ s with hbm := { s.hbm with acks := rest } }).answer x.reply .ok 0 x.pc x.slot [] false)

/-- HBM_UE_POISON_STORE, in an elastic run of the pseudo-channel (R247). -/
def execHbmUePoisonStore (pc : Nat) (s : State) : Host.Outcome State Fault Refusal :=
  accept (.hbmUePoisonStore pc) (
    match pick (fun (x : Nat × Nat) => x.1 = pc) s.hbm.store with
    | none => s
    | some (x, rest) =>
      if (s.hbm.entry pc (s.clk.tbt.toNat / 256 % 64)).kind ≠ 0 then s
      else { s with hbm := { s.hbm with store := rest, pois := tput false s.hbm.pois x.2 true } })

/-! ### The link to the C-die (R248) -/

/-- LINK_RETRY: a line that fails its check is sent again; nothing else follows. -/
def execLinkRetry (pkt : Nat) (s : State) : Host.Outcome State Fault Refusal := accept (.linkRetry pkt) s

/-- A SLIP of a core: KIND, the two islands, the skew, the pseudo-channel and slot (12 R358). -/
def State.slip (s : State) (c kind src dst skew pc slot : Nat) : State :=
  let k := s.core c
  let s := s.setCore c { k with rn := { k.rn with slip := true } }
  s.logCore c ⟨0x08, false, 7, 0xFFFFFFFF, k.rn.runCcyc,
    BitVec.ofNat 64 (fld kind 0 2 + fld src 2 8 + fld dst 10 8 + fld skew 18 6 + fld pc 32 10 + fld slot 42 9),
    s.copyTbt dst, .eslip, k.rn.ctx⟩

/-- A slip of the link between hub and C-die, for core `c`: PL takes the poisoned word (12 R349). -/
def State.linkSlipped (s : State) (c kind pc slot : Nat) : State :=
  let s := s.modHub (hubOf pc) fun (h : Hub) => { h with slipCnt := satAdd h.slipCnt 1 }
  s.slip c kind (140 + hubOf pc) 136 0 pc slot

/-- Whether an answer acknowledges a scheduled write to HBM. -/
def State.schedAck (s : State) (c : Nat) (a : Answer) : Bool :=
  match (s.core c).txn a.txn with
  | some t => t.out && t.sched && a.status = .ok && (match remotePlace (s.env c) t.addr with
    | .hbm _ => true
    | _ => false)
  | none => false

/-- LINK_SLIP: a scheduled line is replaced by a poisoned one, of unpredictable content; an acknowledgement arrives. -/
def execLinkSlip (pkt : Nat) (s : State) : Host.Outcome State Fault Refusal :=
  accept (.linkSlip pkt) (
    match s.msg pkt with
    | some (.line c p) =>
      match p.cal with
      | some (pc, slot) =>
        if !p.sched then s
        else
          let d := freeBytes s.freeCtr 0 p.data.length
          let s := { s.draw with plane := tput none s.plane pkt (some (.line c { p with data := d, poison := true, cal := none })) }
          s.linkSlipped c 0 pc slot
      | none => s
    | some (.answer c a) => if s.schedAck c a then s.linkSlipped c 1 a.pc a.slot else s
    | _ => s)

/-! ### Frames and scrub (R225, R233, R244) -/

/-- A pending change takes effect. -/
def CalEntry.turn (e : CalEntry) : CalEntry := if e.pend then ⟨e.kind2, e.res2, false, 0, 0⟩ else e

/-- The entries of every calendar at a frame boundary. -/
def turnCalendar : SMap CalEntry → SMap CalEntry
  | [] => []
  | (k, e) :: t => if e.turn = CalEntry.elastic then turnCalendar t else (k, e.turn) :: turnCalendar t

/-- What a released reservation's queues still hold joins the elastic queues, whose runs its runs now are (notes/assumptions/62.md). -/
def Hbm.handOn (h : Hbm) : Hbm :=
  (h.resv.filter fun x => x.2.gone).foldl (fun (h : Hbm) x =>
    x.2.queues.foldl (fun (h : Hbm) q =>
      let e := h.queueOf q.1
      h.setQueueOf q.1 { e with reqs := e.reqs ++ q.2.map fun r => ElReq.mk r.source r }) h) h

/-- CALENDAR_FRAME_BOUNDARY: pending changes take effect, and reservations released go. -/
def execCalendarFrameBoundary (s : State) : Host.Outcome State Fault Refusal :=
  accept .calendarFrameBoundary (
    let n := s.clk.tbt.toNat / 16384
    if !s.clk.run || n ≤ (s.hub 0).frame.toNat then s
    else
      let s := (upFrom 0 4).foldl (fun (s : State) h => s.modHub h fun (x : Hub) => { x with frame := BitVec.ofNat 64 n }) s
      let s := { s with hbm := s.hbm.handOn }
      { s with hbm := { s.hbm with
        cal := turnCalendar s.hbm.cal
        resv := s.hbm.resv.filter fun x => !x.2.gone } })

/-- PATROL_SCRUB of a granule: a request of the hub itself, which an elastic run serves; a full queue withholds credit (R242, R244). -/
def execPatrolScrub (hub granule : Nat) (s : State) : Host.Outcome State Fault Refusal :=
  accept (.patrolScrub hub granule) (
    let dpa := 2048 * granule
    let pc := pcOf dpa
    let q := s.hbm.queueOf pc
    if hub ≠ hubOf pc || hbmEnd ≤ dpa || 64 ≤ q.reqs.length then s
    else
      let r : Request := ⟨dpa, .scrub, false, none, 0, ⟨s.fab.devId, 0xFF, false⟩, [], .none⟩
      let s := { s with hbm := s.hbm.setQueueOf pc { q with reqs := q.reqs ++ [ElReq.mk r.source r] } }
      s.modHub hub fun (h : Hub) => { h with elHwm := max h.elHwm (q.reqs.length + 1) })

end Sys2Proof.Machine
end

