-- ==== Sys2Proof/Machine/Clocks.lean ====
section
/-!
DEFINITION. Clock islands, stretches and slips, the timebase and its references, and the stop for a change of operating point
(12).
-/

namespace Sys2Proof

/-- The code of a reference in a ledger entry (notes/assumptions/27.md). -/
def Reference.code : Reference → Nat
  | .sysclk => 0 | .fref n => 1 + n.val | .cxlclk => 5 | .pps => 6 | .upstream => 7

/-- Whether a reference is a clock. -/
def Reference.isClock : Reference → Bool
  | .pps => false
  | .upstream => false
  | _ => true

end Sys2Proof

namespace Sys2Proof.Machine

open Sys2Proof

/-! ### Stretches (R351 to R354) -/

/-- Time passes on a C-die island whose clock runs; answers the island's ccyc. Island 136 is PL. -/
def State.onIsland (s : State) (i delta : Nat) : State × Nat :=
  if s.gated then (s, 0)
  else if i = 136 then ({ s with clk := { s.clk with plNow := s.clk.plNow + delta } }, s.clk.plNow + delta)
  else
    match s.logical i with
    | none => (s, 0)
    | some k =>
      let s := s.onCore k fun env c => c.comeTo env delta
      (s, (s.core k).tm.now)

def Island.runs (x : Island) : Bool := x.present && x.clocked

/-- Whether the island took no stretch in ccyc d - 15 to d, and none is due. -/
def Island.rested (x : Island) (d : Nat) : Bool :=
  match x.last with
  | some l => l + 16 ≤ d
  | none => true

/-- Slip episodes whose difference has fallen to 8 or less end (R356). -/
def State.endSlips (s : State) : State :=
  { s with clk := { s.clk with isl := (s.clk.isl.map fun (x : Nat × Island) =>
    if x.2.slipped && s.clk.slack x.1 ≤ 8 then (x.1, { x.2 with slipped := false }) else x).filter fun x => x.2 ≠ Island.off } }

/-- DROOP_NOTICE: in ccyc d the notice threshold is crossed; ccyc d + 1 is stretched and PL gets a notice. -/
def execDroopNotice (island delta : Nat) (s : State) : Host.Outcome State Fault Refusal :=
  accept (.droopNotice island delta) (
    let (s, d) := s.onIsland island delta
    let x := s.island island
    if s.gated || !x.runs || !x.rested d then s
    else (s.setIsland island { x with last := some (d + 1), taken := x.taken + 1, notice := true }).endSlips)

/-- What an island does on a die event: an originator has taken its stretch already, with a notice or as a pending one. -/
def Island.event (x : Island) (i now n : Nat) : Island :=
  if x.notice then { x with notice := false }
  else if x.pend ≠ 0 then { x with pend := x.pend - 1 }
  else { x with taken := x.taken + 1, last := some (now + 1 + Config.eventDelay i n % 3) }

/-- The ccyc of an island. -/
def State.islandNow (s : State) (i : Nat) : Nat :=
  if i = 136 then s.clk.plNow
  else match s.logical i with
    | some k => (s.core k).tm.now
    | none => 0

/-- A die event reaches every C-die island. -/
def State.dieEvent (s : State) : State :=
  let n := s.clk.stretch.toNat
  ((upFrom 0 137).foldl (fun (s : State) i =>
    let x := s.island i
    if x.runs then s.setIsland i (x.event i (s.islandNow i) n) else s) s).endSlips

/-- DIE_EVENT_GRANT: a notice, or a pending stretch, asks for it. -/
def execDieEventGrant (delta : Nat) (s : State) : Host.Outcome State Fault Refusal :=
  accept (.dieEventGrant delta) (
    if s.gated then s else
    let now := s.clk.plNow + delta
    let s := { s with clk := { s.clk with plNow := now } }
    let asked := s.clk.isl.any fun x => x.1 ≤ 136 && x.2.runs && (x.2.notice || x.2.pend ≠ 0)
    let free := match s.clk.plLast with
      | some l => l + 16 ≤ now
      | none => true
    if !asked || !free then s
    else
      let s := s.dieEvent
      { s with clk := { s.clk with stretch := s.clk.stretch + 1, plLast := some now } })

/-- EMERGENCY_STRETCH: while R352 forbids a notice stretch, at most one in any 4 ccyc. -/
def execEmergencyStretch (island delta : Nat) (s : State) : Host.Outcome State Fault Refusal :=
  accept (.emergencyStretch island delta) (
    let (s, d) := s.onIsland island delta
    let x := s.island island
    let soon := match x.indep with
      | some l => d + 1 < l + 4
      | none => false
    if s.gated || !x.runs || x.rested d || soon then s
    else
      let s := s.setIsland island
        { x with last := some (d + 1), indep := some (d + 1), taken := x.taken + 1, pend := x.pend + 1 }
      ({ s with clk := { s.clk with indepCnt := satAdd s.clk.indepCnt 1 } }).endSlips)

/-- Whether a message crosses between core `c` and PL, towards the core or from it. -/
def Msg.crosses (m : Msg) (dev c : Nat) (toCore : Bool) : Bool :=
  let mine := fun (x : Source) => !x.fabric && x.dev = dev && x.core = c
  match m with
  | .line k p => if toCore then k = c else mine p.src
  | .remote k r => if toCore then k = c else mine r.src
  | .hub r => !toCore && mine r.src
  | .answer k _ => toCore && k = c
  | .queue q => !toCore && q.dev = dev && q.core = c
  | .qans a => toCore && a.core = c
  | _ => false

/-- Words of 64 bits of unspecified content. -/
def freeWords (n : Nat) (l : List W64) : List W64 := l.zipIdx.map fun x => Config.free64 (n + x.2)

/-- A message some of whose words are replaced by poisoned ones, of unspecified content; one that carries no data goes on as it is
(notes/assumptions/66.md). -/
def Msg.spoil (m : Msg) (n : Nat) : Msg :=
  let req := fun (q : MemReq) => match q with
    | .write data marks => MemReq.write (freeBytes n 0 data.length) (marks.map fun _ => true)
    | .atom op => .atom { op with b := Config.free64 n, c := Config.free64 (n + 1), p := true }
    | q => q
  match m with
  | .line k p => .line k { p with data := freeBytes n 0 p.data.length, poison := true }
  | .remote k r => .remote k { r with req := req r.req }
  | .hub r => .hub { r with req := req r.req }
  | .queue q => .queue { q with op := match q.op with
    | .send seq words _ => .send seq (freeWords n words) true
    | .csend key exact _ _ => .csend key exact (BitVec.ofNat 128 (leVal (freeBytes n 0 16))) true
    | .total seq sat partl words _ => .total seq sat partl (freeWords n words) true
    | op => op }
  | m => m

/-- CROSSING_SLIP (R356): outside its slack the crossing of core `c` replaces `words` words, of the messages `pkts`; SLIP once for each
episode. -/
def execCrossingSlip (c : Nat) (toCore : Bool) (words : Nat) (pkts : List Nat) (s : State) : Host.Outcome State Fault Refusal :=
  accept (.crossingSlip c toCore words pkts) (
    let i := s.phys c
    let hit := pkts.filter fun id => (s.msg id).elim false fun m => m.crosses s.fab.devId c toCore
    if s.gated || s.clk.slack i ≤ 8 || hit.isEmpty then s
    else
      let x := s.island i
      let s := { s with clk := { s.clk with slipCnt := satAdd s.clk.slipCnt (max words hit.length) } }
      let s := hit.foldl (fun (s : State) id => match s.msg id with
        | some m => { s.draw with plane := tput none s.plane id (some (m.spoil s.freeCtr)) }
        | none => s) s
      if x.slipped then s
      else
        let s := s.setIsland i { x with slipped := true }
        s.slip c 2 (if toCore then 136 else i) (if toCore then i else 136) (min 63 (s.clk.slack i)) 0 0)

/-! ### Calibration (R350, R375) -/

/-- The crossing of island `i` is calibrated: to the result that `given` names, or to a free one of `span` values; the take point is the
largest transit plus 4. The island runs, and is marked where its result exceeds 32; its pending stretches and its slack start anew. -/
def State.calibrate (s : State) (given : List (Nat × Nat)) (span i : Nat) : State :=
  let x := match given.find? fun (y : Nat × Nat) => y.1 = i with
    | some y => max 4 y.2
    | none => 4 + (Config.free32 s.freeCtr).toNat % span
  s.draw.setIsland i
    { Island.off with present := true, clocked := true, failed := decide (32 < x), xlat := x % 256, skew := (s.island i).skew + 1 }

/-! ### The timebase (R364, R365) -/

/-- TIMEBASE_COPY_CORRECTION: the copy's offset, within 8 ticks, is another one. -/
def execTimebaseCopyCorrection (island : Nat) (s : State) : Host.Outcome State Fault Refusal :=
  accept (.timebaseCopyCorrection island) (
    let x := s.island island
    if !s.gated && x.runs && island ≤ 136 then s.setIsland island { x with skew := x.skew + 1 } else s)

/-- The multiple of `n` nearest to `x`, as a number of multiples. -/
def nearest (x : Int) (n : Nat) : Int := (x + (n / 2 : Nat)) / (n : Int)

/-- Whether the device holds a placed reservation or an armed periodic job (R365). -/
def State.timeBusy (s : State) : Bool :=
  (s.hbm.resv.any fun x => x.2.valid && !x.2.gone)
    || s.jobs.any fun x => x.2.per.isSome && (x.2.state = jARMED || x.2.state = jRUNNING)

/-- A step of `m` frames at the next frame boundary, on every device of the cluster. -/
def State.planStep (s : State) (m : Int) : State :=
  if m = 0 then s
  else
    let t := (s.clk.tbt.toNat / 16384 + 1) * 16384
    let s := { s with clk := { s.clk with steps := s.clk.steps ++ [(t, m)] } }
    s.sendCluster (.step t m)

/-- Steering against an offset, in ppb (R366, R367). -/
def steerOf (e : Int) : W32 :=
  let n : Int := (Config.steerPpb e % 20001 : Nat)
  if e = 0 then 0 else BitVec.ofInt 32 (if 0 < e then -n else n)

/-- A step of the time-control command, by `x` ticks: the nearest whole number of frames; the remainder is steered. -/
def State.correct (s : State) (x : Int) : State :=
  let m := nearest x 16384
  ({ s with clk := { s.clk with steer := steerOf (16384 * m - x) } }).planStep m

/-- A step that takes the nearest whole number of frames from an offset `e` of the count; the remainder is steered away. The master's step
is that of the cluster. -/
def State.stepFrom (s : State) (e : Int) : State :=
  let m := -(nearest e 16384)
  let s := { s with clk := { s.clk with steer := steerOf (e + 16384 * m) } }
  if m = 0 then s
  else if s.clk.master then s.planStep m
  else { s with clk := { s.clk with steps := s.clk.steps ++ [((s.clk.tbt.toNat / 16384 + 1) * 16384, m)] } }

/-- The offset of the count is known to be `e`: it is steered away. The first alignment after BOOT steps, where nothing forbids it
(R365). -/
def State.align (s : State) (e : Int) : State :=
  let s := { s with clk := { s.clk with steer := steerOf e, offset := some e } }
  if s.host.state = dBOOT || s.clk.aligned then s
  else
    let s := { s with clk := { s.clk with aligned := true } }
    if s.timeBusy then s else s.stepFrom e

/-- The end of BOOT: the count is stepped where a reference is present (R365). -/
def State.bootStep (s : State) : State :=
  match s.clk.offset with
  | some e => s.stepFrom e
  | none => s

def State.ledgerRef (s : State) (r : Reference) : State :=
  s.ledger 0x0003 (leBytes r.code 1 ++ leBytes s.clk.holdTbt.toNat 8)

/-- References have returned: holdover ends when none is lost any more, and the ledger records it (R371). -/
def State.referenceBack (s : State) (rs : List Reference) : State :=
  let back := s.clk.lost.filter fun x => rs.contains x
  match back with
  | [] => s
  | r :: _ =>
    let l := s.clk.lost.filter fun x => !rs.contains x
    let s := { s with clk := { s.clk with lost := l, holdover := !l.isEmpty, refLost := l.any fun x => x.isClock } }
    if l.isEmpty then s.ledgerRef r else s

/-- PPS_IN_EDGE (R366). -/
def execPpsInEdge (s : State) : Host.Outcome State Fault Refusal :=
  accept .ppsInEdge (
    let t := s.clk.tbt.toNat
    let due := fun (p : Nat) => p + 4000000000 ≤ t + 4000000 && t ≤ p + 4004000000
    if !s.clk.master then s
    else if (s.clk.lastPps.map due).getD true then
      let e : Int := (t : Int) - nearest t 4000000000 * 4000000000
      let ok := -8 ≤ e && e ≤ 8
      let n := if ok then s.clk.valid + 1 else 0
      let s := { s with clk := { s.clk with
        ppsTbt := s.clk.tbt, ppsErr := BitVec.ofInt 32 e, ppsSeen := true, lastPps := some t, valid := n
        locked := if ok then s.clk.locked || 4 ≤ n else false } }
      let s := if s.clk.locked then s.referenceBack [.pps, .upstream] else s
      s.align e
    else { s with clk := { s.clk with ppsBad := satAdd s.clk.ppsBad 1 } })

/-! ### Time messages and PPS_OUT (R367, R369) -/

/-- Whether the upstream device is the partner of a port (R367, R374). -/
def Clocks.follows (c : Clocks) (port : Nat) : Bool := !c.master && c.upstream.getLsbD 31 && bits c.upstream.toNat 0 4 = port

/-- TIME_MESSAGE_SEND: to a device downstream. -/
def execTimeMessageSend (port : Nat) (s : State) : Host.Outcome State Fault Refusal :=
  accept (.timeMessageSend port) (
    if !(s.port port).up || s.clk.follows port then s
    else (s.setPort port { s.port port with tDep := none, tArr := none }).sendPartner port (.time (.request s.clk.locked)))

/-- PPS_OUT_RISE: within 2 ns of the multiple. -/
def execPpsOutRise (s : State) : Host.Outcome State Fault Refusal :=
  accept .ppsOutRise (
    if s.clk.run && s.clk.tbt.toNat % 4000000000 < 8 then { s with clk := { s.clk with ppsOut := true } } else s)

/-- PPS_OUT_FALL: after 400,000,000 ticks. -/
def execPpsOutFall (s : State) : Host.Outcome State Fault Refusal :=
  accept .ppsOutFall (
    if 400000000 ≤ s.clk.tbt.toNat % 4000000000 then { s with clk := { s.clk with ppsOut := false } } else s)

/-! ### References (R370, R371) -/

/-- A reference that this device monitors: PPS_IN on the master, time messages on the others. -/
def State.monitors (s : State) (r : Reference) : Bool :=
  match r with
  | .pps => s.clk.master
  | .upstream => !s.clk.master
  | _ => true

/-- Whether a reference can be lost now: PPS_IN after 3 seconds without a valid edge, the upstream device after 3 intervals of R367 without
a message; a clock's loss is its event. -/
def Clocks.silent (c : Clocks) (r : Reference) : Bool :=
  match r with
  | .pps => c.lastPps.getD 0 + 12000000000 ≤ c.tbt.toNat
  | .upstream => c.timeAt.getD 0 + 3 * 2 ^ 22 ≤ c.tbt.toNat
  | _ => true

/-- REFERENCE_LOSS. After a loss of PPS_IN the next edge is valid whenever it comes (notes/assumptions/28.md). Without CXL_REFCLK the host
link is down (14 R456). -/
def execReferenceLoss (r : Reference) (s : State) : Host.Outcome State Fault Refusal :=
  accept (.referenceLoss r) (
    if !s.monitors r || !s.clk.silent r || s.clk.lost.contains r then s
    else
      let s := if r = .cxlclk then s.linkDown else s
      let s := { s with clk := { s.clk with
        lost := s.clk.lost ++ [r], holdover := true, refLost := s.clk.refLost || r.isClock
        holdTbt := if s.clk.holdover then s.clk.holdTbt else s.clk.tbt
        lastPps := if r = Reference.pps then none else s.clk.lastPps
        locked := if r = Reference.pps then false else s.clk.locked
        valid := if r = Reference.pps then 0 else s.clk.valid } }
      (s.ledgerRef r).alert 0)

/-- HOLDOVER_END: a clock reference is stable again; PPS_IN once LOCKED is set again, the upstream device once a message has come. -/
def execHoldoverEnd (r : Reference) (s : State) : Host.Outcome State Fault Refusal :=
  accept (.holdoverEnd r) (
    let back := match r with
      | .pps => s.clk.locked
      | .upstream => !s.clk.silent .upstream
      | _ => true
    if back then s.referenceBack [r] else s)

/-! ### The stop for a change of operating point (R361 to R363, 17 R515) -/

/-- Whether a core is idle, or waits at a stop point. -/
def Core.atStop (c : Core) : Bool := c.rn.mode = 0 || c.rn.stop ≠ .no

/-- Whether the conditions of R361 hold. -/
def State.mayStop (s : State) : Bool :=
  s.cores.all (fun x => x.2.atStop)
    && s.jobs.all fun x =>
      let j := x.2
      !j.det || (j.live.isEmpty && (!(j.state = jARMED || j.state = jRUNNING) || j.per.isNone || match j.nextStart with
        | some t => s.clk.tbt.toNat + 20000 + 4000 ≤ t
        | none => true))

/-- The clocks of the C-die islands are gated, or run. -/
def State.gateClocks (s : State) (on : Bool) : State :=
  { s with clk := { s.clk with isl := s.clk.isl.map fun (x : Nat × Island) =>
    if x.1 ≤ 136 && x.2.present then (x.1, { x.2 with clocked := on }) else x } }

/-- OP_STOP_BEGIN. -/
def execOpStopBegin (s : State) : Host.Outcome State Fault Refusal :=
  accept .opStopBegin (
    if s.clk.change.isNone || s.clk.stopped || !s.mayStop then s
    else
      let s := s.gateClocks false
      { s with clk := { s.clk with stopped := true, stopAt := s.clk.tbt.toNat } })

/-- The cores that wait at stop points go on. -/
def State.resumeAll (s : State) : State := (upFrom 0 128).foldl State.resumeCore s

/-- The point that a SET_OP names. -/
def Cmd.point (c : Cmd) : Nat := bits c.p.p0.toNat 0 3

/-- The change after the one that has ended: the throttle's, or a SET_OP that waited for it (17 R515). -/
def State.nextChange (s : State) : State :=
  if s.targetOp ≠ s.clk.op then
    { s with clk := { s.clk with change := some (s.targetOp, none, s.clk.tbt.toNat) } }
  else
  match s.clk.joined with
  | [] => { s with clk := { s.clk with change := none } }
  | id :: rest =>
    let s := { s with clk := { s.clk with joined := rest } }
    match s.cmd id with
    | none => { s with clk := { s.clk with change := none } }
    | some c => { s with clk := { s.clk with change := some (max c.point s.mss.throttle, some id, s.clk.tbt.toNat) } }

/-- OP_STOP_RESUME, `ticks` ticks after the stop began: the clocks resume after step 3 of R362, at 4.9 µs, and by 5.0 µs. -/
def execOpStopResume (ticks : Nat) (s : State) : Host.Outcome State Fault Refusal :=
  accept (.opStopResume ticks) (
    match s.clk.change with
    | none => s
    | some (point, who, _) =>
      if !s.clk.stopped || ticks < 19600 || 20000 < ticks || s.clk.tbt.toNat < s.clk.stopAt + ticks then s
      else
        let host := match who.bind s.cmd with
          | some c => c.point
          | none => s.clk.hostOp
        let s := { s.gateClocks true with clk := { (s.gateClocks true).clk with
          stopped := false, op := point, hostOp := host, opChg := s.clk.opChg + 1, lastStop := BitVec.ofNat 32 ticks } }
        let s := match who with
          | some id => s.finish id .ok 0
          | none => s
        ({ s with clk := { s.clk with change := none } }).resumeAll.nextChange)

/-- SET_OP_TIMEOUT: 100 ms after the command, or after the throttle asked for the stop. A throttle stop that fails while its
condition persists raises THERMAL where nothing deterministic is armed (17 R513); the throttle asks again. -/
def execSetOpTimeout (s : State) : Host.Outcome State Fault Refusal :=
  accept .setOpTimeout (
    match s.clk.change with
    | none => s
    | some (_, who, t) =>
      if s.clk.stopped || s.clk.tbt.toNat < t + 400000000 then s
      else
        let s := { s with clk := { s.clk with change := none } }
        let s := match who with
          | some id => s.noRecord id .etimeout
          | none =>
            let cause := if s.mss.over1 then some (thermalPower s.mss.pwr1) else if s.mss.over10 then some (thermalPower s.mss.pwr10)
              else (s.mss.hot 10).map s.thermalSensor
            match cause with
            | some x => if s.detArmed then s else s.thermalAll x
            | none => s
        s.resumeAll.nextChange)

end Sys2Proof.Machine
end

