-- ==== Sys2Proof/Machine/Ports.lean ====
section
/-!
DEFINITION. The NDX ports: their states, lanes, fences and timeouts (13 R376 to R378, R402 to R408, R411).
-/

namespace Sys2Proof.Machine

open Sys2Proof

/-! ### Who asked (R382) -/

/-- The type that answers a request's type. -/
def answerType (type : Nat) : Nat :=
  match type with
  | 1 => 6 | 2 => 3 | 4 => 5 | _ => 0x0C

/-- Whether a type is that of a request. -/
def isRequest (type : Nat) : Bool := type = 1 || type = 2 || type = 4 || (8 ≤ type && type ≤ 0x0B)

/-- The requester of a packet. -/
def requester (h : Header) (port depart budget : Nat) : Reply :=
  .fabric port h.srcDev.toNat h.srcAg.toNat h.tag.toNat h.addr.toNat (answerType h.type.toNat) (h.vc = 0) depart budget

/-- A packet that cannot go on: a request is answered, a response discarded (R391, R403). -/
def State.bounce (s : State) (port : Nat) (h : Header) (st : Status) : State :=
  if isRequest h.type.toNat then s.answer (requester h port 0 0) st 6 0 0 [] false else s

/-! ### Routes and outstanding requests (R390, R392) -/

/-- Whether a port holds packets of VC1 or VC2 for a device, or entries of acknowledgements, that are not yet acknowledged. -/
def Port.holds (x : Port) (dev : Nat) : Bool :=
  ((x.txq ++ x.waitq ++ x.replayQ).any fun y => (y.hdr.vc = 1 || y.hdr.vc = 2) && fabDev y.hdr.addr.toNat = dev)
    || x.acks.any fun a => a.1 = dev

/-- Whether every packet for a device that went by a port has been acknowledged, or answered. -/
def State.drained (s : State) (p dev : Nat) : Bool :=
  !(s.port p).holds dev && !(s.fab.out.any fun o => o.port = p && o.dev = dev && !o.sched)

/-- What waited for a drained destination goes out on the new port. -/
def State.release1 (s : State) (m : Moved) : State :=
  match s.route m.dev with
  | none => s
  | some p =>
    let s := m.pkts.foldl (fun (s : State) x =>
      s.setPort p (if x.transit || x.hdr.vc ≠ 1 then (s.port p).push x else (s.port p).inject s.clk.tbt.toNat x)) s
    s.setPort p { s.port p with acks := (s.port p).acks ++ m.acks }

/-- Destinations whose old port has drained: what waited for it goes out. -/
def State.drainMoved (s : State) : State :=
  let done := s.fab.moved.filter fun m => s.drained m.port m.dev
  let s := { s with fab := { s.fab with moved := s.fab.moved.filter fun m => !done.contains m } }
  done.foldl State.release1 s

/-- The outstanding request of an agent and tag. -/
def State.outReply (s : State) (agent tag : Nat) : Option OutReq :=
  s.fab.out.find? fun o => o.tag = tag && o.agent = agent

def State.dropOut (s : State) (agent tag : Nat) : State :=
  { s with fab := { s.fab with out := s.fab.out.filter fun o => !(o.tag = tag && o.agent = agent) } }

/-- Every request outstanding by way of a port is answered EPEER_GONE. -/
def State.loseOut (s : State) (p : Nat) : State :=
  let l := s.fab.out.filter fun o => o.port = p
  let mine := fun (x : TxPkt) => l.any fun o => o.tag = x.hdr.tag.toNat && o.agent = x.hdr.srcAg.toNat
  let s := { s with fab := { s.fab with
    out := s.fab.out.filter fun o => o.port ≠ p
    moved := s.fab.moved.map fun (m : Moved) => { m with pkts := m.pkts.filter fun x => x.transit || !mine x } } }
  (l.foldl (fun (s : State) o => s.answer o.reply .epeerGone 6 0 0 [] false) s).drainMoved

/-- ALT_ACTIVE of an entry whose port is lost. -/
def switchRoute (p : Nat) (e : W32) : W32 :=
  if e.getLsbD 0 && bits e.toNat 2 4 = p && e.getLsbD 6 then e ||| 0x800 else e

def State.switchRoutes (s : State) (p : Nat) : State :=
  { s with fab := { s.fab with rt := s.fab.rt.map fun (x : Nat × W32) => (x.1, switchRoute p x.2) } }

/-- Ticks that a packet takes on the wire (R376, R380). -/
def Port.pktTicks (x : Port) : Nat :=
  (if x.enc then 13 else 12) * (if x.width = 4 then 1 else if x.width = 2 then 2 else 4)

/-! ### The states of a port (R378) -/

/-- A ledger entry of a port: port, state, cause, width. -/
def State.ledgerPort (s : State) (p : Nat) : State :=
  let x := s.port p
  s.ledger 0x0004 (leBytes p 1 ++ leBytes x.state 1 ++ leBytes x.cause 1 ++ leBytes x.width 1)

/-- An entry of TYPE 0x0005 for a peer's certificate: the port, the serial, and whether the exchange succeeded (R405). -/
def State.ledgerPeer (s : State) (p : Nat) (serial : List Byte) (good : Bool) : State :=
  s.ledger 0x0005 (leBytes p 1 ++ serial.take 20 ++ leBytes (b2n good) 1)

/-- What a port holds of a link is lost. -/
def Port.unlink (x : Port) : Port :=
  { x with
    txq := [], waitq := [], replayQ := [], again := [], nak := none, acks := [], seqTx := 0, seqRx := 0
    credit := [32, 64, 64, 8], owed := [0, 0, 0, 0], retrain := false, busy := 0, tDep := none, tArr := none }

/-- Adds 1 to a VC's entry. -/
def bump (l : List Nat) (vc : Nat) : List Nat := setNth l vc (l.getD vc 0 + 1)

/-- A packet of another device has left this one: its place in the receive buffer of its port is free, and credit for its VC goes back
(R388). -/
def State.freeBuffer (s : State) (y : TxPkt) : State :=
  match y.via with
  | some p => s.setPort p { s.port p with owed := bump (s.port p).owed y.hdr.vc.toNat }
  | none => s

/-- A port goes DOWN, or is FENCED: what it holds is answered, and routes switch. -/
def State.closePort (s : State) (p st cause : Nat) : State :=
  let x := s.port p
  let transit := (x.txq ++ x.waitq).filter fun y => y.transit
  let y := x.unlink
  let s := s.setPort p (if st = pDOWN then
      { y with state := st, cause := cause, width := 0, active := 0, spare := false, since := s.clk.tbt.toNat }
    else { y with state := st, cause := cause, since := s.clk.tbt.toNat })
  let s := transit.foldl (fun (s : State) y => (s.freeBuffer y).bounce p y.hdr .epeerGone) s
  ((s.loseOut p).switchRoutes p).drainMoved

/-- The port is FENCED (R403, R408). -/
def State.fence (s : State) (p cause : Nat) : State := ((s.closePort p pFENCED cause).ledgerPort p).alert 1

/-- Link bring-up begins. -/
def State.trainPort (s : State) (p : Nat) : State :=
  let x := (s.port p).unlink
  s.setPort p { x with
    state := pTRAINING, since := s.clk.tbt.toNat, enc := false, authOk := false, peer := 0, active := 0, failed := 0
    width := 0, spare := false, cert := [], nonces := [], key := [], encCount := 0, bad := [0, 0, 0, 0, 0]
    counts := [0, 0, 0, 0, 0], ueTbt := [] }

/-- CAL_SUSP (R397). -/
def Port.suspend (x : Port) : Port := { x with calSusp := decide (x.width < 4) || x.cfg.getLsbD 0 }

/-- The width that a number of lanes gives. -/
def widthOf (n : Nat) : Nat := if 4 ≤ n then 4 else if 2 ≤ n then 2 else n

/-- Lanes in a set. -/
def laneList (l : BitVec 5) : List Nat := (upFrom 0 5).filter fun k => l.getLsbD k
def laneSet (l : List Nat) : BitVec 5 := BitVec.ofNat 5 ((l.map fun k => 2 ^ k).foldl (· + ·) 0)

/-- Random bytes of the MSS (17 R520). -/
def State.random (s : State) (n : Nat) : State × List Byte :=
  ({ s with mss := { s.mss with draws := s.mss.draws + 1 } }, Config.random s.mss.draws n)

/-- PORT_TRAINING_DONE: the port enters AUTH, the link's delay and asymmetry are measured (R378), and it sends its certificate chain and a
nonce (R405). -/
def execPortTrainingDone (port : Nat) (lanes : Lanes) (link : LinkTimes) (s : State) : Host.Outcome State Fault Refusal :=
  accept (.portTrainingDone port lanes link) (
    let x := s.port port
    let l := (laneList lanes.good).take 4
    if x.state ≠ pTRAINING || l.isEmpty then s
    else
      let n := widthOf l.length
      let x := { x with
        dly := link.dly % 65536, asym := link.asym, state := pAUTH, since := s.clk.tbt.toNat, active := laneSet (l.take n), failed := lanes.failed
        width := n, spare := (l.take n).contains 4 }
      let (s, nonce) := (s.setPort port x.suspend).random 32
      let s := s.setPort port { s.port port with nonces := nonce }
      (s.sendPartner port (.auth (.chain s.mss.chain (BitVec.ofNat 4 port)))).sendPartner port (.auth (.nonce nonce)))

/-- PORT_AUTH_DONE (R405, R406). -/
def execPortAuthDone (port : Nat) (trusted signed enc : Bool) (serial : List Byte) (s : State) : Host.Outcome State Fault Refusal :=
  accept (.portAuthDone port trusted signed enc serial) (
    let x := s.port port
    if x.state ≠ pAUTH then s
    else
      let good := trusted && signed && (enc || !x.cfg.getLsbD 1)
      let s := s.ledgerPeer port serial good
      if good then
        s.setPort port { x with
          state := pJOIN, since := s.clk.tbt.toNat, authOk := true, enc := enc, encCount := 0 }
      else (s.closePort port pDOWN 2).ledgerPort port)

/-- The ID that the master gives a serial (R411): none where its map does not list it. -/
def Fabric.idFor (f : Fabric) (serial : List Byte) : Option Nat :=
  match f.ids.find? (fun x => x.1 = serial) with
  | some x => some x.2
  | none =>
    if f.map.isEmpty then (upFrom 1 4095).find? fun k => !(f.ids.any fun x => x.2 = k)
    else (f.map.find? fun x => x.1 = serial).map (·.2)

/-- PORT_JOIN_DONE: the master confirms or assigns the partner's ID, and route entries are installed. -/
def execPortJoinDone (port : Nat) (partner : BitVec 12) (partnerPort : BitVec 4) (serial : List Byte)
    (routes : List (Nat × W32)) (s : State) : Host.Outcome State Fault Refusal :=
  accept (.portJoinDone port partner partnerPort serial routes) (
    let x := s.port port
    let master := s.fab.role = 1
    let id := s.fab.idFor serial
    if x.state ≠ pJOIN || !s.fab.idValid || (master && id ≠ some partner.toNat) then s
    else
      let s := s.setPort port { x with
        state := pUP, since := s.clk.tbt.toNat
        peer := BitVec.ofNat 32 (partner.toNat + fld partnerPort.toNat 12 4 + fld 1 16 1) }
      let s := { s with fab := { s.fab with
        rt := routes.foldl (fun (m : SMap W32) r => if r.1 < 4096 then tput 0 m r.1 r.2 else m) s.fab.rt
        ids := if master && !(s.fab.ids.any fun y => y.1 = serial) then s.fab.ids ++ [(serial, partner.toNat)]
          else s.fab.ids } }
      if master then
        s.sendPartner port (.mgmt (.assignId partner (BitVec.ofNat 16 s.fab.epoch) (BitVec.ofNat 12 s.fab.devId)))
      else s)

/-- The limit, in ticks, and the cause, of a state of R378. -/
def stateLimit (st : Nat) : Option (Nat × Nat) :=
  match st with
  | 1 => some (2000000000, 1)
  | 2 => some (400000000, 2)
  | 3 => some (200000000, 3)
  | _ => none

/-- PORT_STATE_TIMEOUT. -/
def execPortStateTimeout (port : Nat) (s : State) : Host.Outcome State Fault Refusal :=
  accept (.portStateTimeout port) (
    let x := s.port port
    match stateLimit x.state with
    | none => s
    | some (t, cause) =>
      if s.clk.tbt.toNat < x.since + t then s
      else
        -- what the partner has presented is recorded, whether or not the exchange succeeds (R405)
        let s := if x.state = pAUTH && !x.cert.isEmpty then s.ledgerPeer port (Config.certSerial x.cert) false else s
        (s.closePort port pDOWN cause).ledgerPort port)

/-- PARTNER_LOST: the cause is NO_PARTNER. -/
def execPartnerLost (port : Nat) (s : State) : Host.Outcome State Fault Refusal :=
  accept (.partnerLost port) (
    if (s.port port).state = pDOWN then s else (s.closePort port pDOWN 1).ledgerPort port)

/-! ### Lanes (R404) -/

/-- Lanes go down to half the width: 20 µs of retrain. -/
def State.narrow (s : State) (p : Nat) (x : Port) (l : List Nat) : State :=
  let n := x.width / 2
  let s := s.setPort p ({ x with
    width := n, active := laneSet (l.take n), spare := (l.take n).contains 4, retrain := true
    busy := s.clk.tbt.toNat + 80000 }).suspend
  (s.ledgerPort p).alert 1

/-- A lane fails. -/
def State.laneFail (s : State) (p k : Nat) : State :=
  let x := s.port p
  if x.failed.getLsbD k || x.state = pDOWN then s
  else
    let y := { x with failed := x.failed ||| BitVec.ofNat 5 (2 ^ k) }
    let rest := (laneList x.active).filter fun i => i ≠ k
    if !x.active.getLsbD k then s.setPort p y
    else if x.width = 4 && !x.active.getLsbD 4 && !y.failed.getLsbD 4 then
      (s.setPort p { y with active := laneSet (rest ++ [4]), spare := true }).ledgerPort p
    else if 2 ≤ x.width then s.narrow p y rest
    else ((s.setPort p y).closePort p pDOWN 5).ledgerPort p

/-- The windows above the limit in a row, of each lane. -/
def badWindows : List Nat → List Nat → List Nat
  | b :: bs, e :: es => (if 10000 < e then b + 1 else 0) :: badWindows bs es
  | bs, [] => bs
  | [], _ => []

/-- FEC_WINDOW: a lane fails on its third window in a row. -/
def execFecWindow (port : Nat) (errors : List Nat) (s : State) : Host.Outcome State Fault Refusal :=
  accept (.fecWindow port errors) (
    let x := s.port port
    let b := badWindows x.bad errors
    let s := s.setPort port { x with bad := b.map fun n => if 3 ≤ n then 0 else n, counts := errors.take 5 }
    ((upFrom 0 5).filter fun k => 3 ≤ b.getD k 0).foldl (fun (s : State) k => s.laneFail port k) s)

/-- LANE_RETRAIN_DONE. -/
def execLaneRetrainDone (port : Nat) (s : State) : Host.Outcome State Fault Refusal :=
  accept (.laneRetrainDone port) (
    let x := s.port port
    if x.retrain && x.busy ≤ s.clk.tbt.toNat then s.setPort port { x with retrain := false } else s)

/-- LANE_LOSS_OF_LOCK. -/
def execLaneLossOfLock (port lane : Nat) (s : State) : Host.Outcome State Fault Refusal :=
  accept (.laneLossOfLock port lane) (s.laneFail port lane)

/-- The lane with the highest count, the lowest of equals. -/
def worstLane (l : List Nat) : Nat :=
  ((upFrom 0 5).foldl (fun (b : Nat) k => if l.getD b 0 < l.getD k 0 then k else b) 0)

/-- UNCORRECTABLE_CODEWORD: the fifth within one second fails a lane. -/
def execUncorrectableCodeword (port : Nat) (s : State) : Host.Outcome State Fault Refusal :=
  accept (.uncorrectableCodeword port) (
    let x := s.port port
    let t := s.clk.tbt.toNat
    let l := (x.ueTbt.filter fun u => t < u + 4000000000) ++ [t]
    let s := s.setPort port { x with fecUe := satAdd x.fecUe 1, ueTbt := if 4 < l.length then [] else l }
    if 4 < l.length then s.laneFail port (worstLane x.counts) else s)

/-! ### Credit and drops (R403, R408) -/

/-- CREDIT_TIMEOUT: NX_CRED_TMO is 200 µs. -/
def execCreditTimeout (port vc : Nat) (s : State) : Host.Outcome State Fault Refusal :=
  accept (.creditTimeout port vc) (
    let x := s.port port
    let t := s.clk.tbt.toNat
    let waits := (x.txq ++ x.waitq).any fun y => y.hdr.vc.toNat = vc && y.at0 + 800000 ≤ t
    if !x.up || !waits || x.credit.getD vc 0 ≠ 0 || t < x.credAt.getD vc 0 + 800000 then s else s.fence port 4)

/-- APERTURE_DROP_WINDOW: the millisecond ends. -/
def execApertureDropWindow (port : Nat) (s : State) : Host.Outcome State Fault Refusal :=
  accept (.apertureDropWindow port) (
    let x := s.port port
    let th := bits x.cfg.toNat 18 8
    let s := s.setPort port { x with drops := 0 }
    if th ≠ 0 && th < x.drops && x.state ≠ pDOWN && x.state ≠ pFENCED then s.fence port 6 else s)

end Sys2Proof.Machine
end

