-- ==== Sys2Proof/Machine/Packets.lean ====
section
/-!
DEFINITION. Packets as a port receives them: the checks of the link, the source, the aperture and the budget, and what each type
does (13 R379 to R393, R401, R405 to R414; 12 R367).
-/

namespace Sys2Proof.Machine

open Sys2Proof

/-! ### The link's checks (R381, R382, R387) -/

/-- Whether R382 permits a type on a VC. -/
def typeOk (type vc : Nat) : Bool :=
  if type = 1 || type = 2 then vc ≤ 1
  else if type = 4 || (8 ≤ type && type ≤ 0x0B) then vc = 1
  else if type = 3 || type = 5 || type = 6 || type = 0x0C then vc = 2
  else 0x10 ≤ type && type ≤ 0x12 && vc = 3

/-- Whether a type stands in the table of R382. -/
def knownType (type : Nat) : Bool := type = 1 || type = 2 || (3 ≤ type && type ≤ 6) || (8 ≤ type && type ≤ 0x0C)
  || (0x10 ≤ type && type ≤ 0x12)

/-- Whether a packet's payload has the length that its header gives, its CRC is that of R381 and its tag is good. -/
def PktGood (x : PktIn) (enc : Bool) : Bool :=
  x.data.length = (if x.hdr.type = 2 then 0 else x.hdr.len.toNat) && x.hdr.len.toNat ≤ 256
    && x.hdr.crc = x.hdr.crcOf x.data && (!enc || x.tagOk)

/-- The packets that a port takes in its state (R378). -/
def Port.takes (p : Port) (type : Nat) : Bool := p.up || ((p.state = pAUTH || p.state = pJOIN) && 0x10 ≤ type)

/-- A bad packet for another device whose copy has begun to leave by cut-through: the copy is ended with a stomp code (R387;
notes/assumptions/31.md). -/
def State.stompCopy (s : State) (h : Header) : State :=
  if h.vc = 0 || fabDev h.addr.toNat = s.fab.devId then s
  else
    match s.route (fabDev h.addr.toNat) with
    | none => s
    | some out =>
      let x := s.port out
      if !x.up || x.retrain || s.clk.tbt.toNat < x.busy || !x.txq.isEmpty || x.credit.getD h.vc.toNat 0 = 0 then s
      else
        (s.setPort out { x with
          seqTx := (x.seqTx + 1) % 4096, busy := s.clk.tbt.toNat + x.pktTicks
          credit := setNth x.credit h.vc.toNat (x.credit.getD h.vc.toNat 0 - 1) }).emit
          (.stomp out { h with hops := h.hops + 1, seq := BitVec.ofNat 12 x.seqTx })

/-- A packet reaches a port: answers whether it is one to act on. A packet out of sequence is one that will be replayed, or has
been taken already; a stomped copy takes its place in the sequence and is discarded (R387; notes/assumptions/31.md). Credit for a packet
that goes on returns when it leaves (R388). -/
def State.received (s : State) (x : PktIn) : State × Bool :=
  let p := s.port x.port
  let h := x.hdr
  if !p.takes h.type.toNat || h.seq.toNat ≠ p.seqRx then (s, false)
  else if x.stomp then
    (s.setPort x.port { p with seqRx := (p.seqRx + 1) % 4096, owed := bump p.owed h.vc.toNat }, false)
  else if !PktGood x p.enc then
    ((s.setPort x.port { p with crcCnt := satAdd p.crcCnt 1, nak := some h.seq.toNat }).stompCopy h, false)
  else
    let p := { p with rxPkt := p.rxPkt + 1, seqRx := (p.seqRx + 1) % 4096, owed := bump p.owed h.vc.toNat }
    if !typeOk h.type.toNat h.vc.toNat || h.hops = 15 then
      (s.setPort x.port { p with badPkt := satAdd p.badPkt 1 }, false)
    else (s.setPort x.port p, true)

/-! ### Transit (R391, R395) -/

/-- The place in the receive buffer stays taken while the packet waits (R388). -/
def State.keepBuffer (s : State) (port vc : Nat) : State :=
  let x := s.port port
  s.setPort port { x with owed := setNth x.owed vc (x.owed.getD vc 0 - 1) }

/-- A packet for another device goes on, or is bounced. -/
def State.forward (s : State) (port : Nat) (h : Header) (data : List Byte) (own : Option Own) : State :=
  let h := { h with hops := h.hops + 1 }
  let y : TxPkt := ⟨h, data, h.vc = 0 || (h.vc = 2 && h.status.getLsbD 3), s.clk.tbt.toNat, some port, 0, .none, own⟩
  if h.vc = 0 then
    let c := tget Circ.none s.fab.circ h.circ.toNat
    if !c.valid || c.term || !(s.port c.out).up then s.bounce port h .epeerGone
    else
      let s := { s with fab := { s.fab with
        circ := tput Circ.none s.fab.circ h.circ.toNat { c with cnt := satAdd c.cnt 1 } } }
      let s := s.keepBuffer port 0
      s.setPort c.out ((s.port c.out).push y)
  else
    match s.route (fabDev h.addr.toNat) with
    | none => s.bounce port h .epeerGone
    | some out =>
      if !(s.port out).up then s.bounce port h .epeerGone
      else
        let s := s.keepBuffer port h.vc.toNat
        if h.vc = 3 then s.setPort out ((s.port out).push y) else s.sendOn (fabDev h.addr.toNat) out y

/-! ### Source, aperture, budget (R393, R401, R407, R408) -/

/-- An entry of the drop log: cause 1 no aperture, 2 spoofed source (R416). -/
def State.dropLog (s : State) (port cause : Nat) (h : Header) : State :=
  let a := fld h.srcDev.toNat 0 12 + fld port 12 4 + fld h.type.toNat 16 5 + fld cause 21 3 + fld s.ns32.toNat 32 32
  { s with fab := { s.fab with
    drops := tput (0, 0) s.fab.drops s.fab.dropIdx (BitVec.ofNat 64 a, h.addr)
    dropIdx := (s.fab.dropIdx + 1) % 64 } }

/-- Whether the route entry of the source names the port. -/
def State.sourceOk (s : State) (port : Nat) (h : Header) : Bool :=
  let e := tget 0 s.fab.rt h.srcDev.toNat
  e.getLsbD 0 && (bits e.toNat 2 4 = port || (e.getLsbD 6 && bits e.toNat 7 4 = port))

/-- A packet that no aperture admits: at most one ledger entry for a port and second. -/
def State.apertureDrop (s : State) (port : Nat) (h : Header) : State :=
  let p := s.port port
  let s := s.setPort port { p with apDrop := satAdd p.apDrop 1, drops := p.drops + 1 }
  let s := s.dropLog port 1 h
  let sec := s.clk.tbt.toNat / 4000000000 + 1
  let s := if tget 0 s.mss.portLed port = sec then s
    else { s with mss := { s.mss with portLed := tput 0 s.mss.portLed port sec } }.ledgerPort port
  s.bounce port h .eaperture

/-- Whether a packet comes later than its budget allows. -/
def State.isLate (s : State) (h : Header) : Bool := h.budget ≠ 0 && h.budget.toNat < (s.ns32 - h.depart).toNat

def State.countLate (s : State) (port : Nat) (late : Bool) : State :=
  let p := s.port port
  if late then s.setPort port { p with lateCnt := satAdd p.lateCnt 1 } else s

/-- A circuit that ends here has carried a packet. -/
def State.countTerm (s : State) (h : Header) : State :=
  if h.vc ≠ 0 then s
  else
    let c := tget Circ.none s.fab.circ h.circ.toNat
    if c.valid then
      { s with fab := { s.fab with circ := tput Circ.none s.fab.circ h.circ.toNat { c with cnt := satAdd c.cnt 1 } } }
    else s

/-- A packet of a type reaches a port: another device's goes on; one for this device acts where its source is no spoof. VC3
packets of a link that is not UP are the partner's own; `own` is what a packet of VC3 carries. -/
def State.packet (s : State) (x : PktIn) (type : Nat) (own : Option Own) (act : State → State) : State :=
  let h := x.hdr
  if h.type.toNat ≠ type && knownType h.type.toNat then s
  else
    let r := s.received x
    if !r.2 then r.1
    else if !(s.port x.port).up then act r.1
    else if fabDev h.addr.toNat ≠ s.fab.devId then r.1.forward x.port h x.data own
    else if !s.sourceOk x.port h then
      let p := r.1.port x.port
      (r.1.setPort x.port { p with spoof := satAdd p.spoof 1 }).dropLog x.port 2 h
    else act (r.1.countTerm h)

/-- A packet of a type, for this device, that its apertures accept for bytes `lo` to `hi`. -/
def State.request (s : State) (x : PktIn) (type : Nat) (k : ApKind) (range : State → Option (Nat × Nat))
    (act : State → State) : State :=
  s.packet x type none fun s =>
    let ok := match range s with
      | some r => (s.port x.port).admits x.hdr.srcDev.toNat r.1 r.2 k (x.hdr.vc = 0)
      | none => (s.port x.port).ap.any fun a =>
        let c := a.2.ctrl.toNat
        bitAt c 0 && bitAt c k.bit && bits c 8 12 ≤ x.hdr.srcDev.toNat && x.hdr.srcDev.toNat ≤ bits c 20 12
    if ok then act s else s.apertureDrop x.port x.hdr

/-- The DPA and the range of a packet (R407). -/
def pktDpa (h : Header) : Nat := h.addr.toNat % 2 ^ 48
def pktRange (h : Header) (_ : State) : Option (Nat × Nat) := some (pktDpa h, pktDpa h + max 1 h.len.toNat - 1)

/-- The source that a packet names. -/
def pktSource (h : Header) : Source := ⟨h.srcDev.toNat, h.srcAg.toNat, true⟩

/-- A request that is not yet answered (R389). -/
def State.begun (s : State) (r : Reply) : State := { s with fab := { s.fab with inq := s.fab.inq ++ [r] } }

/-- A request to memory goes to its hub or its core. An elastic one that spans granules is cut (08 R227); a scheduled one is refused at
the hub (08 R234). -/
def State.toMemory (s : State) (x : PktIn) (req : MemReq) (r : Reply) : State :=
  let h := x.hdr
  let slot := h.vc = 0 && h.tsen
  let q : Request :=
    { dpa := pktDpa h, req := req, sched := slot, resv := if slot then some h.tslot.toNat else none, port := x.port
      src := pktSource h, dests := [], reply := r }
  match dpaPlace false (pktDpa h) with
  | .hbm dpa =>
    let parts := req.cut dpa
    if slot || parts.length ≤ 1 then s.put (.hub q)
    else
      let id := s.nextId
      let s := { s with nextId := id + 1, joins := s.joins ++ [(id, Join.mk parts.length [] false none r)] }
      parts.foldl (fun (s : State) y => s.put (.hub { q with dpa := dpa + y.1, req := y.2, reply := .part id y.1 })) s
  | .scr core _ =>
    if s.fenced then s.answer r .eresetTarget 5 0 0 [] false else s.put (.remote core { q with sched := h.vc = 0, resv := none })
  | _ => s.answer r .eaperture 4 0 0 [] false

/-! ### Requests (R382, R385; 10 R304; 11 R314 to R337) -/

/-- PKT_WRITE: late data is written poisoned (R401). -/
def execPktWrite (x : PktIn) (s : State) : Host.Outcome State Fault Refusal :=
  accept (.pktWrite x) (s.request x 1 .wr (pktRange x.hdr) fun s =>
    let h := x.hdr
    let late := s.isLate h
    let s := s.countLate x.port late
    let p := h.poison || late
    let r := requester h x.port 0 0
    let s := s.begun r
    match dpaPlace false (pktDpa h) with
    | .scr core a =>
      if s.fenced then s.answer r .eresetTarget 5 0 0 [] false
      else s.put (.line core ⟨a, x.data, p, h.vc = 0, pktSource h, .write, r, none, none⟩)
    | _ =>
      if x.data.isEmpty then s.answer r .ok 0 0 0 [] false
      else s.toMemory x (.write x.data (List.replicate x.data.length p)) r)

/-- The BUDGET of the answer to a VC0 READ: the read bound of R400 less 80 ns (R401). -/
def readBudget (h : Header) : Nat :=
  if h.vc ≠ 0 then 0
  else
    let row := if pktDpa h < hbmEnd && !h.tsen then 920 else 820
    row + 300 * (h.hops.toNat + 1 - 2)

/-- PKT_READ: a late one is counted. -/
def execPktRead (x : PktIn) (s : State) : Host.Outcome State Fault Refusal :=
  accept (.pktRead x) (s.request x 2 .rd (pktRange x.hdr) fun s =>
    let h := x.hdr
    let r := requester h x.port (if h.vc = 0 then h.depart.toNat else 0) (readBudget h)
    let s := (s.countLate x.port (s.isLate h)).begun r
    if h.len = 0 then s.answer r .ok 0 0 0 [] false else s.toMemory x (.read h.len.toNat) r)

/-- PKT_ATOMIC (10 R304): performed at the hub, or at the landing unit. -/
def execPktAtomic (x : PktIn) (s : State) : Host.Outcome State Fault Refusal :=
  accept (.pktAtomic x) (s.request x 4 .atom (pktRange x.hdr) fun s =>
    let h := x.hdr
    let op : AtomOp := ⟨h.w8, h.aop, h.sgn, BitVec.ofNat 64 (leAt x.data 0 8), BitVec.ofNat 64 (leAt x.data 8 8), h.poison⟩
    let r := requester h x.port 0 0
    (s.begun r).toMemory x (.atom op) r)

/-- The queue that a packet names. -/
def pktQid (h : Header) : Nat := h.addr.toNat % 2 ^ 20

/-- The range that a queue operation's aperture must cover: the ring of a PLAIN queue (R407). -/
def State.queueRange (s : State) (h : Header) : Option (Nat × Nat) :=
  let q := s.queue (pktQid h)
  if q.kind = 0 && q.state = 1 then some q.ring else none

/-- A queue request from another device goes to its placer. -/
def State.queuePacket (s : State) (x : PktIn) (type : Nat) (op : QOp) : State :=
  s.request x type .queue (fun s => s.queueRange x.hdr) fun s =>
    let h := x.hdr
    let a := h.addr.toNat
    let r := requester h x.port 0 0
    (s.begun r).put (.queue ⟨s.fab.devId * 2 ^ 20 + pktQid h, h.srcDev.toNat, h.srcAg.toNat, bits a 20 20, bits a 40 7,
      match op with
      | .opn cls => cls
      | _ => 0, op, r, s.clk.tbt.toNat⟩)

/-- PKT_QOPEN. -/
def execPktQopen (x : PktIn) (s : State) : Host.Outcome State Fault Refusal :=
  accept (.pktQopen x) (s.queuePacket x 8 (.opn (leAt x.data 3 1 % 4)))

/-- PKT_QSEND: a record, or a total of a combining queue. -/
def execPktQsend (x : PktIn) (s : State) : Host.Outcome State Fault Refusal :=
  let hdr := leAt x.data 0 8
  let words := (upFrom 0 (bits hdr 4 4)).map fun i => BitVec.ofNat 64 (leAt x.data (8 + 8 * i) 8)
  let p := bitAt hdr 3 || x.hdr.poison
  accept (.pktQsend x) (s.queuePacket x 9
    (if bits hdr 0 2 = 2 then .total (bits hdr 32 32) (bitAt hdr 28) (bitAt hdr 29) words p
      else .send (bits hdr 32 32) words p))

/-- PKT_QCSEND. -/
def execPktQcsend (x : PktIn) (s : State) : Host.Outcome State Fault Refusal :=
  accept (.pktQcsend x) (s.queuePacket x 0x0A
    (.csend (BitVec.ofNat 32 (leAt x.data 0 4)) (bitAt (leAt x.data 4 4) 0) (BitVec.ofNat 128 (leAt x.data 8 16))
      x.hdr.poison))

/-- PKT_QCLOSE. -/
def execPktQclose (x : PktIn) (s : State) : Host.Outcome State Fault Refusal :=
  accept (.pktQclose x) (s.queuePacket x 0x0B .close)

/-! ### Answers (R382 to R385) -/

/-- The DMA_ERR cause that a refused scheduled request's status names (notes/assumptions/30.md). -/
def farCause (st : Status) (sched : Bool) : Nat :=
  if !sched then 0 else match st with
    | .efault => 0x10
    | .erefused => 0x11
    | _ => 0

/-- An answer completes the outstanding request of an agent, tag and type. -/
def State.farAnswer (s : State) (agent tag type : Nat) (status : Nat) (data : List Byte) (poison : Bool) : State :=
  match s.outReply agent tag with
  | none => s
  | some o =>
    let st := (byteStatus status).1
    if o.type ≠ type then s
    else
      let s := s.answer o.reply st (farCause st o.sched) 0 0 (if st = .ok then data else []) poison
      (s.dropOut agent tag).drainMoved

/-- The answer that a header brings. -/
def State.pktAnswer (s : State) (h : Header) (type : Nat) (data : List Byte) (poison : Bool) : State :=
  s.farAnswer (addrAgent h.addr.toNat) h.tag.toNat type h.status.toNat data poison

/-- PKT_RRESP: late data is poisoned. -/
def execPktRresp (x : PktIn) (s : State) : Host.Outcome State Fault Refusal :=
  accept (.pktRresp x) (s.packet x 3 none fun s =>
    let late := s.isLate x.hdr
    (s.countLate x.port late).pktAnswer x.hdr 2 x.data (x.hdr.poison || late))

/-- PKT_ARESP. -/
def execPktAresp (x : PktIn) (s : State) : Host.Outcome State Fault Refusal :=
  accept (.pktAresp x) (s.packet x 5 none fun s => s.pktAnswer x.hdr 4 (x.data.take 8) x.hdr.poison)

/-- PKT_ACK: each entry completes a WRITE. -/
def execPktAck (x : PktIn) (s : State) : Host.Outcome State Fault Refusal :=
  accept (.pktAck x) (s.packet x 6 none fun s =>
    (upFrom 0 (x.data.length / 4)).foldl (fun (s : State) k =>
      let e := leAt x.data (4 * k) 4
      s.farAnswer (bits e 16 8) (bits e 0 16) 1 (bits e 24 8) [] false) s)

/-- PKT_QRESP: the answer to a queue operation, or credit that comes back (notes/assumptions/21.md). -/
def execPktQresp (x : PktIn) (s : State) : Host.Outcome State Fault Refusal :=
  accept (.pktQresp x) (s.packet x 0x0C none fun s =>
    let h := x.hdr
    let core := addrAgent h.addr.toNat
    if x.data.length = 8 then
      let w := leAt x.data 4 4
      s.put (.qans ⟨core, bits w 0 12, bits w 16 7, 5, .ok, leAt x.data 0 4, 0, none⟩)
    else
      match s.outReply core h.tag.toNat with
      | none => s
      | some o => if o.type < 8 then s else s.pktAnswer h o.type x.data h.poison)

/-! ### Time (12 R367) -/

/-- The stamps t1 and t4 of the upstream device come, and this side has t2 and t3: the offset, the link's asymmetry taken out, is steered
away (R365, R367). -/
def State.timeStamps (s : State) (port t1 t4 : Nat) : State :=
  let p := s.port port
  match p.tArr, p.tDep with
  | some t2, some t3 =>
    if !s.clk.follows port then s
    else
      let off : Int := (((t2 : Int) - t1) - ((t4 : Int) - t3) - p.asym) / 2
      let s := s.setPort port { p with tArr := none, tDep := none }
      ({ s with clk := { s.clk with syncErr := BitVec.ofInt 32 off } }).align off
  | _, _ => s

/-- PKT_TIME: the arrival is stamped. The downstream device answers its upstream device's message, which ends a holdover for want of one
(R371); the upstream device's stamps then go by link words (13 R386). -/
def execPktTime (x : PktIn) (b : TimeBody) (s : State) : Host.Outcome State Fault Refusal :=
  accept (.pktTime x b) (s.packet x 0x10 (some (.time b)) fun s =>
    let t := s.clk.tbt.toNat
    let p := s.port x.port
    match b with
    | .request locked =>
      if !s.clk.follows x.port then s
      else
        let s := s.setPort x.port { p with tArr := some t, tDep := none }
        let s := { s with clk := { s.clk with timeAt := some t, locked := locked } }
        (s.referenceBack [.pps, .upstream]).sendPartner x.port (.time .answer)
    | .answer => if s.clk.follows x.port || p.tDep.isNone then s else s.setPort x.port { p with tArr := some t })

/-! ### Cluster management (R391, R394, R395, R411, R413) -/

/-- The number that a serial spells, its first byte the highest. -/
def serialNum (l : List Byte) : Nat := l.foldl (fun n b => 256 * n + b.toNat) 0

/-- A heartbeat: of two masters the one with the higher epoch, then the lower ID, remains, and the other is a member (R413). Of two primary
candidates, which both have ID 0, the one with the lower serial becomes master; the other is an alternate without an ID (R410). -/
def State.heartbeat (s : State) (epoch master : Nat) (serial : List Byte) : State :=
  let f := s.fab
  let rival := f.role = 1 && f.epoch = epoch && master = f.devId && serialNum serial < serialNum s.mss.serial
  let yields := f.epoch < epoch || (f.epoch = epoch && master < f.devId)
  if f.role = 1 && rival then
    { s with
      clk := { s.clk with master := false }
      fab := { f with role := 2, idValid := false, masterId := master, heard := s.clk.tbt.toNat } }
  else if f.role = 1 && !yields then s
  else
    let s := if f.role = 1 then { s with clk := { s.clk with master := false } } else s
    { s with fab := { s.fab with
      role := if f.role = 1 then 0 else f.role, epoch := epoch, masterId := master, heard := s.clk.tbt.toNat } }

/-- A pending change to a slot of a port's calendar. -/
def Port.pendSlot (p : Port) (slot : Nat) (res : Bool) (circ : Nat) : Port :=
  { p with cal := tput FCal.free p.cal slot { tget FCal.free p.cal slot with pend := true, res2 := res, circ2 := circ } }

/-- The circuit entry that a CIRCc_CTRL spells (R416). -/
def circOf (ctrl budget job : Nat) : Circ where
  valid := bitAt ctrl 0
  origin := bitAt ctrl 1
  term := bitAt ctrl 2
  out := bits ctrl 3 4
  next := bits ctrl 7 12
  dst := bits ctrl 19 12
  core := bits ctrl 31 8
  nslot := bits ctrl 39 10
  fgap := bits ctrl 49 11
  budget := budget
  cnt := 0
  job := job
  gone := false

/-- A circuit is installed at this device: its entry, and its slots from the next frame boundary on. -/
def State.installCircuit (s : State) (id : Nat) (c : Circ) (slots : List Nat) : State :=
  let s := { s with fab := { s.fab with circ := tput Circ.none s.fab.circ id c } }
  if c.term then s
  else s.setPort c.out (slots.foldl (fun (p : Port) k => p.pendSlot k true id) (s.port c.out))

/-- A circuit is removed: its slots go at the next frame boundary, its entry with them. -/
def State.removeCircuit (s : State) (id : Nat) : State :=
  let c := tget Circ.none s.fab.circ id
  let s := { s with fab := { s.fab with circ := tput Circ.none s.fab.circ id { c with gone := true } } }
  if !c.valid || c.term then s
  else
    let p := s.port c.out
    let mine := p.cal.filter fun x => (x.2.res && x.2.circ = id) || (x.2.pend && x.2.res2 && x.2.circ2 = id)
    s.setPort c.out (mine.foldl (fun (p : Port) x => p.pendSlot x.1 false 0) p)

/-- PKT_MGMT. -/
def execPktMgmt (x : PktIn) (b : MgmtBody) (s : State) : Host.Outcome State Fault Refusal :=
  accept (.pktMgmt x b) (s.packet x 0x11 (some (.mgmt b)) fun s =>
    match b with
    | .heartbeat epoch master serial => s.heartbeat epoch.toNat master.toNat serial
    | .assignId devId epoch master =>
      if s.fab.idValid then s
      else { s with fab := { s.fab with
        devId := devId.toNat, idValid := true, epoch := epoch.toNat, masterId := master.toNat
        heard := s.clk.tbt.toNat } }
    | .routes entries => { s with fab := { s.fab with newRt := s.fab.newRt ++ entries.filter fun r => r.1 < 4096 } }
    | .circuit id ctrl budget slots =>
      if 4096 ≤ id then s
      else s.installCircuit id (circOf ctrl.toNat budget.toNat 0xFF) (slots.filter fun k => k < 1024 && k % 16 ≠ 15)
    | .removeCircuit id => if 4096 ≤ id then s else s.removeCircuit id
    | .timeUpstream port device depth =>
      { s with clk := { s.clk with
        upstream := BitVec.ofNat 32 (port.toNat + fld device.toNat 4 12 + fld depth.toNat 16 4 + fld 1 31 1) } }
    | .step at0 frames => { s with clk := { s.clk with steps := s.clk.steps ++ [(at0, frames)] } })

/-! ### Authentication (R405, R406) -/

/-- What this device signs: both nonces, both chains, both port numbers and its measured delay (notes/assumptions/68.md). -/
def State.transcript (s : State) (port : Nat) : List Byte :=
  let p := s.port port
  p.nonces ++ p.cert ++ s.mss.chain ++ leBytes port 1 ++ leBytes (bits p.peer.toNat 12 4) 1 ++ leBytes p.dly 2

/-- The share of this side goes to the partner, and is kept. -/
def State.sendShare (s : State) (port : Nat) : State :=
  let (s, share) := s.random 32
  let p := s.port port
  (s.setPort port { p with key := share }).sendPartner port (.auth (.share (Config.oaep p.cert share)))

/-- The key of a direction, 0 that of this side's packets, from both shares and both nonces (R406; notes/assumptions/68.md). -/
def linkKey (mine theirs nonces : List Byte) (dir : Nat) : List Byte :=
  (Config.sha512 (mine ++ theirs ++ nonces ++ leBytes dir 1)).take 32

/-- PKT_AUTH: what the partner sends is kept, and this device sends its part. PORT_AUTH_DONE brings the outcome. -/
def execPktAuth (x : PktIn) (b : AuthBody) (s : State) : Host.Outcome State Fault Refusal :=
  accept (.pktAuth x b) (s.packet x 0x12 (some (.auth b)) fun s =>
    let p := s.port x.port
    if p.state ≠ pAUTH then s
    else
      match b with
      | .chain cert port => s.setPort x.port { p with cert := cert, peer := BitVec.ofNat 32 (fld port.toNat 12 4) }
      | .nonce n =>
        let s := s.setPort x.port { p with nonces := p.nonces ++ n }
        s.sendPartner x.port (.auth (.signature (Config.deviceSign (s.transcript x.port))))
      | .signature _ =>
        if p.cfg.getLsbD 1 then s.sendShare x.port else s
      | .share enc =>
        let s := if p.key.isEmpty then s.sendShare x.port else s
        let p := s.port x.port
        let key := linkKey p.key (Config.oaepOpen enc) p.nonces
        s.setPort x.port { p with key := key 0 ++ key 1 })

/-! ### Transit -/

/-- PKT_TRANSIT: a packet for another device. -/
def execPktTransit (x : PktIn) (s : State) : Host.Outcome State Fault Refusal :=
  accept (.pktTransit x) (
    if fabDev x.hdr.addr.toNat = s.fab.devId && knownType x.hdr.type.toNat then s
    else s.packet x x.hdr.type.toNat none fun s => s)

end Sys2Proof.Machine
end

