-- ==== Sys2Proof/Machine/Transmit.lean ====
section
/-!
DEFINITION. What a port sends and when: fabric slots, classes, replays, acknowledgements, link words; the frame of the fabric,
heartbeats and the takeover (13 R380, R385 to R387, R390 to R401, R413).
-/

namespace Sys2Proof.Machine

open Sys2Proof

/-! ### Time on the wire (R376, R380, R394, R396) -/

/-- The circuit that a slot is reserved to, on a port whose calendar runs. -/
def Port.slotCirc (x : Port) (slot : Nat) : Option Nat :=
  let f := tget FCal.free x.cal slot
  if x.calSusp || slot % 16 = 15 || !f.res then none else some f.circ

/-- Whether a packet that begins at `t` ends by the start of the next reserved or FIXED slot. -/
def Port.fits (x : Port) (t : Nat) : Bool :=
  (upFrom (t / 16 + 1) 4).all fun k =>
    t + x.pktTicks ≤ 16 * k || !(k % 16 = 15 || (x.slotCirc (k % 1024)).isSome)

/-! ### Classes (R396, R397) -/

/-- The class of a waiting packet, none for one that waits for its slot: a transit VC0 packet has missed its slot 101 ns after
it came (R395). -/
def TxPkt.class (y : TxPkt) (susp : Bool) (t : Nat) : Option Nat :=
  match y.hdr.vc.toNat with
  | 0 => if susp then some 5 else if y.transit && y.at0 + 404 < t then some 2 else none
  | 1 => some 6
  | 2 => if y.sched then some 2 else some 4
  | _ => some 3

/-- The first waiting packet of a class that has credit. -/
def Port.firstOf (x : Port) (t cls : Nat) : Option TxPkt :=
  x.txq.find? fun y => y.class x.calSusp t = some cls && x.credit.getD y.hdr.vc.toNat 0 ≠ 0

/-- The entries of a device's next ACK: all that are present, up to 64 (R385). -/
def Port.ackEntries (x : Port) (dev : Nat) : List (Nat × Bool × Nat × Nat × Nat) := (x.acks.filter fun a => a.1 = dev).take 64

/-- The device of the oldest entry whose ACK is, or is not, of scheduled class. -/
def Port.nextAck (x : Port) (sched : Bool) : Option Nat :=
  if x.credit.getD 2 0 = 0 then none
  else (x.acks.find? fun a => ((x.ackEntries a.1).any fun b => b.2.1) = sched).map fun a => a.1

/-- What a port sends next. -/
inductive Send where
  | replay (seq : Nat)
  | ack (dev : Nat)
  | pkt (y : TxPkt)
  deriving DecidableEq, Repr

def Port.choose (x : Port) (t : Nat) : Option Send :=
  match x.again with
  | n :: _ => some (.replay n)
  | [] =>
    let of := fun (k : Nat) => (x.firstOf t k).map Send.pkt
    let ack := fun (b : Bool) => (x.nextAck b).map Send.ack
    (ack true).orElse fun _ => (of 2).orElse fun _ => (of 3).orElse fun _ => (ack false).orElse fun _ =>
      (of 4).orElse fun _ => (of 5).orElse fun _ => of 6

/-! ### Sending (R380, R381, R387, R401) -/

/-- A list without its first element equal to `a`. -/
def dropFirst {α : Type} [DecidableEq α] (a : α) : List α → List α
  | [] => []
  | b :: t => if b = a then t else b :: dropFirst a t

/-- A header as it leaves: the circuit of the next device, BUDGET and DEPART at the origin, SEQ, and the origin's CRC. -/
def finalHeader (y : TxPkt) (c : Circ) (now : W32) (seq : Nat) : Header :=
  let h := y.hdr
  let h := { h with circ := if h.vc = 0 then BitVec.ofNat 12 c.next else h.circ, seq := BitVec.ofNat 12 seq }
  if y.transit then h
  else
    let h := { h with
      budget := if h.vc = 0 then BitVec.ofNat 16 c.budget else h.budget
      depart := if h.vc ≠ 0 && h.budget ≠ 0 then h.depart else now }
    { h with crc := h.crcOf y.data }

/-- What a packet puts on the wire. -/
def TxPkt.sent (y : TxPkt) (p : Nat) (h : Header) : Out :=
  match y.own with
  | some b => .own p h b
  | none => .packet p h y.data

/-- A time packet's departure is stamped at the SerDes (12 R367). -/
def TxPkt.stamp (y : TxPkt) (t : Nat) (old : Option Nat) : Option Nat :=
  match y.own with
  | some (.time _) => if y.transit then old else some t
  | _ => old

/-- A packet leaves a port. While replays wait it stands behind them: the receiver discards it now, and takes the replay (R387). -/
def State.transmit (s : State) (p : Nat) (y : TxPkt) : State :=
  let x := s.port p
  let id := y.hdr.circ.toNat
  let c := tget Circ.none s.fab.circ id
  let h := finalHeader y c s.ns32 x.seqTx
  let s := if y.hdr.vc = 0 && !y.transit then
      { s with fab := { s.fab with circ := tput Circ.none s.fab.circ id { c with cnt := satAdd c.cnt 1 } } }
    else s
  let v := y.hdr.vc.toNat
  ((s.setPort p { x with
    txq := dropFirst y x.txq, seqTx := (x.seqTx + 1) % 4096, txPkt := x.txPkt + 1
    again := if x.again.isEmpty then [] else x.again ++ [x.seqTx], tDep := y.stamp s.clk.tbt.toNat x.tDep
    credit := setNth x.credit v (x.credit.getD v 0 - 1), replayQ := x.replayQ ++ [{ y with hdr := h }]
    busy := s.clk.tbt.toNat + x.pktTicks, encCount := if x.enc then x.encCount + 1 else x.encCount }).freeBuffer y).emit
    (y.sent p h)

/-- An ACK for a device (R385). -/
def State.sendAck (s : State) (p dev : Nat) : State :=
  let x := s.port p
  let l := x.ackEntries dev
  let sched := l.any fun a => a.2.1
  let data := l.flatMap fun a => leBytes (fld a.2.2.1 0 16 + fld a.2.2.2.1 16 8 + fld a.2.2.2.2 24 8) 4
  let h : Header :=
    { addr := BitVec.ofNat 64 (agentAddr dev 0xFF), type := 6, vc := 2, poison := false, len := BitVec.ofNat 9 data.length
      srcDev := BitVec.ofNat 12 s.fab.devId, srcAg := 0xFF, circ := 0, tsen := false, tslot := 0, hops := 0, tag := 0
      status := BitVec.ofNat 8 (statusByte .ok sched), aop := 0, w8 := false, sgn := false, depart := 0, budget := 0
      seq := 0, crc := 0 }
  let rest := l.foldl (fun (r : List (Nat × Bool × Nat × Nat × Nat)) a => dropFirst a r) x.acks
  (s.setPort p { x with acks := rest }).transmit p ⟨h, data, sched, s.clk.tbt.toNat, none, 0, .none, none⟩

/-- A replay (R387): the second one of a packet is counted and goes to the ledger. -/
def State.replay (s : State) (p n : Nat) : State :=
  let x := s.port p
  let x := { x with again := x.again.filter fun k => k ≠ n }
  match x.replayQ.find? (fun y => y.hdr.seq.toNat = n) with
  | none => s.setPort p x
  | some y =>
    let q := x.replayQ.map fun (z : TxPkt) => if z.hdr.seq.toNat = n then { z with reps := z.reps + 1 } else z
    let s := s.setPort p { x with
      replayQ := q, replays := satAdd x.replays 1, replay2 := if y.reps = 1 then satAdd x.replay2 1 else x.replay2
      busy := s.clk.tbt.toNat + x.pktTicks, tDep := y.stamp s.clk.tbt.toNat x.tDep }
    let s := if y.reps = 1 then s.ledgerPort p else s
    s.emit (y.sent p y.hdr)

def State.sendOf (s : State) (p : Nat) : Send → State
  | .replay n => s.replay p n
  | .ack dev => s.sendAck p dev
  | .pkt y => s.transmit p y

/-- Packets of this device's agents that a port admits now (R398). -/
def Port.admitWaiting (x : Port) (t : Nat) : Port :=
  match pick (fun (y : TxPkt) => x.admitsNow t y.hdr.vc) x.waitq with
  | none => x
  | some (y, rest) =>
    let above := bits x.cfg.toNat 2 8 < x.depth y.hdr.vc
    let x := { x with waitq := rest }
    if above then { x.push y with lastInj := t } else x.push y

/-- FABRIC_SLOT: a transmit opportunity of a port, or a slot reserved to a circuit. -/
def execFabricSlot (port : Nat) (s : State) : Host.Outcome State Fault Refusal :=
  accept (.fabricSlot port) (
    let t := s.clk.tbt.toNat
    let x := s.port port
    if !x.linked || x.retrain || t < x.busy then s
    else
      let x := x.admitWaiting t
      let k := t / 16
      let fresh := x.slotSeen ≤ k
      let x := { x with slotSeen := k + 1 }
      let other := fun (s : State) =>
        if !x.fits t then s
        else match x.choose t with
          | none => s
          | some a => s.sendOf port a
      match x.slotCirc (k % 1024) with
      | none => other (s.setPort port x)
      | some id =>
        if !fresh then other (s.setPort port x)
        else
          match x.txq.find? (fun y => y.hdr.vc = 0 && y.hdr.circ.toNat = id && y.at0 ≤ 16 * k) with
          | some y => (s.setPort port x).transmit port y
          | none => other (s.setPort port { x with lentCnt := satAdd x.lentCnt 1 }))

/-! ### Link words (R386 to R388) -/

/-- The packets that an ACKSEQ does not cover. -/
def afterAck (n : Nat) (l : List TxPkt) : List TxPkt :=
  match l.dropWhile fun y => y.hdr.seq.toNat ≠ n with
  | [] => l
  | _ :: t => t

/-- The SEQs to be replayed after a NAK. -/
def fromNak (n : Nat) (l : List TxPkt) : List Nat := (l.dropWhile fun y => y.hdr.seq.toNat ≠ n).map fun y => y.hdr.seq.toNat

/-- Credits added, VC by VC. -/
def addCredits : List Nat → List Nat → List Nat
  | a :: t, b :: u => (a + b) :: addCredits t u
  | l, [] => l
  | [], _ => []

/-- The TBT of the last credit, VC by VC. -/
def creditTimes (now : Nat) : List Nat → List Nat → List Nat
  | a :: t, b :: u => (if b = 0 then a else now) :: creditTimes now t u
  | l, [] => l
  | [], _ => []

/-- LINK_WORD: acknowledged packets leave the replay buffer, which may drain a port whose traffic has moved (R390). -/
def execLinkWord (port : Nat) (w : LinkWord) (s : State) : Host.Outcome State Fault Refusal :=
  accept (.linkWord port w) (
    let x := s.port port
    if !x.linked then s
    else
      let q := afterAck w.ackSeq.toNat x.replayQ
      let s := s.setPort port { x with
        replayQ := q
        again := match w.nak with
          | some n => fromNak n.toNat q
          | none => x.again.filter fun k => q.any fun y => y.hdr.seq.toNat = k
        credit := addCredits x.credit w.credits
        credAt := creditTimes s.clk.tbt.toNat x.credAt w.credits }
      let s := s.drainMoved
      match w.stamps with
      | some t => s.timeStamps port t.1 t.2
      | none => s)

/-- LINK_WORD_SEND. -/
def execLinkWordSend (port : Nat) (s : State) : Host.Outcome State Fault Refusal :=
  accept (.linkWordSend port) (
    let x := s.port port
    if !x.linked then s
    else
      -- the downstream device keeps its stamps until those of the other side have come
      let stamps := x.tDep.bind fun a => x.tArr.map fun b => (a, b)
      let x' := if s.clk.follows port || stamps.isNone then x else { x with tDep := none, tArr := none }
      (s.setPort port { x' with nak := none, owed := [0, 0, 0, 0] }).emit
        (.link port ⟨BitVec.ofNat 12 ((x.seqRx + 4095) % 4096), x.nak.map (BitVec.ofNat 12), x.owed, stamps⟩))

/-! ### Frames of the fabric (R390, R392, R394) -/

/-- A pending change of a slot takes effect. -/
def FCal.turn (f : FCal) : FCal := if f.pend then ⟨f.res2, f.circ2, false, false, 0⟩ else f

def turnFabric : SMap FCal → SMap FCal
  | [] => []
  | (k, f) :: t => if f.turn = FCal.free then turnFabric t else (k, f.turn) :: turnFabric t

/-- A revised route entry takes effect: where its port changes, new packets wait for the old one to drain (R390). -/
def State.reroute (s : State) (d : Nat) (e : W32) : State :=
  let old := rtPort (tget 0 s.fab.rt d)
  let s' := { s with fab := { s.fab with rt := tput 0 s.fab.rt d e } }
  match old with
  | none => s'
  | some p =>
    if rtPort e ≠ some p && !s.drained p d && !s.fab.movedTo d then
      { s' with fab := { s'.fab with moved := s'.fab.moved ++ [⟨d, p, [], []⟩] } }
    else s'

/-- Frame `n` of the fabric begins: pending slots, circuits that go, and revised routes take effect. -/
def State.fabricFrame (s : State) (n : Nat) : State :=
  let l := s.fab.newRt
  let s := { s with fab := { s.fab with frame := n, newRt := [], circ := s.fab.circ.filter fun x => !x.2.gone } }
  let s := s.mapPorts fun (x : Port) => { x with cal := turnFabric x.cal }
  l.foldl (fun (s : State) r => s.reroute r.1 r.2) s

/-- FABRIC_FRAME_BOUNDARY. -/
def execFabricFrameBoundary (s : State) : Host.Outcome State Fault Refusal :=
  accept .fabricFrameBoundary (
    let n := s.clk.tbt.toNat / 16384
    if !s.clk.run || n ≤ s.fab.frame then s
    else
      s.fabricFrame n)

/-! ### The master (R413) -/

/-- HEARTBEAT_SEND: along the time tree, every 1 ms. -/
def execHeartbeatSend (s : State) : Host.Outcome State Fault Refusal :=
  accept .heartbeatSend (
    let t := s.clk.tbt.toNat
    if s.fab.role ≠ 1 || t < s.fab.sent + 4000000 then s
    else
      let s := { s with fab := { s.fab with sent := t } }
      s.sendCluster (.heartbeat (BitVec.ofNat 16 s.fab.epoch) (BitVec.ofNat 12 s.fab.devId) s.mss.serial))

/-- Whether a device that is not the master has heard no heartbeat for 10 ms: commands that need the master complete with
ESTATE, and FB_STATUS.NOMASTER is set. -/
def State.noMaster (s : State) : Bool :=
  (s.fab.role = 0 || s.fab.role = 2) && s.fab.idValid && s.fab.heard + 40000000 ≤ s.clk.tbt.toNat

/-- MASTER_TAKEOVER (R413): an alternate that has heard no heartbeat for 10 ms becomes master. It keeps its ID; one that holds
none takes the master's ID of R410, 0x000 (DESIGN CHOICE, log 72). -/
def execMasterTakeover (s : State) : Host.Outcome State Fault Refusal :=
  accept .masterTakeover (
    if s.fab.role ≠ 2 || s.clk.tbt.toNat < s.fab.heard + 40000000 then s
    else
      let d := if s.fab.idValid then s.fab.devId else 0
      { s with
        fab := { s.fab with role := 1, epoch := (s.fab.epoch + 1) % 65536, masterId := d, devId := d, idValid := true }
        clk := { s.clk with master := true, upstream := 0 } })

end Sys2Proof.Machine
end

