-- ==== Sys2Proof/Machine/Registers.lean ====
section
/-!
DEFINITION. The registers of BAR0 as they read, by block, in words of 32 bits; the read of a register, with the RC fields that it
clears, and the latch of TM_TBT (00 R11 to R15; 14 R422, R423, R433; 02 R57, 03 R106, 04 R136, 05 R164, 08 R249, 09 R282, R283,
10 R308, 11 R344 to R346, 12 R374, 13 R415, R416, 16 R503, 17 R526).
-/

namespace Sys2Proof.Machine

open Sys2Proof

/-- The half of a 64-bit register at offset `o`: the register lies at a multiple of 8. -/
def half (v o : Nat) : Nat := if o % 8 = 0 then v % 2 ^ 32 else v / 2 ^ 32 % 2 ^ 32

/-! ### Core windows -/

/-- CC_STATUS (02 R57). -/
-- DESIGN CHOICE: BLOCK keeps the last block's index while the core is idle (notes/assumptions/54.md)
def Core.ccStatus (c : Core) : Nat :=
  let mode := if c.rn.mode = 1 && c.held then 3 else c.rn.mode
  fld mode 0 2 + fld (b2n (c.rn.audit && c.rn.mode ≠ 0)) 2 1 + fld (b2n c.ck.trip) 3 1 + fld c.ck.lastSub 4 4
    + fld c.rn.block 8 16

/-- The jobs loaded on a core: their schedule operating points. -/
def State.pointsOn (s : State) (k : Nat) : List Nat :=
  (s.jobs.filter fun x => jLOADED ≤ x.2.state && x.2.placement.contains k).map fun x => x.2.op

/-- CC_SCHED_OP (02 R57): the fastest point is the lowest number. -/
def State.schedOp (s : State) (k : Nat) : Nat :=
  match s.pointsOn k with
  | [] => 0
  | a :: t => t.foldl min a + fld 1 7 1

/-- Whether an entry of beam tile `t` is inexact. -/
def Core.inexactTile (c : Core) (t : Nat) : Bool := c.mx.beam.any fun x => x.1 / 8192 = t && x.2.inexact

/-- MX_STATUS (03 R106). -/
def Core.mxStatus (c : Core) : Nat :=
  fld (b2n c.loading.isSome) 0 1 + fld (b2n (decide (c.tm.p < c.mx.lastEnd))) 1 1 + fld (b2n c.mx.tile.valid) 2 1
    + fld c.mx.tile.fmt 3 4 + fld (b2n c.mx.tile.mx) 7 1
    + ((upFrom 0 8).map fun t => fld (b2n (c.inexactTile t)) (8 + t) 1).sum + fld (b2n c.mx.trip) 16 1

/-- MX_ANCHORt (03 R106). -/
def Core.mxAnchor (c : Core) (t : Nat) : Nat :=
  let m := tget TileMode.reset c.mx.modes t
  wrapInt m.anchor 12 + fld (b2n m.fp32) 12 1

/-- Set bits of a map. -/
def popCount (v n : Nat) : Nat := ((upFrom 0 n).filter fun i => bitAt v i).length

/-- MX_SPARE (03 R106). -/
def Core.mxSpare (c : Core) : Nat :=
  let used := popCount c.mx.rodFail.toNat 132
  fld spareRods 0 3 + fld used 3 3 + fld (b2n (decide (used = spareRods))) 6 1

/-- VX_STATUS (04 R136). -/
def Core.vxStatus (c : Core) : Nat :=
  let busy := !c.vx.ops.isEmpty || !c.vx.tr.isEmpty || (c.pend.any fun w => w.eng = Engine.vxe)
    || c.pev.any fun x => match x.2 with
      | .lut _ => true
      | _ => false
  fld (b2n busy) 0 1 + fld (b2n c.vx.lut.valid) 1 1 + fld (b2n c.vx.svc) 2 1

/-- LWn_BASE, LWn_LINES, LWn_CTRL and LWn_TALLY, by word (05 R164). -/
def Core.lwWord (c : Core) (n w : Nat) : Nat :=
  let x := tget Window.closed c.lu.win n
  match w with
  | 0 => x.first
  | 1 => x.count
  | 2 => fld x.src 0 2 + fld (b2n x.ovf) 2 1
  | _ => (c.tally true n).toNat

/-- SP_STATUS (05 R164). -/
def Core.spStatus (c : Core) : Nat :=
  fld (b2n c.lu.init) 0 1 + fld (b2n c.lu.ueSeen) 1 1 + fld ((c.lu.buf.map fun h => h.lines.length).sum) 2 9

/-- DMe_Ss_STAT, HEAD, TAIL and REQ, by word (09 R282). -/
def Core.slotWord (c : Core) (e : Dma) (n w : Nat) : Nat :=
  let x := c.slot e n
  match w with
  | 0 => fld x.state 0 2 + fld (b2n (dRing x.desc)) 2 1 + fld x.rctx 3 1 + fld (b2n x.gated) 4 1 + fld x.cause 8 8
  | 1 => x.head % 2 ^ 32
  | 2 => x.tail % 2 ^ 32
  | _ => x.req % 2 ^ 32

/-- DMA_STATUS (09 R282). -/
def Core.dmaStatus (c : Core) : Nat :=
  fld c.schedOut 0 11 + fld c.elasOut 11 10
    + fld (b2n c.rn.c0.used) 21 1 + fld (b2n c.rn.c1.used) 22 1

/-- TL_STATUS (10 R308). -/
def Core.tlStatus (c : Core) : Nat := fld (b2n c.tl.uf) 0 1 + fld (b2n c.tl.ovf) 1 1 + fld c.tl.ovfIdx 2 7

/-- Whether the MSE waits: for credit or the limit of 11 R325, in a TWAIT or a FENCE, or for an answer to an open or close (11
R343). -/
def Core.mseWaits (c : Core) : Bool :=
  c.ms.wait.isSome || (c.waitOf .mse).isSome || c.ms.outs.any fun o => o.op < 2

/-- MS_STATUS (11 R344). -/
def State.msStatus (s : State) (k : Nat) : Nat :=
  let m := (s.core k).ms
  let st := if (s.core k).mseWaits then 2 else if m.handler.isSome then 1 else 0
  let hidx := match m.handler with
    | some h => h.hidx
    | none => 0
  fld st 0 2 + fld hidx 2 6 + fld (b2n (s.nextRecord k s.recNo).isSome) 8 1 + fld (b2n m.held) 9 1

/-- MS_CTX (11 R344). -/
def Core.msCtx (c : Core) : Nat :=
  fld (c.ms.ctx.filter fun x => x.2.state ≠ 0).length 0 13 + fld c.ms.readers.length 13 11

/-- The word at an offset of the window of core `k`. -/
def State.coreWord (s : State) (k o : Nat) : Nat :=
  let c := s.core k
  if 0xC000 ≤ o && o < 0xD000 then c.lwWord ((o - 0xC000) / 16) (o % 16 / 4)
  else if 0x9000 ≤ o && o < 0x9100 then c.slotWord .inbound ((o - 0x9000) / 16) (o % 16 / 4)
  else if 0x9200 ≤ o && o < 0x9300 then c.slotWord .outbound ((o - 0x9200) / 16) (o % 16 / 4)
  else if 0x8000 ≤ o && o < 0x8200 then (c.tally false ((o - 0x8000) / 4)).toNat
  else if 0x8210 ≤ o && o < 0x8240 then half (tget 0 c.tl.wait ((o - 0x8210) / 8)).toNat o
  else if 0xA010 ≤ o && o < 0xA030 then c.mxAnchor ((o - 0xA010) / 4)
  else
    match o with
    | 0x7000 => s.msStatus k
    | 0x7004 => c.msCtx
    | 0x7008 | 0x700C => half c.ms.sent.toNat o
    | 0x7010 | 0x7014 => half c.ms.disp.toNat o
    | 0x7018 | 0x701C => half c.ms.curHdr.toNat o
    | 0x7020 => c.ms.noHdl.toNat
    | 0x7024 => c.ms.qfCnt.toNat
    | 0x7028 => (c.ms.outs.filter fun x => x.el).length
    | 0x8200 => c.tlStatus
    | 0x8204 => c.tl.ufCnt.toNat
    | 0x8208 => c.tl.tmoCnt.toNat
    | 0x9400 => c.dmaStatus
    | 0x9404 => c.dm.hwm
    | 0x9408 => c.dm.errCnt.toNat
    | 0x9410 | 0x9414 => half c.dm.bytesIn.toNat o
    | 0x9418 | 0x941C => half c.dm.bytesOut.toNat o
    | 0xA000 => c.mxStatus
    | 0xA004 => c.mx.resCnt.toNat
    | 0xA008 | 0xA00C => half c.mx.vecs.toNat o
    | 0xA040 | 0xA044 => half (bits c.mx.rodFail.toNat 0 64) o
    | 0xA048 | 0xA04C => half (bits c.mx.rodFail.toNat 64 64) o
    | 0xA050 => bits c.mx.rodFail.toNat 128 4
    | 0xA054 => c.mxSpare
    | 0xA058 | 0xA05C => half (bits c.mx.rodPend.toNat 0 64) o
    | 0xA060 | 0xA064 => half (bits c.mx.rodPend.toNat 64 64) o
    | 0xA068 => bits c.mx.rodPend.toNat 128 4
    | 0xB000 => coreCap
    | 0xB004 => c.vxStatus
    | 0xB008 => flagsWord c.vx.flags
    | 0xB010 | 0xB014 => half c.vx.chains.toNat o
    | 0xB018 | 0xB01C => half c.vx.seed.toNat o
    | 0xB020 | 0xB024 => half c.vx.srSeq.toNat o
    | 0xB028 => c.vx.lut.lo.toNat
    | 0xB02C => c.vx.lut.hi.toNat
    | 0xB030 => c.vx.poisCnt.toNat
    | 0xD000 => scrSize
    | 0xD004 => c.spStatus
    | 0xD008 => c.lu.ceCnt.toNat
    | 0xD00C => c.lu.ueCnt.toNat
    | 0xD010 => c.lu.ueLine
    | 0xD014 => c.lu.rejCnt.toNat
    | 0xD018 | 0xD01C => half c.lu.lines.toNat o
    | 0xD020 => c.lu.hwm
    | 0xD024 => c.lu.rejSrc.toNat
    | 0xE000 => c.ccStatus
    | 0xE008 | 0xE00C => half c.rn.runCcyc.toNat o
    | 0xE010 | 0xE014 => half c.rn.holdCcyc.toNat o
    | 0xE018 => c.ck.chkCnt.toNat
    | 0xE01C => s.schedOp k
    | _ => 0

/-- A core whose RC field at an offset is set. -/
def Core.setRc (c : Core) (o : Nat) (v : W32) : Core :=
  match o with
  | 0x7020 => { c with ms := { c.ms with noHdl := v } }
  | 0x7024 => { c with ms := { c.ms with qfCnt := v } }
  | 0x8204 => { c with tl := { c.tl with ufCnt := v } }
  | 0x8208 => { c with tl := { c.tl with tmoCnt := v } }
  | 0x9408 => { c with dm := { c.dm with errCnt := v } }
  | 0xA004 => { c with mx := { c.mx with resCnt := v } }
  | 0xB030 => { c with vx := { c.vx with poisCnt := v } }
  | 0xD008 => { c with lu := { c.lu with ceCnt := v } }
  | 0xD00C => { c with lu := { c.lu with ueCnt := v } }
  | 0xD014 => { c with lu := { c.lu with rejCnt := v } }
  | 0xE018 => { c with ck := { c.ck with chkCnt := v } }
  | _ => c

/-! ### Hubs -/

/-- HB_CAP (08 R249). -/
def hbCap : Nat := fld 3 0 4 + fld 64 4 8 + fld 64 12 7 + fld 8 19 4 + fld 4 23 4

/-- HB_STATUS (08 R249). -/
def Hub.status (h : Hub) : Nat :=
  h.stackUp.toNat + fld (b2n h.calRun) 3 1 + fld (b2n h.init) 4 1 + fld (b2n h.cfence) 5 1 + fld (b2n h.therm) 6 1

/-- The pseudo-channel of hub `h` with hub-local number `q` (08 R220). -/
def hubPc (h q : Nat) : Nat := 12 * (q % 64) + 3 * h + q / 64

/-- CALq_n (08 R249). -/
def CalEntry.word (e : CalEntry) : Nat := fld e.kind 0 2 + fld e.res 2 12 + fld (b2n e.pend) 14 1

/-- RSVi_CTRL, RSVi_PLACE, RSVi_QUEUE and RSVi_SERVED of hub `h`, by word: 0 where the hub holds no pseudo-channel of the
reservation (08 R249). -/
def Resv.word (v : Resv) (h w : Nat) : Nat :=
  let mine := v.pcs.filter fun p => hubOf p = h
  if !v.valid || v.gone || mine.isEmpty then 0
  else
    match w with
    | 0 => 1 + fld v.dir 1 2 + fld v.runs 3 7 + fld v.maxgap 10 7 + fld v.job 17 8
    | 1 => fld v.first 0 9 + fld mine.length 16 8
    | 2 =>
      fld ((mine.map fun p => (tget [] v.queues p).length).foldl max 0) 0 4 + fld (tget 0 v.hwm h) 4 4
    | _ => (tget 0 v.served h).toNat

/-- The word at an offset of the block of hub `h`. -/
def State.hubWord (s : State) (h o : Nat) : Nat :=
  let x := s.hub h
  if 0x10000 ≤ o && o < 0x1C000 then (s.hbm.entry (hubPc h ((o - 0x10000) / 256)) (o % 256 / 4)).word
  else if 0x20000 ≤ o && o < 0x30000 then (tget Resv.free s.hbm.resv ((o - 0x20000) / 16)).word h (o % 16 / 4)
  else
    match o with
    | 0x0 => hbCap
    | 0x4 => x.status
    | 0x8 | 0xC => half x.frame.toNat o
    | 0x10 => x.ceCnt.toNat
    | 0x14 => x.ueCnt.toNat
    | 0x18 | 0x1C => half x.ueDpa.toNat o
    | 0x20 => x.slipCnt.toNat
    | 0x24 => x.misCnt.toNat
    | 0x28 => x.ovrCnt.toNat
    | 0x2C => x.lentCnt.toNat
    | 0x30 => x.elHwm
    | 0x34 => fld x.temp 0 8 + fld x.tempStk 8 2
    | 0x40000 => x.comb.length
    | 0x40004 => x.combRes
    | 0x40008 => x.combHwm
    | 0x4000C => x.combRef.toNat
    | 0x40010 | 0x40014 => half x.combDel.toNat o
    | 0x40018 => x.combPar.toNat
    | _ => 0

/-- A hub whose RC field at an offset is set. -/
def Hub.setRc (h : Hub) (o : Nat) (v : W32) : Hub :=
  match o with
  | 0x10 => { h with ceCnt := v }
  | 0x14 => { h with ueCnt := v }
  | 0x20 => { h with slipCnt := v }
  | 0x24 => { h with misCnt := v }
  | 0x28 => { h with ovrCnt := v }
  | 0x2C => { h with lentCnt := v }
  | 0x4000C => { h with combRef := v }
  | 0x40018 => { h with combPar := v }
  | _ => h

/-! ### Ports and the device fabric block -/

/-- NX_STATUS (13 R415). -/
def Port.status (x : Port) : Nat :=
  fld x.state 0 3 + fld x.width 3 3 + fld (b2n x.spare) 6 1 + fld (b2n x.enc) 7 1 + fld (b2n x.authOk) 8 1
    + fld (b2n x.calSusp) 9 1 + fld x.cause 10 4

/-- FCALs (13 R415). -/
def Port.fcal (x : Port) (s : Nat) : Nat :=
  if s % 16 = 15 then 2
  else
    let e := tget FCal.free x.cal s
    fld (b2n e.res) 0 2 + fld e.circ 2 12 + fld (b2n e.pend) 14 1

/-- The word at an offset of a port's block. -/
def Port.word (x : Port) (o : Nat) : Nat :=
  if 0x10000 ≤ o && o < 0x11000 then x.fcal ((o - 0x10000) / 4)
  else if 0x20000 ≤ o && o < 0x20800 then
    let a := tget Aperture.none x.ap ((o - 0x20000) / 32)
    match o % 32 / 8 with
    | 0 => half a.ctrl.toNat o
    | 1 => half a.base.toNat o
    | 2 => half a.limit.toNat o
    | _ => 0
  else
    match o with
    | 0x0 => x.status
    | 0x4 => x.cfg.toNat
    | 0x8 => x.active.toNat + fld x.failed.toNat 5 5
    | 0xC => x.peer.toNat
    | 0x10 => x.dly % 2 ^ 16
    | 0x14 => 200
    | 0x18 | 0x1C => half x.txPkt.toNat o
    | 0x20 | 0x24 => half x.rxPkt.toNat o
    | 0x28 => x.replays.toNat
    | 0x2C => x.replay2.toNat
    | 0x30 => x.crcCnt.toNat
    | 0x34 => x.fecUe.toNat
    | 0x38 => x.apDrop.toNat
    | 0x3C => x.spoof.toNat
    | 0x40 => x.lateCnt.toNat
    | 0x44 => x.lentCnt.toNat
    | 0x48 => x.badPkt.toNat
    | 0x4C => x.qhwm.toNat
    | _ => 0

/-- A port whose RC field at an offset is set. -/
def Port.setRc (x : Port) (o : Nat) (v : W32) : Port :=
  match o with
  | 0x28 => { x with replays := v }
  | 0x2C => { x with replay2 := v }
  | 0x30 => { x with crcCnt := v }
  | 0x34 => { x with fecUe := v }
  | 0x38 => { x with apDrop := v }
  | 0x3C => { x with spoof := v }
  | 0x40 => { x with lateCnt := v }
  | 0x44 => { x with lentCnt := v }
  | 0x48 => { x with badPkt := v }
  | _ => x

/-- FB_STATUS (13 R416). -/
def State.fbStatus (s : State) : Nat :=
  fld s.fab.devId 0 12 + fld (b2n s.fab.idValid) 12 1 + fld s.fab.role 13 2 + fld (b2n s.noMaster) 15 1
    + fld s.fab.epoch 16 16

/-- CIRCc_CTRL (13 R416). -/
def Circ.ctrl (c : Circ) : Nat :=
  fld (b2n c.valid) 0 1 + fld (b2n c.origin) 1 1 + fld (b2n c.term) 2 1 + fld c.out 3 4 + fld c.next 7 12
    + fld c.dst 19 12 + fld c.core 31 8 + fld c.nslot 39 10 + fld c.fgap 49 11

/-- The word at an offset of the device fabric block. -/
def State.fabWord (s : State) (o : Nat) : Nat :=
  let f := s.fab
  if 0x10000 ≤ o && o < 0x14000 then (tget 0 f.rt ((o - 0x10000) / 4)).toNat
  else if 0x20000 ≤ o && o < 0x30000 then
    let c := tget Circ.none f.circ ((o - 0x20000) / 16)
    match o % 16 / 4 with
    | 0 => half c.ctrl o
    | 1 => half c.ctrl o
    | 2 => c.budget % 2 ^ 16
    | _ => c.cnt.toNat
  else if 0x100 ≤ o && o < 0x500 then
    let d := tget (0, 0) f.drops ((o - 0x100) / 16)
    if o % 16 < 8 then half d.1.toNat o else half d.2.toNat o
  else
    match o with
    | 0x0 => s.fbStatus
    | 0x4 => f.masterId
    | 0x8 => f.dropIdx
    | _ => 0

/-! ### Clocks and time -/

/-- TM_STATUS (12 R374). -/
def Clocks.status (c : Clocks) : Nat :=
  fld (b2n c.master) 0 1 + fld (b2n c.locked) 1 1 + fld (b2n c.holdover) 2 1 + fld (b2n c.refLost) 3 1
    + fld (b2n c.ppsSeen) 4 1 + fld (b2n c.stopped) 5 1 + fld c.op 6 3 + fld (b2n (c.change.isSome && !c.stopped)) 9 1

/-- CK_ISLi (12 R374); `out` says that a crossing of the island is outside its slack. -/
def Island.word (x : Island) (out : Bool) : Nat :=
  fld (b2n x.present) 0 1 + fld (b2n x.clocked) 1 1 + fld (min 15 x.pend) 2 4 + fld (b2n out) 6 1
    + fld (b2n x.failed) 7 1 + fld x.xlat 8 8

/-- The word at an offset of the clocks-and-time block. -/
def Clocks.word (c : Clocks) (o : Nat) : Nat :=
  if 0x1000 ≤ o && o < 0x1288 then (tget Island.off c.isl ((o - 0x1000) / 4)).word (c.outside ((o - 0x1000) / 4))
  else
    match o with
    | 0x0 => c.status
    | 0x8 | 0xC => half c.tbt.toNat o
    | 0x10 | 0x14 => half c.ppsTbt.toNat o
    | 0x18 => c.ppsErr.toNat
    | 0x1C => c.steer.toNat
    | 0x20 | 0x24 => half c.holdTbt.toNat o
    | 0x28 => c.ppsBad.toNat
    | 0x2C => c.syncErr.toNat
    | 0x30 => c.upstream.toNat
    | 0x38 | 0x3C => half c.stretch.toNat o
    | 0x40 => c.indepCnt.toNat
    | 0x44 => c.slipCnt.toNat
    | 0x48 => c.opChg.toNat
    | 0x4C => c.lastStop.toNat
    | _ => 0

def Clocks.setRc (c : Clocks) (o : Nat) (v : W32) : Clocks :=
  match o with
  | 0x28 => { c with ppsBad := v }
  | 0x40 => { c with indepCnt := v }
  | 0x44 => { c with slipCnt := v }
  | _ => c

/-! ### Device globals and the command processor -/

/-- DEV_STATE (14 R423). -/
def HostIf.devState (h : HostIf) : Nat :=
  fld h.state 0 3 + fld (b2n h.cxl) 3 1 + fld h.width 4 5 + fld h.rate 9 3 + fld h.fcause 12 4

/-- CP_STATUS (14 R433). -/
def HostIf.cpStatus (h : HostIf) : Nat := fld (b2n h.fwrun) 0 1 + fld h.elastic.length 1 11 + fld h.bulk.length 12 11

/-- JOBj_STATE (14 R433). -/
def Job.word (j : Job) : Nat :=
  fld j.state 0 3 + fld (b2n j.det) 3 1 + fld (b2n j.periodic) 4 1 + fld (b2n j.audit) 5 1 + fld j.ring 8 8

/-- A map of 128 cores, by word. -/
def mapWord (m : BitVec 128) (w : Nat) : Nat := bits m.toNat (32 * w) 32

/-- The word at an offset of the device globals block. -/
def State.globalWord (s : State) (o : Nat) : Nat :=
  if 0x8000 ≤ o && o < 0x8400 then mapWord (tget 0 s.mcg ((o - 0x8000) / 16)) (o % 16 / 4)
  else if 0x8400 ≤ o && o < 0x8800 then mapWord (tget 0 s.qgrp ((o - 0x8400) / 16)) (o % 16 / 4)
  else
    match o with
    | 0x0 => devIdWord
    | 0x4 => s.host.fwVer.toNat
    | 0x8 => s.host.trVer.toNat
    | 0x10 => devCap0
    | 0x14 => devCap1
    | 0x18 => s.host.devState
    | 0x1C => s.cfg.bar2Sel
    | _ => 0

/-- The words of a ring's registers, from offset 0 of its 64 bytes (14 R433). -/
def State.ringWord (s : State) (ring o : Nat) : Nat :=
  let r := s.ring ring
  match o with
  | 0x0 | 0x4 => half r.sqbase.toNat o
  | 0x8 | 0xC => half r.cqbase.toNat o
  | 0x10 => bits r.ctrl.toNat 0 21 + fld (b2n r.active) 21 1
  | 0x14 => r.head.toNat
  | 0x18 => r.cqtail.toNat
  | 0x1C => s.cfg.deferOf ring
  | _ => 0

/-- BIAS_CMD (14 R433). -/
def HostIf.biasCmd (h : HostIf) : Nat := fld (b2n h.biasDir) 1 1 + fld (b2n h.flip.isSome) 2 1 + fld (b2n h.biasErr) 3 1

/-- The word at an offset of the command processor block. -/
def State.cpWord (s : State) (o : Nat) : Nat :=
  let h := s.host
  if 0x2000 ≤ o && o < 0x6000 then s.ringWord ((o - 0x2000) / 64) (o % 64)
  else if 0x1000 ≤ o && o < 0x1400 then
    let j := s.job ((o - 0x1000) / 16)
    match o % 16 / 4 with
    | 0 => j.word
    | 1 => 0
    | _ => half j.runs.toNat o
  else
    match o with
    | 0x0 => h.cpStatus
    | 0x8 => h.cqLost.toNat
    | 0x8000 | 0x8004 => half h.biasPage.toNat o
    | 0x8008 => h.biasN.toNat
    | 0x800C => h.biasCmd
    | _ => 0

/-! ### The MSS mailbox block -/

/-- MG_STATUS (17 R526). -/
def State.mgStatus (s : State) : Nat :=
  let m := s.mss
  fld (b2n m.up) 0 1 + fld (b2n m.restart) 1 1 + fld (b2n (decide (s.clk.hostOp < m.throttle))) 2 1
    + fld (b2n m.pcapPend.isSome) 3 1 + fld (b2n m.pcapErr) 4 1 + fld (b2n s.detArmed) 5 1

/-- MG_PWR and MG_PCAP_ACT (17 R526). -/
def MssState.pwr (m : MssState) : Nat := fld m.pwr1 0 16 + fld m.pwr10 16 16
def MssState.pcapWord (m : MssState) : Nat := fld m.pcapAct 0 5 + fld m.throttle 5 3

/-- The word at an offset of the MSS mailbox block. -/
def State.mgWord (s : State) (o : Nat) : Nat :=
  let m := s.mss
  if 0x100 ≤ o && o < 0x390 then (tget 0 m.sensors ((o - 0x100) / 4)).toNat
  else if 0x400 ≤ o && o < 0x4B0 then half (tget 0 m.rails ((o - 0x400) / 8)).toNat o
  else if 0x1000 ≤ o && o < 0x2000 then leVal (readBytes m.mbReq (o - 0x1000) 4)
  else if 0x2000 ≤ o && o < 0x3000 then leVal (readBytes m.mbRsp (o - 0x2000) 4)
  else
    match o with
    | 0x0 => s.mgStatus
    | 0x4 => m.alert.toNat
    | 0x8 => s.cfg.pcap
    | 0xC => m.pcapWord
    | 0x10 => m.pwr
    | 0x14 => m.tmax.toNat
    | 0x18 => m.ledNext
    | 0x20 => s.cfg.mbLen
    | 0x28 => m.mbStatus.toNat
    | _ => 0

/-! ### The fault and capture block -/

/-- FL_STATUS (16 R503). -/
def State.flStatus (s : State) : Nat :=
  let n := (s.fl.log.filter fun x => match x.2 with
    | some f => f.stop && !f.ack
    | none => false).length
  fld (b2n s.faultN) 0 1 + fld n 1 13

/-- CAP_STATUS (16 R503). -/
def Faults.capStatus (f : Faults) : Nat :=
  fld (b2n f.capV) 0 1 + fld (b2n f.capL) 1 1 + fld (b2n f.capB) 2 1 + fld (b2n f.capC) 3 1 + fld f.capT 4 2

/-- Disabled columns of a row. -/
def State.failedIn (s : State) (r : Nat) : Nat := popCount (tget 0 s.fl.spare r) 17

/-- SPC_ROWr (16 R503). -/
def State.spcRow (s : State) (r : Nat) : Nat :=
  fld (tget 0 s.fl.spare r) 0 17 + fld (b2n (decide (1 ≤ s.failedIn r))) 17 1

/-- PEND_CORE from physical core `a` on (16 R503). -/
def Faults.pendMap (f : Faults) (a : Nat) : Nat :=
  ((f.pendCore.filter fun p => a ≤ p && p < a + 64).map fun p => 2 ^ (p - a)).sum

/-- The word at an offset of the fault and capture block. -/
def State.flWord (s : State) (o : Nat) : Nat :=
  let f := s.fl
  if 0x10000 ≤ o && o < 0x50000 then
    match tget none f.log ((o - 0x10000) / 64) with
    | some r => leAt r.bytes (o % 64) 4
    | none => 0
  else if 0x50 ≤ o && o < 0x70 then s.spcRow ((o - 0x50) / 4)
  else
    match o with
    | 0x0 => s.flStatus
    | 0x4 => f.head
    | 0x8 => f.seq.toNat
    | 0xC => f.lost.toNat
    | 0x20 => s.cfg.wdLimit
    | 0x24 => 1000
    | 0x30 => f.capStatus
    | 0x34 => f.capSkip.toNat
    | 0x38 | 0x3C => half f.capTbt.toNat o
    | 0x40 => b2n s.cfg.rsAuto
    | 0x44 => fld (b2n (decide (f.rsBusy ≠ 0))) 0 1 + fld f.rsBusy 1 4
    | 0x48 => f.rsCount.toNat
    | 0x4C => f.rsLast.toNat
    | 0x70 | 0x74 => half (f.pendMap 0) o
    | 0x78 | 0x7C => half (f.pendMap 64) o
    | 0x80 => bits (f.pendMap 128) 0 8
    | _ => 0

/-! ### BAR0 (14 R422) -/

/-- HDMn_DPA, by word; the capability itself follows CXL 2.0 and is not laid out by the spec. -/
def HostIf.hdmWord (h : HostIf) (o : Nat) : Nat :=
  match o with
  | 0x800 | 0x804 => half h.hdm0.dpa.toNat o
  | 0x808 | 0x80C => half h.hdm1.dpa.toNat o
  | _ => 0

/-- The blocks of BAR0, with the unit that an offset names. -/
inductive Block0 where
  | globals | cp | bells | core (k : Nat) | hub (h : Nat) | port (p : Nat) | fabric | clocks | mss | faults | cxl | msix | none
  deriving DecidableEq, Repr

/-- The block of an offset, and the offset in it. -/
def bar0Block (a : Nat) : Block0 × Nat :=
  if a < 0x100000 then (.globals, a)
  else if a < 0x200000 then (.cp, a - 0x100000)
  else if a < 0x300000 then (.bells, a - 0x200000)
  else if a < 0x1000000 then (.none, 0)
  else if a < 0x1800000 then (.core ((a - 0x1000000) / 0x10000), a % 0x10000)
  else if a < 0x2000000 then (.none, 0)
  else if a < 0x2400000 then (.hub ((a - 0x2000000) / 0x100000), a % 0x100000)
  else if a < 0x3000000 then (.none, 0)
  else if a < 0x3800000 then (.port ((a - 0x3000000) / 0x80000), a % 0x80000)
  else if a < 0x4000000 then (.fabric, a - 0x3800000)
  else if a < 0x4100000 then (.clocks, a - 0x4000000)
  else if a < 0x5000000 then (.none, 0)
  else if a < 0x5100000 then (.mss, a - 0x5000000)
  else if a < 0x6000000 then (.none, 0)
  else if a < 0x7000000 then (.faults, a - 0x6000000)
  else if a < 0x7010000 then (.cxl, a - 0x7000000)
  else if a < 0x7020000 then (.msix, a - 0x7010000)
  else (.none, 0)

/-- Whether reads and writes of the block find nothing: core windows while RESETTING (14 R456). -/
def State.dark (s : State) (b : Block0) : Bool :=
  match b with
  | .core _ => s.host.state = dRESETTING
  | _ => false

/-- The 32-bit word at an offset of BAR0. -/
def State.word (s : State) (a : Nat) : Nat :=
  let x := bar0Block a
  if s.dark x.1 then 0
  else
    match x with
    | (.globals, o) => s.globalWord o
    | (.cp, o) => s.cpWord o
    | (.bells, _) => 0
    | (.core k, o) => s.coreWord k o
    | (.hub h, o) => s.hubWord h o
    | (.port p, o) => (s.port p).word o
    | (.fabric, o) => s.fabWord o
    | (.clocks, o) => s.clk.word o
    | (.mss, o) => s.mgWord o
    | (.faults, o) => s.flWord o
    | (.cxl, o) => s.host.hdmWord o
    | (.msix, _) => 0
    | (.none, _) => 0

/-- The RC field of the word at an offset is set. -/
def State.setRc (s : State) (a : Nat) (v : W32) : State :=
  let x := bar0Block a
  if s.dark x.1 then s
  else
    match x with
    | (.cp, 0x8) => { s with host := { s.host with cqLost := v } }
    | (.core k, o) => s.setCore k ((s.core k).setRc o v)
    | (.hub h, o) => s.setHub h ((s.hub h).setRc o v)
    | (.port p, o) => s.setPort p ((s.port p).setRc o v)
    | (.clocks, o) => { s with clk := s.clk.setRc o v }
    | (.faults, 0xC) => { s with fl := { s.fl with lost := v } }
    | (.faults, 0x34) => { s with fl := { s.fl with capSkip := v } }
    | _ => s

/-- Whether the word at an offset is an RC field (00 R11). -/
def isRc (a : Nat) : Bool :=
  match bar0Block a with
  | (.cp, o) => o = 0x8
  | (.core _, o) => [0x7020, 0x7024, 0x8204, 0x8208, 0x9408, 0xA004, 0xB030, 0xD008, 0xD00C, 0xD014, 0xE018].contains o
  | (.hub _, o) => [0x10, 0x14, 0x20, 0x24, 0x28, 0x2C, 0x4000C, 0x40018].contains o
  | (.port _, o) => 0x28 ≤ o && o ≤ 0x48 && o % 4 = 0
  | (.clocks, o) => o = 0x28 || o = 0x40 || o = 0x44
  | (.faults, o) => o = 0xC || o = 0x34
  | _ => false

/-- Whether the words at an offset and 4 bytes on are one 64-bit register (the tables of 02 to 17). -/
def isWide (a : Nat) : Bool :=
  let o := (bar0Block a).2
  a % 8 = 0 && match (bar0Block a).1 with
  | .globals => 0x8000 ≤ o
  | .cp => (0x1000 ≤ o && o < 0x1400 && o % 16 = 8) || (0x2000 ≤ o && o < 0x6000 && o % 64 < 16) || o = 0x8000
  | .core _ => [0xE008, 0xE010, 0xA008, 0xA040, 0xA048, 0xA058, 0xA060, 0xB010, 0xB018, 0xB020, 0xD018, 0x9410, 0x9418, 0x7008, 0x7010,
      0x7018].contains o || (0x8210 ≤ o && o < 0x8240)
  | .hub _ => o = 0x8 || o = 0x18 || o = 0x40010
  | .port _ => o = 0x18 || o = 0x20 || (0x20000 ≤ o && o < 0x20800)
  | .fabric => (0x100 ≤ o && o < 0x500) || (0x20000 ≤ o && o < 0x30000 && o % 16 = 0)
  | .clocks => o = 0x8 || o = 0x10 || o = 0x20 || o = 0x38
  | .mss => 0x400 ≤ o && o < 0x4B0
  | .faults => o = 0x38 || o = 0x70 || o = 0x78
  | .cxl => o = 0x800 || o = 0x808
  | _ => false

/-- The device as its registers showed it when the hcyc began. -/
def State.before (s : State) : State :=
  { s with
    cores := s.hc.cores, hubs := s.hc.hubs, ports := s.hc.ports
    clk := { s.clk with ppsBad := s.hc.ppsBad, indepCnt := s.hc.indepCnt, slipCnt := s.hc.slipCnt }
    host := { s.host with cqLost := s.hc.cqLost }
    fl := { s.fl with lost := s.hc.lost, capSkip := s.hc.capSkip } }

/-- What RC fields count, noted for R13. -/
def Hcyc.note (h : Hcyc) (s : State) : Hcyc :=
  { h with
    cores := s.cores, hubs := s.hubs, ports := s.ports, ppsBad := s.clk.ppsBad, indepCnt := s.clk.indepCnt, slipCnt := s.clk.slipCnt
    cqLost := s.host.cqLost, lost := s.fl.lost, capSkip := s.fl.capSkip }

/-- A read of the word at an offset, and what it returns: an RC field clears. An event of the same hcyc stays in the field, and the read
returns the value before it (00 R13). -/
def State.readWord (s : State) (a : Nat) (same : Bool) : State × Nat :=
  if same && isRc a then
    let old := s.before.word a
    let new := s.word a
    let s := { s with hc := s.hc.note (s.before.setRc a 0) }
    (s.setRc a (BitVec.ofNat 32 (if new < old then new else new - old)), old)
  else (s.setRc a 0, s.word a)

/-- TM_TBT. -/
def tmTbt : Nat := 0x4000008

/-- A 32-bit read of TM_TBT[31:0] holds TM_TBT[63:32] for the next 32-bit read of the upper word (12 R374). -/
def State.readTbtLow (s : State) : State :=
  let hi := BitVec.ofNat 32 (s.clk.tbt.toNat / 2 ^ 32)
  ({ s with clk := { s.clk with latch := some hi } }).emit (.data tmTbt (leBytes s.clk.tbt.toNat 4) false)

/-- TM_TBT_LOW_READ. -/
def execTmTbtLowRead (s : State) : Host.Outcome State Fault Refusal := accept .tmTbtLowRead s.readTbtLow

/-- A 32-bit read of the upper word of TM_TBT: the latched half, once. -/
def State.readTbtHigh (s : State) : State :=
  let v := s.clk.latch.getD (BitVec.ofNat 32 (s.clk.tbt.toNat / 2 ^ 32))
  ({ s with clk := { s.clk with latch := none } }).emit (.data (tmTbt + 4) (leBytes v.toNat 4) false)

/-- Free bytes that a read returns. -/
def State.readFree (s : State) (a len : Nat) : State :=
  s.draw.emit (.data a (freeBytes s.freeCtr 0 len) false)

/-- Whether an offset lies where CXL 2.0 or PCI Express lays out the registers, and the spec does not: what a read returns there is
open (R422, R424; notes/assumptions/41.md). -/
def foreign (a : Nat) : Bool :=
  match bar0Block a with
  | (.cxl, o) => !(0x800 ≤ o && o < 0x810)
  | (.msix, _) => true
  | _ => false

/-- A 64-bit read over two 32-bit registers, or one of its halves: the lower half is held until the upper one comes (R15). -/
def State.readPair (s : State) (off : Nat) (same : Bool) (half : Half) : State :=
  let emit := fun (s : State) (lo hi : Nat) => s.emit (.data off (leBytes lo 4 ++ leBytes hi 4) false)
  match half with
  | .whole =>
    let (s, lo) := s.readWord off same
    let (s, hi) := s.readWord (off + 4) same
    emit s lo hi
  | .low =>
    let (s, lo) := s.readWord off same
    { s with hc := { s.hc with half := some (off, BitVec.ofNat 32 lo) } }
  | .high =>
    match s.hc.half with
    | none => s
    | some (a, lo) =>
      if a ≠ off then s
      else
        let (s, hi) := s.readWord (off + 4) same
        emit { s with hc := { s.hc with half := none } } lo.toNat hi

/-- RC_REGISTER_READ: the read of a BAR0 register, or of two (R14), the lower address first; a misaligned access, or one of
another width, returns unpredictable content. `x.same` says that the events since the hubs' clock last ticked fall in its hcyc. -/
def execRcRegisterRead (off : Nat) (x : Access0) (s : State) : Host.Outcome State Fault Refusal :=
  accept (.rcRegisterRead off x) (
    if 0x10000000 < off + x.width || x.width = 0 then s
    else if (x.width ≠ 4 && x.width ≠ 8) || off % x.width ≠ 0 || foreign off then s.readFree off x.width
    else if x.width = 4 && off = tmTbt then s.readTbtLow
    else if x.width = 4 && off = tmTbt + 4 then s.readTbtHigh
    else if x.width = 4 then
      let (s, y) := s.readWord off x.same
      s.emit (.data off (leBytes y 4) false)
    else if isWide off then (if x.half = .high then s else s.emit (.data off (leBytes (s.word off) 4 ++ leBytes (s.word (off + 4)) 4) false))
    else s.readPair off x.same x.half)

end Sys2Proof.Machine
end

