-- ==== Sys2Proof/Machine/Commands.lean ====
section
/-!
DEFINITION. The command processor: admission, the checks of a command, its execution, and the commands on runs, ports, the
operating point and the timebase (14 R435 to R452; 12 R361 to R372; 13 R397, R409, R412, R418).
-/

namespace Sys2Proof.Machine

open Sys2Proof

/-! ### The opcode table (R446) -/

/-- What an opcode permits: whether it names a job, the device states, the job states, the classes. -/
structure OpRow where
  job  : Bool
  dev  : List Nat
  jobs : List Nat
  cls  : List Nat
  deriving DecidableEq, Repr

def live : List Nat := [dREADY, dRUNNING]
def liveOr (l : List Nat) : List Nat := live ++ l
/-- Any device state but OFF and BOOT. -/
def anyState : List Nat := [dREADY, dRUNNING, dDRAINING, dFAULTED, dRESETTING, dRECOVERY]

/-- The row of an opcode. -/
def opRow (opc : Nat) : Option OpRow :=
  match opc with
  | 0x01 => some ⟨true, live, [jEMPTY], [1, 2]⟩
  | 0x02 => some ⟨true, liveOr [dDRAINING, dFAULTED], [jLOADED, jARMED, jDONE, jFAULTED], [1, 2]⟩
  | 0x03 => some ⟨true, live, [jLOADED], [1]⟩
  | 0x04 => some ⟨true, live, [jLOADED, jDONE], [1]⟩
  | 0x05 => some ⟨true, live, [jARMED, jRUNNING, jDONE], [0, 1]⟩
  | 0x06 => some ⟨true, live, [jARMED, jDONE], [0, 1]⟩
  | 0x07 => some ⟨true, [dRUNNING, dDRAINING], [jRUNNING], [0, 1]⟩
  | 0x08 => some ⟨false, live, [], [1]⟩
  | 0x09 => some ⟨true, live, [jLOADED, jARMED, jRUNNING, jDONE], [1, 2]⟩
  | 0x0A => some ⟨true, liveOr [dDRAINING, dFAULTED], [jLOADED, jARMED, jRUNNING, jDONE, jFAULTED], [1, 2]⟩
  | 0x0B => some ⟨true, live, [jLOADED, jARMED, jDONE], [1]⟩
  | 0x0C => some ⟨false, liveOr [dDRAINING, dFAULTED], [], [1, 2]⟩
  | 0x0D => some ⟨false, live, [], [1]⟩
  | 0x0E => some ⟨false, anyState, [], [0, 1, 2]⟩
  | 0x0F => some ⟨false, liveOr [dDRAINING, dFAULTED, dRESETTING], [], [1, 2]⟩
  | 0x10 => some ⟨false, liveOr [dFAULTED], [], [1, 2]⟩
  | 0x11 => some ⟨false, liveOr [dDRAINING, dFAULTED, dRESETTING], [], [1]⟩
  | 0x12 => some ⟨false, liveOr [dDRAINING, dFAULTED], [], [1, 2]⟩
  | 0x13 => some ⟨false, liveOr [dFAULTED], [], [1]⟩
  | 0x14 => some ⟨false, anyState, [], [1, 2]⟩
  | _ => none

/-! ### Checks (R440, R441) -/

/-- Bytes of a QUERY result, by subject (R449). -/
def querySize (subject : Nat) : Nat :=
  match subject with
  | 0 => 32 | 1 => 32 | 2 => 16 | 3 => 1024 | 4 => 64 | _ => 1024

/-- The indexes that a QUERY subject has. -/
def queryLimit (subject : Nat) : Nat :=
  match subject with
  | 0 => 1 | 1 => 64 | 2 => 2 ^ 20 | 3 => 2 ^ 20 | 4 => 4096 | _ => 65536

/-- Bytes of the capture region (16 R494). -/
def captureSize : Nat := 0x8000000

end Sys2Proof.Machine

namespace Sys2Proof

open Sys2Proof.Machine

def Packet.opcode (p : Packet) : Nat := p.opc.toNat
def Packet.order (p : Packet) : Bool := p.cflags.getLsbD 3
def Packet.cls (p : Packet) : Nat := bits p.cflags.toNat 0 2

/-- NSETS of START_PERIODIC, 1 to 16: P2 holds the count (notes/assumptions/32.md). -/
def Packet.nsets (p : Packet) : Nat := p.p2.toNat

/-- The parameters that R446 gives a field narrower than 64 bits: the parameter's index, its value, and the field's width. A value
beyond the field is out of range (notes/assumptions/43.md). -/
def Packet.narrow (p : Packet) : List (Nat × W64 × Nat) :=
  match p.opcode with
  | 0x01 => [(3, p.p3, 16), (5, p.p5, 3)]
  | 0x05 => [(0, p.p0, 4)]
  | 0x06 => [(0, p.p0, 32)]
  | 0x09 => [(0, p.p0, 20)]
  | 0x0A => [(0, p.p0, 20)]
  | 0x0C => [(0, p.p0, 4)]
  | 0x0D => [(0, p.p0, 3)]
  | 0x0F => [(0, p.p0, 1)]
  | 0x10 => [(0, p.p0, 1)]
  | 0x11 => [(0, p.p0, 1)]
  | 0x12 => [(0, p.p0, 8)]
  | 0x14 => [(1, p.p1, 16), (3, p.p3, 16)]
  | _ => []

/-- The first parameter that exceeds its field. -/
def Packet.wide (p : Packet) : Option Nat := (p.narrow.find? fun x => 2 ^ x.2.2 ≤ x.2.1.toNat).map (·.1)

/-- The first of two parameters. -/
def firstParam : Option Nat → Option Nat → Option Nat
  | some a, some b => some (min a b)
  | some a, none => some a
  | none, b => b

/-- The first parameter whose defined field is out of its range. -/
def Packet.offRange (p : Packet) (sets : Nat) : Option Nat :=
  match p.opcode with
  | 0x05 => if sets ≠ 0 && sets ≤ bits p.p0.toNat 0 4 then some 0 else none
  | 0x06 =>
    let num := bits p.p0.toNat 0 16
    let den := bits p.p0.toNat 16 16
    if num = 0 || den = 0 || 10000 * den < num then some 0
    else if 4000000000 ≤ p.p1.toNat then some 1
    else if p.nsets = 0 || 16 < p.nsets || (sets ≠ 0 && sets < p.nsets) then some 2
    else none
  | 0x0D => if 4 < bits p.p0.toNat 0 3 then some 0 else none
  | 0x0E =>
    if 5 < p.p0.toNat then some 0
    else if queryLimit p.p0.toNat ≤ p.p1.toNat || (p.p0.toNat = 2 && 128 ≤ bits p.p1.toNat 0 8) then some 1
    else if p.p3.toNat < querySize p.p0.toNat then some 3
    else none
  | 0x10 =>
    if !p.p0.getLsbD 0 then none
    else if captureSize < p.p1.toNat then some 1
    else if captureSize < p.p1.toNat + p.p3.toNat then some 3
    else none
  | 0x12 =>
    let op := bits p.p0.toNat 4 4
    if 3 < op then some 0
    else if op = 3 && (p.p2 = 0 || 4096 < p.p2.toNat) then some 2
    else none
  | 0x13 => if 1 < p.p0.toNat then some 0 else none
  | 0x14 => if bits p.p1.toNat 0 16 = 0 || 4096 < bits p.p1.toNat 0 16 then some 1 else none
  | _ => none

/-- The first parameter out of its range, by opcode (R439). Parameters that lists and buffers hold are checked with them. `sets`
is the number of buffer sets of the job (15 R464), 0 where none has copies. -/
def Packet.badParam (p : Packet) (sets : Nat) : Option Nat := firstParam (p.wide) (p.offRange sets)

/-- Opcodes whose lists are checked before the state is. -/
def Packet.hasList (p : Packet) : Bool :=
  p.opcode = 0x01 || p.opcode = 0x03 || p.opcode = 0x09 || p.opcode = 0x0B || p.opcode = 0x0C
    || (p.opcode = 0x12 && bits p.p0.toNat 4 4 = 3)

/-- Commands that may begin while the device is RESETTING. -/
def Packet.inReset (p : Packet) : Bool := p.opcode = 0x0E || p.opcode = 0x0F || p.opcode = 0x14

end Sys2Proof

namespace Sys2Proof.Machine

/-- The first check of opcode, CFLAGS, JOB and parameters that a command fails: 0xFF for the first three (R439). -/
def State.paramFault (s : State) (c : Cmd) : Option Nat :=
  let p := c.p
  match opRow p.opcode with
  | none => some 0xFF
  | some r =>
    if !r.cls.contains p.cls || (p.cls = 0 && p.order) || 16 ≤ p.cflags.toNat then some 0xFF
    else if r.job ≠ decide (p.job.toNat < 64) || (!r.job && p.job ≠ 0xFF) then some 0xFF
    else p.badParam (if r.job then (s.job p.job.toNat).sets else 0)

/-- Whether a point is faster than the schedule point of a job that is LOADED, ARMED or RUNNING (02 R46). -/
def State.tooFast (s : State) (op : Nat) : Bool :=
  s.jobs.any fun x => (x.2.state = jLOADED || x.2.state = jARMED || x.2.state = jRUNNING) && op < x.2.op

/-- Whether the state of device or job forbids a command (R446; 02 R46; 13 R413). -/
def State.stateFault (s : State) (c : Cmd) : Bool :=
  let p := c.p
  match opRow p.opcode with
  | none => false
  | some r =>
    let j := s.job p.job.toNat
    !r.dev.contains s.host.state || (r.job && !r.jobs.contains j.state)
      || (s.host.state = dRECOVERY && p.opcode = 0x0E && p.p0 ≠ 0)
      || ((p.opcode = 0x05 || p.opcode = 0x06) && s.clk.op < j.op)
      || (p.opcode = 0x0D && s.tooFast c.point)
      || ((p.opcode = 0x0B || (p.opcode = 0x13 && p.p0 = 0)) && s.noMaster)

/-- Whether a LOAD is the one that holds its slot in LOADING (00 R22). -/
def State.loader (s : State) (c : Cmd) : Bool :=
  c.p.opcode = 0x01 && (s.job c.p.job.toNat).state = jLOADING
    && ((s.host.exec.find? fun x => x.p.opcode = 0x01 && x.p.job = c.p.job).map (·.id)) = some c.id

/-- The state check of a command that is executing: the slot that a LOAD holds in LOADING was EMPTY. -/
def State.stateBad (s : State) (c : Cmd) : Bool :=
  if s.loader c then (s.setJob c.p.job.toNat Job.empty).stateFault c else s.stateFault c

/-- A command begins execution: it is checked, and fails at once or is executing. LOAD takes an EMPTY slot to LOADING. -/
def State.beginCmd (s : State) (c : Cmd) : State :=
  let t := s.clk.tbt.toNat
  let c := { c with begin0 := t, delay := ccycOf s.clk.op (t - c.admitAt) }
  match s.paramFault c with
  | some k => s.cmdRecord c .eparam k
  | none =>
    if !c.p.hasList && s.stateFault c then s.cmdRecord c .estate (s.stateDetail c.p.job.toNat)
    else
      let s' := { s with host := { s.host with exec := s.host.exec ++ [c] } }
      if c.p.opcode = 0x01 && !s.stateFault c then s'.setJob c.p.job.toNat { Job.empty with state := jLOADING } else s'

/-- The meaning of an opcode for the executing command `id`: `mine` tells rows of one opcode apart, `bad` checks its lists. -/
def State.perform1 (s : State) (id opc : Nat) (mine : Cmd → Bool) (bad : Cmd → Option Nat) (act : Cmd → State) : State :=
  match s.cmd id with
  | none => s
  | some c =>
    if c.p.opcode ≠ opc || c.acted || !mine c then s
    else
      match s.paramFault c with
      | some k => s.badParam id k
      | none =>
        match bad c with
        | some k => s.badParam id k
        | none => if s.stateBad c then s.badState id else act c

/-- A command whose parameters are in range reads its buffers; where any of them is poisoned, it ends with EPOISON (00 R18). -/
def State.reading (s : State) (id opc : Nat) (ecc : List EccObs) (bufs : Cmd → List (W64 × Nat)) (k : State → State) : State :=
  match s.cmd id with
  | none => k s
  | some c =>
    if c.p.opcode ≠ opc || c.acted || (s.paramFault c).isSome then k s
    else
      let r := s.touchBuffers ecc (bufs c)
      if r.2 then r.1.noRecord id .epoison else k r.1

/-- An opcode without lists. -/
def State.runCmd (s : State) (id opc : Nat) (act : Cmd → State) : State :=
  s.perform1 id opc (fun _ => true) (fun _ => none) act

/-- The command has acted, and waits for its end. -/
def State.await (s : State) (id : Nat) : State :=
  { s with host := { s.host with exec := s.host.exec.map fun (c : Cmd) => if c.id = id then { c with acted := true } else c } }

/-! ### Admission and execution (R440, R452) -/

/-- Whether an entry of a ring may be fetched: the command processor, or in RECOVERY the boot ROM, serves it. -/
def State.mayFetch (s : State) (ring : Nat) : Bool :=
  let r := s.ring ring
  (s.host.fwrun || s.host.state = dRECOVERY) && r.en && !r.full && r.head ≠ r.sqTail
    && !(s.host.stalled.any fun c => c.ring = ring)

/-- A fetched command is admitted. -/
def State.admitCmd (s : State) (c : Cmd) : State :=
  let h := s.host
  if c.p.opcode = 0x11 && h.state = dRESETTING && (s.paramFault c).isNone then
    { s with
      host := { h with exec := h.exec ++ [{ c with acted := true }] }
      fl := { s.fl with rsCmds := s.fl.rsCmds ++ [c.id] } }
  else
    match c.cls with
    | 0 => s.beginCmd c
    | 1 => if h.elastic.length < 1024 then { s with host := { h with elastic := h.elastic ++ [c] } }
      else { s with host := { h with stalled := h.stalled ++ [c] } }
    | 2 => if h.bulk.length < 1024 then { s with host := { h with bulk := h.bulk ++ [c] } }
      else s.cmdRecord c .erefused 0xFFFF
    | _ => s.cmdRecord c .eparam 0xFF

/-- The bytes of HBM that hold the next entry of a ring there (R429). -/
def Ring.nextEntry (r : Ring) : List (Nat × Nat) :=
  if r.inDevice then [(r.sqbase.toNat % 2 ^ 48 + 64 * (r.head.toNat % 2 ^ r.sqLog), 64)] else []

/-- COMMAND_ADMISSION: the next entry of a ring, which holds `p`, is fetched; a poisoned one ends with EPOISON (00 R18). -/
def execCommandAdmission (ring : Reads) (p : Packet) (s : State) : Host.Outcome State Fault Refusal :=
  accept (.commandAdmission ring p) (
    if !s.mayFetch ring.no then s
    else
      let r := s.ring ring.no
      let t := s.clk.tbt.toNat
      let c : Cmd :=
        { id := s.nextId, ring := ring.no, p := p, cls := p.cls, bell := r.bell, admitAt := t, begin0 := t, delay := 0
          defer := s.cfg.deferOf ring.no, mute := false, acted := false }
      let s := s.setRing ring.no { r with head := r.head + 1, open_ := r.open_ + 1 }
      let x := { s with nextId := s.nextId + 1 }.touch ring.ecc r.nextEntry
      if x.2 then x.1.cmdRecord c .epoison 0xFFFF else x.1.admitCmd c)

/-- Whether an earlier command of a ring is not complete. -/
def HostIf.earlier (h : HostIf) (c : Cmd) : Bool :=
  (h.exec ++ h.elastic ++ h.bulk).any fun x => x.ring = c.ring && x.id < c.id

/-- Whether a command waits under ORDER. -/
def HostIf.ordered (h : HostIf) (c : Cmd) : Bool := c.p.order && h.earlier c

/-- Whether a queued command may begin: commands of one job execute one at a time, but a START that waits for its TBT bars no
other (DEDUCED: STOP cancels it). -/
def State.canBegin (s : State) (c : Cmd) : Bool :=
  let h := s.host
  !h.ordered c && !(h.state = dRESETTING && !c.p.inReset) && !(c.p.opcode = 0x11 && s.fl.capB)
    && !(c.p.job.toNat < 64 && h.exec.any fun x => x.p.job = c.p.job && x.p.opcode ≠ 0x05)

/-- A command that waited at its ring takes the entry that has become free. -/
def HostIf.unstall (h : HostIf) : HostIf :=
  match h.stalled with
  | [] => h
  | c :: t => if h.elastic.length < 1024 then { h with elastic := h.elastic ++ [c], stalled := t } else h

/-- Whether a BULK command has waited longer than its deferral limit. -/
def Cmd.expired (c : Cmd) (t : Nat) : Bool := c.admitAt + c.defer * 4000000 < t

/-- The oldest BULK command begins, or is refused. -/
def State.beginBulk (s : State) : State :=
  match s.host.bulk with
  | [] => s
  | c :: t =>
    if !s.canBegin c then s
    else
      let s := { s with host := { s.host with bulk := t } }
      if c.expired s.clk.tbt.toNat then s.cmdRecord c .erefused 0xFFFF else s.beginCmd c

/-- COMMAND_EXECUTE. -/
def execCommandExecute (s : State) : Host.Outcome State Fault Refusal :=
  accept .commandExecute (
    match s.host.elastic with
    | [] => s.beginBulk
    | c :: t =>
      if s.canBegin c then { s with host := { s.host with elastic := t }.unstall }.beginCmd c
      else if s.host.ordered c then s.beginBulk
      else s)

/-- BULK_DEFERRAL_EXPIRY. -/
def execBulkDeferralExpiry (id : Nat) (s : State) : Host.Outcome State Fault Refusal :=
  accept (.bulkDeferralExpiry id) (
    match s.host.bulk.find? (fun c => c.id = id) with
    | none => s
    | some c =>
      if !c.expired s.clk.tbt.toNat then s
      else
        let t := s.clk.tbt.toNat
        let c := { c with begin0 := t, delay := ccycOf s.clk.op (t - c.admitAt) }
        { s with host := { s.host with bulk := s.host.bulk.filter fun x => x.id ≠ id } }.cmdRecord c .erefused 0xFFFF)

/-! ### START, START_PERIODIC, STOP, DRAIN (R442, R443, R448, R553; 12 R372) -/

/-- The ring that receives the job's run records, and whether ticks started it. -/
def Job.startedBy (j : Job) (ring : Nat) (periodic : Bool) : Job := { j with state := jRUNNING, ring := ring, periodic := periodic }

/-- START: at once, or at TBT P2. A start that falls within a stop of the C-die waits for its end. -/
def execStart (id : Nat) (s : State) : Host.Outcome State Fault Refusal :=
  accept (.start id) (s.runCmd id 0x05 fun c =>
    let p := c.p
    let job := p.job.toNat
    let j := s.job job
    let t := s.clk.tbt.toNat
    let set := bits p.p0.toNat 0 4
    if p.p2 ≠ 0 && p.p2.toNat < c.bell + 3200 then s.noRecord id .erefused
    else if p.p2 ≠ 0 || s.clk.stopped then
      let at0 := if p.p2 = 0 then t else p.p2.toNat
      let s := s.setJob job { j.startedBy c.ring (j.state = jRUNNING && j.periodic) with
        starts := j.starts ++ [PendStart.mk id at0 set p.p1.toNat] }
      s.await id
    else if j.forbids then s.noRecord id .erefused
    else
      let s := s.setJob job (j.startedBy c.ring (j.state = jRUNNING && j.periodic))
      (s.startRun job ⟨t, set, p.p1.toNat, 0, c.ring, p.tag.toNat, c.cls⟩).finish id .ok 0)

/-- The epoch of ticks accepted at `t`, with phase `phi` (12 R372). -/
def epochAt (t phi : Nat) : Nat := ceilDiv (t + 4000000) 4000000000 * 4000000000 + phi

/-- START_PERIODIC. -/
def execStartPeriodic (id : Nat) (s : State) : Host.Outcome State Fault Refusal :=
  accept (.startPeriodic id) (s.runCmd id 0x06 fun c =>
    let p := c.p
    let job := p.job.toNat
    let j := s.job job
    let per : Periodic :=
      { num := bits p.p0.toNat 0 16, den := bits p.p0.toNat 16 16, epoch := epochAt s.clk.tbt.toNat p.p1.toNat
        nsets := p.nsets, limit := p.p3.toNat, deadline := p.p4.toNat, tick := 0, tag := p.tag.toNat, cls := c.cls
        stopped := false }
    (s.setJob job { j.startedBy c.ring true with per := some per }).finish id .ok 0)

/-- STOP: later ticks and pending starts are cancelled; it completes when the run in progress retires. -/
def execStop (id : Nat) (s : State) : Host.Outcome State Fault Refusal :=
  accept (.stop id) (s.runCmd id 0x07 fun c =>
    let job := c.p.job.toNat
    let s := (s.await id).cancelStarts job
    let j := s.job job
    (s.setJob job { j with stopCmd := j.stopCmd ++ [id] }).settleJob job)

/-- DRAIN: STOP of every RUNNING job. -/
def execDrain (id : Nat) (s : State) : Host.Outcome State Fault Refusal :=
  accept (.drain id) (s.runCmd id 0x08 fun c =>
    let ms := c.p.p0.toNat
    let lim := if ms = 0 then 0 else s.clk.tbt.toNat + 4000000 * ms
    let s := s.await id
    let s := { s with host := { s.host with state := dDRAINING, drain := some (id, lim) } }
    let s := (upFrom 0 64).foldl (fun (s : State) k =>
      if (s.job k).state = jRUNNING then (s.cancelStarts k).settleJob k else s) s
    s.settleDevice)

/-- DRAIN_TIMEOUT: the device stays DRAINING. -/
def execDrainTimeout (s : State) : Host.Outcome State Fault Refusal :=
  accept .drainTimeout (
    match s.host.drain with
    | none => s
    | some (id, t) =>
      if t = 0 || s.clk.tbt.toNat < t then s
      else { s with host := { s.host with drain := none } }.noRecord id .etimeout)

/-! ### SET_OP and TIME_CTRL (12 R361, R365; 17 R515) -/

/-- SET_OP: the change waits for its stop, or for the changes before it. -/
def execSetOp (id : Nat) (s : State) : Host.Outcome State Fault Refusal :=
  accept (.setOp id) (s.runCmd id 0x0D fun c =>
    let s := s.await id
    if s.clk.change.isSome then { s with clk := { s.clk with joined := s.clk.joined ++ [id] } }
    else { s with clk := { s.clk with change := some (max c.point s.mss.throttle, some id, s.clk.tbt.toNat) } })

/-- TIME_CTRL STEP by P1 ticks. `clusterBusy` says that another device of the cluster forbids it. -/
def execTimeCtrlStep (id : Nat) (clusterBusy : Bool) (s : State) : Host.Outcome State Fault Refusal :=
  accept (.timeCtrlStep id clusterBusy) (
    s.perform1 id 0x13 (fun c => c.p.p0 = 0) (fun _ => none) fun c =>
      if s.timeBusy || clusterBusy then s.badState id
      else (s.correct c.p.p1.toInt).finish id .ok 0)

/-- TIME_CTRL READ: 16 B at P2. -/
def execTimeCtrlRead (id : Nat) (s : State) : Host.Outcome State Fault Refusal :=
  accept (.timeCtrlRead id) (
    s.perform1 id 0x13 (fun c => c.p.p0 = 1) (fun _ => none) fun c =>
      (s.result c.p.p2 (leBytes s.clk.tbt.toNat 8 ++ leBytes s.clk.status 4 ++ leBytes 0 4)).finish id .ok 16)

/-! ### Ports (13 R397, R407, R409, R412, R418) -/

/-- Entry k of an aperture table. -/
def apertureAt (d : List Byte) (k : Nat) : Aperture :=
  ⟨BitVec.ofNat 64 (leAt d (24 * k) 8 % 2 ^ 32), BitVec.ofNat 64 (leAt d (24 * k + 8) 8 % 2 ^ 36),
    BitVec.ofNat 64 (leAt d (24 * k + 16) 8 % 2 ^ 36)⟩

/-- Whether R409 admits an entry: BASE at most LIMIT, and all of it user HBM, or scratchpads. -/
def Aperture.ok (a : Aperture) : Bool :=
  let lo := 4096 * a.base.toNat
  let hi := 4096 * a.limit.toNat + 4095
  a.base.toNat ≤ a.limit.toNat && (hi < hbmUser || (scrBase ≤ lo && hi < scrEnd))

/-- SET_APERTURES. -/
def execSetApertures (id : Reads) (table : List Byte) (s : State) : Host.Outcome State Fault Refusal :=
  accept (.setApertures id table) (s.reading id.no 0x0C id.ecc (fun c => [(c.p.p1, 1536)]) fun s =>
    let mine := fun (c : Cmd) => (upFrom 0 64).filter fun k => c.p.p2.getLsbD k
    let data := fun (c : Cmd) => s.buffer c.p.p1 1536 table
    s.perform1 id.no 0x0C (fun _ => true)
      (fun c => if (mine c).all fun k => (apertureAt (data c) k).ok then none else some 1)
      fun c =>
        let port := bits c.p.p0.toNat 0 4
        let x := s.port port
        let ap := (mine c).foldl (fun (m : SMap Aperture) k => tput Aperture.none m k (apertureAt (data c) k)) x.ap
        (s.setPort port { x with ap := ap }).finish id.no .ok 0)

/-- The port of a PORT_CTRL, and its operation. -/
def Cmd.port (c : Cmd) : Nat := bits c.p.p0.toNat 0 4
def Cmd.portOp (c : Cmd) : Nat := bits c.p.p0.toNat 4 4

/-- The counters of a port at their reset values (R415). -/
def Port.zeroCounts (x : Port) : Port :=
  { x with
    txPkt := 0, rxPkt := 0, replays := 0, replay2 := 0, crcCnt := 0, fecUe := 0, apDrop := 0, spoof := 0, lateCnt := 0
    lentCnt := 0, badPkt := 0, qhwm := 0 }

/-- PORT_RESET: DOWN, then TRAINING; on a standalone device every port stays DOWN (R410). It completes at once (DEDUCED). -/
def execPortReset (id : Nat) (s : State) : Host.Outcome State Fault Refusal :=
  accept (.portReset id) (
    s.perform1 id 0x12 (fun c => c.portOp = 0) (fun _ => none) fun c =>
      let p := c.port
      let s := s.closePort p pDOWN 7
      let s := (s.setPort p ((s.port p).zeroCounts)).calibrate [] 252 (144 + p)
      (if s.fab.role = 3 then s else s.trainPort p).finish id .ok 0)

/-- PORT_HOLD_DOWN: a port in DOWN stays there until its port reset (R378). -/
def execPortHoldDown (id : Nat) (s : State) : Host.Outcome State Fault Refusal :=
  accept (.portHoldDown id) (
    s.perform1 id 0x12 (fun c => c.portOp = 1) (fun _ => none) fun c =>
      ((s.closePort c.port pDOWN 0).ledgerPort c.port).finish id .ok 0)

/-- PORT_WRITE_CFG: NX_CFG from P1[31:0]. -/
def execPortWriteCfg (id : Nat) (s : State) : Host.Outcome State Fault Refusal :=
  accept (.portWriteCfg id) (
    s.perform1 id 0x12 (fun c => c.portOp = 2) (fun _ => none) fun c =>
      let x := s.port c.port
      (s.setPort c.port ({ x with cfg := BitVec.ofNat 32 (c.p.p1.toNat % 2 ^ 26) }).suspend).finish id .ok 0)

/-- Entry k of a cluster map: serial, ID, and whether its reserved bits are 0. -/
def mapEntry (d : List Byte) (k : Nat) : List Byte × Nat × Bool :=
  let e := (d.drop (24 * k)).take 24
  (e.take 20, leAt e 20 2 % 4096, leAt e 20 2 < 4096 && leAt e 22 2 = 0)

/-- Whether some two of a list are equal. -/
def hasTwins {α : Type} [DecidableEq α] : List α → Bool
  | [] => false
  | a :: t => t.contains a || hasTwins t

/-- LOAD_CLUSTER_MAP: on the master alone. -/
def execLoadClusterMap (id : Reads) (map : List Byte) (s : State) : Host.Outcome State Fault Refusal :=
  accept (.loadClusterMap id map) (s.reading id.no 0x12 id.ecc (fun c =>
      if c.portOp = 3 then [(c.p.p1, 24 * c.p.p2.toNat)] else []) fun s =>
    let entries := fun (c : Cmd) =>
      (upFrom 0 c.p.p2.toNat).map (mapEntry (s.buffer c.p.p1 (24 * c.p.p2.toNat) map))
    let bad := fun (c : Cmd) =>
      let l := entries c
      if s.fab.role ≠ 1 then some 0
      else if hasTwins (l.map (·.1)) || hasTwins (l.map (·.2.1)) || l.any (fun e => !e.2.2)
          || l.any (fun e => e.1 = s.mss.serial && e.2.1 ≠ 0)
          || l.any (fun e => s.fab.ids.any fun y => y.2 = e.2.1 && y.1 ≠ e.1) then some 1
      else none
    s.perform1 id.no 0x12 (fun c => c.portOp = 3) bad fun c =>
      ({ s with fab := { s.fab with map := (entries c).map fun (e : List Byte × Nat × Bool) => (e.1, e.2.1) } }).finish id.no .ok 0)

end Sys2Proof.Machine
end

