-- ==== Sys2Proof/Machine/Kvi.lean ====
section
/-!
DEFINITION. The 128-bit instruction word of KVI2 and KVI3: the encoder and the decoder of every engine operation (06 R175 to
R200; 07 R205 to R209). The loader decodes every word of an image with it.
-/

namespace Sys2Proof.Machine

open Sys2Proof

/-! ### What a word spells -/

/-- A word: its opcode, engine code, guard, DELTA, and operand bits [95:0]. -/
structure Word where
  opc   : Nat
  eng   : Nat
  guard : Option Guard
  delta : Nat
  args  : Nat
  deriving DecidableEq, Repr

/-- The 128 bits of a word. -/
def packWord (w : Word) : Nat :=
  w.args + w.delta * 2 ^ 96 + w.eng * 2 ^ 112
    + (match w.guard with
      | none => 0
      | some g => g.p.toNat * 2 ^ 115 + b2n g.inverted * 2 ^ 118 + 2 ^ 119)
    + w.opc * 2 ^ 120

/-- The fields of a word. -/
def splitWord (w : Nat) : Word where
  opc := bits w 120 8
  eng := bits w 112 3
  guard := if bits w 119 1 = 1 then some ⟨decide (bits w 118 1 = 1), BitVec.ofNat 3 (bits w 115 3)⟩ else none
  delta := bits w 96 16
  args := bits w 0 96

/-! ### Operand groups -/

def flag (x lo : Nat) : Bool := decide (bits x lo 1 = 1)

def tallyArgs (t : TallyOp) : Nat := b2n t.form * 2 ^ 95 + t.idx.toNat * 2 ^ 88 + b2n t.lhi * 2 ^ 80
def tallyOf (a : Nat) : TallyOp := ⟨flag a 95, BitVec.ofNat 7 (bits a 88 7), flag a 80⟩

def nArgs : NSrc → Nat
  | .imm n => n.toNat
  | .reg r => 2 ^ 87 + r.toNat * 2 ^ 81
def nOf (a : Nat) : NSrc := if flag a 87 then .reg (BitVec.ofNat 6 (bits a 81 6)) else .imm (BitVec.ofNat 32 (bits a 0 32))

def arithArgs (f : Arith) : Nat :=
  f.d.toNat * 2 ^ 90 + f.a.toNat * 2 ^ 84 + f.b.toNat * 2 ^ 78 + b2n f.i * 2 ^ 77 + f.imm.toNat
def arithOf (a : Nat) : Arith :=
  ⟨BitVec.ofNat 6 (bits a 90 6), BitVec.ofNat 6 (bits a 84 6), BitVec.ofNat 6 (bits a 78 6), flag a 77,
    BitVec.ofNat 64 (bits a 0 64)⟩

def memArgs (f : MemOp) : Nat :=
  f.d.toNat * 2 ^ 90 + f.a.toNat * 2 ^ 84 + f.b.toNat * 2 ^ 78 + f.size.toNat * 2 ^ 76 + b2n f.sx * 2 ^ 75
    + b2n f.rl * 2 ^ 74 + f.off.toNat
def memOf (a : Nat) : MemOp :=
  ⟨BitVec.ofNat 6 (bits a 90 6), BitVec.ofNat 6 (bits a 84 6), BitVec.ofNat 6 (bits a 78 6), BitVec.ofNat 2 (bits a 76 2),
    flag a 75, flag a 74, BitVec.ofNat 32 (bits a 0 32)⟩

/-- LINE, AREG and AEN of an MXE word (R192), and of a VXE word (R197). -/
def mxLineArgs (l : LineOp) : Nat := l.areg.toNat * 2 ^ 90 + b2n l.aen * 2 ^ 89 + l.line.toNat * 2 ^ 56
def mxLineOf (a : Nat) : LineOp := ⟨flag a 89, BitVec.ofNat 6 (bits a 90 6), BitVec.ofNat 17 (bits a 56 17)⟩
def vxLineArgs (l : LineOp) : Nat := l.areg.toNat * 2 ^ 84 + b2n l.aen * 2 ^ 83 + l.line.toNat * 2 ^ 56
def vxLineOf (a : Nat) : LineOp := ⟨flag a 83, BitVec.ofNat 6 (bits a 84 6), BitVec.ofNat 17 (bits a 56 17)⟩

def specArgs (s : Spec) : Nat := s.kind.toNat * 2 ^ 9 + s.idx.toNat
def operandOf (x : Nat) : Spec := ⟨BitVec.ofNat 2 (bits x 9 2), BitVec.ofNat 9 (bits x 0 9)⟩

def vopArgs (f : VopFields) : Nat :=
  f.chain.toNat * 2 ^ 86 + f.vd.toNat * 2 ^ 80 + specArgs f.srca * 2 ^ 69 + specArgs f.opx * 2 ^ 58
    + specArgs f.opy * 2 ^ 47 + specArgs f.opz * 2 ^ 36 + f.sd.toNat * 2 ^ 30 + b2n f.sde * 2 ^ 29 + f.sel.toNat * 2 ^ 26
    + b2n f.half * 2 ^ 25 + f.sx.toNat * 2 ^ 19
def vopOf (a : Nat) : VopFields where
  chain := BitVec.ofNat 10 (bits a 86 10)
  vd := BitVec.ofNat 6 (bits a 80 6)
  srca := operandOf (bits a 69 11)
  opx := operandOf (bits a 58 11)
  opy := operandOf (bits a 47 11)
  opz := operandOf (bits a 36 11)
  sd := BitVec.ofNat 6 (bits a 30 6)
  sde := flag a 29
  sel := BitVec.ofNat 3 (bits a 26 3)
  half := flag a 25
  sx := BitVec.ofNat 6 (bits a 19 6)

def fenceKindOf (n : Nat) : FenceKind := if n = 0 then .release else if n = 1 then .acquire else .full
def fenceKindCode : FenceKind → Nat
  | .release => 0 | .acquire => 1 | .full => 2
def scopeOf (n : Nat) : Scope := if n = 0 then .eng else if n = 1 then .core else if n = 2 then .dev else .fab
def scopeBits : Scope → Nat
  | .eng => 0 | .core => 1 | .dev => 2 | .fab => 3
def engineBits : Engine → Nat
  | .seq => 0 | .mxe => 1 | .vxe => 2 | .dma0 => 3 | .dma1 => 4 | .mse => 5
def engineOf (n : Nat) : Engine :=
  if n = 0 then .seq else if n = 1 then .mxe else if n = 2 then .vxe else if n = 3 then .dma0 else if n = 4 then .dma1
  else .mse
def dmaBits : Dma → Nat
  | .inbound => 3 | .outbound => 4
def dmaOf (n : Nat) : Dma := if n = 3 then .inbound else .outbound

def datomArgs (f : DatomFields) : Nat :=
  f.sa.toNat * 2 ^ 90 + f.sb.toNat * 2 ^ 84 + f.sc.toNat * 2 ^ 78 + b2n f.w8 * 2 ^ 77 + f.aop.toNat * 2 ^ 74
    + b2n f.sgn * 2 ^ 73 + scopeBits f.scope * 2 ^ 71 + f.rline.toNat * 2 ^ 54 + b2n f.ten * 2 ^ 53 + f.tally.toNat * 2 ^ 46
def datomOf (a : Nat) : DatomFields where
  sa := BitVec.ofNat 6 (bits a 90 6)
  sb := BitVec.ofNat 6 (bits a 84 6)
  sc := BitVec.ofNat 6 (bits a 78 6)
  w8 := flag a 77
  aop := BitVec.ofNat 3 (bits a 74 3)
  sgn := flag a 73
  scope := scopeOf (bits a 71 2)
  rline := BitVec.ofNat 17 (bits a 54 17)
  ten := flag a 53
  tally := BitVec.ofNat 7 (bits a 46 7)

/-- CTX, TEN and TALLY of an MSE word. -/
def mseArgs (ctx : BitVec 12) (r : Raise) : Nat := ctx.toNat * 2 ^ 84 + b2n r.ten * 2 ^ 81 + r.tally.toNat * 2 ^ 74
def ctxOf (a : Nat) : BitVec 12 := BitVec.ofNat 12 (bits a 84 12)
def mseRaise (a : Nat) : Raise := ⟨flag a 81, BitVec.ofNat 7 (bits a 74 7)⟩

/-! ### The encoder -/

def word (opc eng : Nat) (x : Issue) (delta args : Nat) : Option Word := some ⟨opc, eng, x.guard, delta, args⟩

/-- The word of an engine operation; a command that is none has no word. What nature decides is no part of it. -/
def wordOf (delta : Nat) : Instr → Option Word
  | .skip x e => word 0x01 (engineBits e) x delta 0
  | .tinc x e t n => word 0x02 (engineBits e) x delta (tallyArgs t + nArgs n)
  | .tdec x e t n => word 0x03 (engineBits e) x delta (tallyArgs t + nArgs n)
  | .twait x e t n tmo => word 0x04 (engineBits e) x delta (tallyArgs t + tmo.toNat * 2 ^ 32 + n.toNat)
  | .tset x t n => word 0x05 0 x delta (tallyArgs t + nArgs n)
  | .fence x e k s => word 0x06 (engineBits e) x delta (fenceKindCode k * 2 ^ 94 + scopeBits s * 2 ^ 92)
  | .add x f => word 0x10 0 x delta (arithArgs f)
  | .sub x f => word 0x11 0 x delta (arithArgs f)
  | .and x f => word 0x12 0 x delta (arithArgs f)
  | .or x f => word 0x13 0 x delta (arithArgs f)
  | .xor x f => word 0x14 0 x delta (arithArgs f)
  | .shl x f => word 0x15 0 x delta (arithArgs f)
  | .shr x f => word 0x16 0 x delta (arithArgs f)
  | .sar x f => word 0x17 0 x delta (arithArgs f)
  | .mul x f => word 0x18 0 x delta (arithArgs f)
  | .movi x d imm => word 0x19 0 x delta (d.toNat * 2 ^ 90 + imm.toNat)
  | .cmp x f fn => word 0x1A 0 x delta (arithArgs f + fn.toNat * 2 ^ 72)
  | .plog x d a b fn =>
    word 0x1B 0 x delta (d.toNat * 2 ^ 90 + a.toNat * 2 ^ 84 + b.toNat * 2 ^ 78 + fn.toNat * 2 ^ 72)
  | .sel x f ps => word 0x1C 0 x delta (arithArgs f + ps.toNat * 2 ^ 69)
  | .aadd x f => word 0x20 0 x delta (arithArgs f)
  | .amov x d a => word 0x21 0 x delta (d.toNat * 2 ^ 90 + a.toNat * 2 ^ 84)
  | .sfroma x d a => word 0x22 0 x delta (d.toNat * 2 ^ 90 + a.toNat * 2 ^ 84)
  | .movia x d imm => word 0x23 0 x delta (d.toNat * 2 ^ 90 + imm.toNat)
  | .rdsys x d imm => word 0x24 0 x delta (d.toNat * 2 ^ 90 + imm.toNat)
  | .ld x f _ => word 0x28 0 x delta (memArgs f)
  | .st x f _ => word 0x29 0 x delta (memArgs f)
  | .lda x f _ => word 0x2A 0 x delta (memArgs f)
  | .sta x f _ => word 0x2B 0 x delta (memArgs f)
  | .atom x f aop sgn c _ =>
    word 0x2C 0 x delta (memArgs f + aop.toNat * 2 ^ 71 + b2n sgn * 2 ^ 70 + c.toNat * 2 ^ 64)
  | .br x cond sr pr t f =>
    word 0x30 0 x delta
      (cond.toNat * 2 ^ 94 + sr.toNat * 2 ^ 88 + pr.toNat * 2 ^ 85 + t.toNat * 2 ^ 64 + f.toNat * 2 ^ 48)
  | .mldw x l fmt mx sl _ =>
    word 0x40 1 x delta (mxLineArgs l + fmt.toNat * 2 ^ 80 + b2n mx * 2 ^ 79 + sl.toNat * 2 ^ 32)
  | .mmul x l fmt mx sl nm1 row acc _ _ =>
    word 0x41 1 x delta
      (mxLineArgs l + fmt.toNat * 2 ^ 80 + b2n mx * 2 ^ 79 + sl.toNat * 2 ^ 32 + nm1.toNat * 2 ^ 23 + row.toNat * 2 ^ 14
        + b2n acc * 2 ^ 13)
  | .mclr x t => word 0x42 1 x delta (t.toNat * 2 ^ 10)
  | .mout x row vd ofmt half =>
    word 0x43 1 x delta (row.toNat * 2 ^ 14 + vd.toNat * 2 ^ 4 + ofmt.toNat * 2 ^ 2 + b2n half * 2)
  | .manc x t an => word 0x44 1 x delta (an.toNat * 2 ^ 32 + t.toNat * 2 ^ 10)
  | .mflg x t vd => word 0x45 1 x delta (t.toNat * 2 ^ 10 + vd.toNat * 2 ^ 4)
  | .mraw x l sa row _ => word 0x46 1 x delta (mxLineArgs l + sa.toNat * 2 ^ 32 + row.toNat * 2 ^ 14)
  | .vop x f => word 0x50 2 x delta (vopArgs f)
  | .vld x v l col rl _ =>
    word 0x51 2 x delta (v.toNat * 2 ^ 90 + vxLineArgs l + b2n col * 2 ^ 81 + b2n rl * 2 ^ 80)
  | .vldStrided x (.v r) l st w b0 rl _ =>
    word 0x51 2 x delta
      (r.toNat * 2 ^ 90 + vxLineArgs l + 2 * 2 ^ 81 + b2n rl * 2 ^ 80 + st.toNat * 2 ^ 42 + w.toNat * 2 ^ 40
        + b0.toNat * 2 ^ 38)
  | .vldStrided x (.oc e) l st w b0 rl _ =>
    word 0x53 2 x delta
      (vxLineArgs l + 2 * 2 ^ 81 + b2n rl * 2 ^ 80 + st.toNat * 2 ^ 42 + w.toNat * 2 ^ 40 + b0.toNat * 2 ^ 38
        + e.toNat * 2 ^ 23)
  | .vldTranspose x v l tw sh rl _ =>
    word 0x51 2 x delta
      (v.toNat * 2 ^ 90 + vxLineArgs l + 3 * 2 ^ 81 + b2n rl * 2 ^ 80 + tw.toNat * 2 ^ 36 + b2n sh * 2 ^ 35)
  | .vst x v l col => word 0x52 2 x delta (v.toNat * 2 ^ 90 + vxLineArgs l + b2n col * 2 ^ 81)
  | .ocfill x e l col rl _ =>
    word 0x53 2 x delta (vxLineArgs l + b2n col * 2 ^ 81 + b2n rl * 2 ^ 80 + e.toNat * 2 ^ 23)
  | .ocput x v e => word 0x54 2 x delta (v.toNat * 2 ^ 90 + e.toNat * 2 ^ 23)
  | .lutld x lo hi e => word 0x55 2 x delta (lo.toNat * 2 ^ 90 + hi.toNat * 2 ^ 84 + e.toNat * 2 ^ 23)
  | .dload x e slot t => word 0x60 (dmaBits e) x delta (slot.toNat * 2 ^ 92 + t.toNat * 2 ^ 64)
  | .dbase x e slot dst sr ad =>
    word 0x61 (dmaBits e) x delta (slot.toNat * 2 ^ 92 + b2n dst * 2 ^ 90 + sr.toNat * 2 ^ 84 + b2n ad * 2 ^ 83)
  | .dgo x e slot r inc =>
    word 0x62 (dmaBits e) x delta (slot.toNat * 2 ^ 92 + b2n r.ten * 2 ^ 91 + r.tally.toNat * 2 ^ 84 + inc.toNat)
  | .datom x f => word 0x63 4 x delta (datomArgs f)
  | .qopen x ctx cls r dev qid =>
    word 0x70 5 x delta (mseArgs ctx r + cls.toNat * 2 ^ 82 + dev.toNat * 2 ^ 52 + qid.toNat * 2 ^ 32)
  | .qclose x ctx r => word 0x71 5 x delta (mseArgs ctx r)
  | .qsend x ctx r nw sb mc =>
    word 0x72 5 x delta (mseArgs ctx r + nw.toNat * 2 ^ 71 + sb.toNat * 2 ^ 65 + b2n mc * 2 ^ 64)
  | .qcsend x ctx r vk sv sk =>
    word 0x73 5 x delta (mseArgs ctx r + vk.toNat * 2 ^ 72 + sv.toNat * 2 ^ 66 + sk.toNat * 2 ^ 60)
  | _ => none

/-- The 128 bits of an engine operation with its DELTA; 0, which is no operation, for any other command. -/
def encodeWord (delta : Nat) (i : Instr) : Nat :=
  match wordOf delta i with
  | some w => packWord w
  | none => 0

/-! ### The decoder -/

/-- The operand bits that an opcode leaves reserved, as (lowest bit, width) (R175, R186 to R200, R205, R209). GEOM decides what
VLD and OCFILL read (R197). -/
def reserved (opc args : Nat) : List (Nat × Nat) :=
  match opc with
  | 0x01 => [(0, 96)]
  | 0x02 | 0x03 | 0x05 => [(32, 48)]
  | 0x04 => [(64, 16)]
  | 0x06 => [(0, 92)]
  | 0x10 | 0x11 | 0x12 | 0x13 | 0x14 | 0x15 | 0x16 | 0x17 | 0x18 | 0x20 => [(64, 13)]
  | 0x19 | 0x23 | 0x24 => [(64, 26)]
  | 0x1A => [(64, 8)]
  | 0x1B => [(77, 1), (0, 72)]
  | 0x1C => [(72, 5), (64, 5)]
  | 0x21 | 0x22 => [(0, 84)]
  | 0x28 => [(78, 6), (32, 42)]
  | 0x29 => [(90, 6), (32, 44)]
  | 0x2A => [(78, 6), (75, 1), (32, 42)]
  | 0x2B => [(90, 6), (32, 44)]
  | 0x2C => [(75, 1), (32, 32)]
  | 0x30 => [(80, 5), (0, 48)]
  | 0x40 => [(84, 5), (73, 6), (49, 7), (0, 32)]
  | 0x41 => [(84, 5), (73, 6), (49, 7), (0, 13)]
  | 0x42 => [(13, 83), (0, 10)]
  | 0x43 => [(23, 73), (10, 4), (0, 1)]
  | 0x44 => [(44, 52), (13, 19), (0, 10)]
  | 0x45 => [(13, 83), (0, 4)]
  | 0x46 => [(73, 16), (44, 12), (23, 9), (0, 14)]
  | 0x50 => [(0, 19)]
  | 0x51 =>
    match bits args 81 2 with
    | 2 => [(73, 7), (0, 38)]
    | 3 => [(73, 7), (38, 18), (0, 35)]
    | _ => [(73, 7), (0, 56)]
  | 0x52 => [(82, 1), (73, 8), (0, 56)]
  | 0x53 => if bits args 81 2 = 2 then [(90, 6), (73, 7), (32, 6), (0, 23)] else [(90, 6), (82, 1), (73, 7), (32, 24), (0, 23)]
  | 0x54 => [(32, 58), (0, 23)]
  | 0x55 => [(32, 52), (0, 23)]
  | 0x60 => [(80, 12), (0, 64)]
  | 0x61 => [(91, 1), (0, 83)]
  | 0x62 => [(32, 52)]
  | 0x63 => [(0, 46)]
  | 0x70 => [(64, 10), (0, 32)]
  | 0x71 => [(82, 2), (0, 74)]
  | 0x72 => [(82, 2), (0, 64)]
  | 0x73 => [(82, 2), (0, 60)]
  | _ => []

/-- The engines of an opcode, by its engine code (the opcode map of 06). -/
def engineTakes (opc eng : Nat) : Bool :=
  if opc = 0x05 then eng == 0
  else if opc ≤ 0x06 then decide (eng ≤ 5)
  else if opc ≤ 0x30 then eng == 0
  else if opc ≤ 0x46 then eng == 1
  else if opc ≤ 0x55 then eng == 2
  else if opc ≤ 0x62 then eng == 3 || eng == 4
  else if opc = 0x63 then eng == 4
  else eng == 5

/-- The issue of a decoded word: where and when it issues is not in the word. -/
def bare (g : Option Guard) : Issue := ⟨0, 0, 0, g⟩

/-- The operation that a word's fields spell, by opcode; none for a reserved opcode or a reserved code of a field that a
constructor has no value for. -/
def instrOf (w : Word) : Option Instr :=
  let x := bare w.guard
  let a := w.args
  let r6 := fun (lo : Nat) => BitVec.ofNat 6 (bits a lo 6)
  match w.opc with
  | 0x01 => some (.skip x (engineOf w.eng))
  | 0x02 => some (.tinc x (engineOf w.eng) (tallyOf a) (nOf a))
  | 0x03 => some (.tdec x (engineOf w.eng) (tallyOf a) (nOf a))
  | 0x04 =>
    if flag a 87 then none
    else some (.twait x (engineOf w.eng) (tallyOf a) (BitVec.ofNat 32 (bits a 0 32)) (BitVec.ofNat 32 (bits a 32 32)))
  | 0x05 => some (.tset x (tallyOf a) (nOf a))
  | 0x06 =>
    if bits a 94 2 = 3 then none else some (.fence x (engineOf w.eng) (fenceKindOf (bits a 94 2)) (scopeOf (bits a 92 2)))
  | 0x10 => some (.add x (arithOf a))
  | 0x11 => some (.sub x (arithOf a))
  | 0x12 => some (.and x (arithOf a))
  | 0x13 => some (.or x (arithOf a))
  | 0x14 => some (.xor x (arithOf a))
  | 0x15 => some (.shl x (arithOf a))
  | 0x16 => some (.shr x (arithOf a))
  | 0x17 => some (.sar x (arithOf a))
  | 0x18 => some (.mul x (arithOf a))
  | 0x19 => some (.movi x (r6 90) (BitVec.ofNat 64 (bits a 0 64)))
  | 0x1A => some (.cmp x (arithOf a) (BitVec.ofNat 5 (bits a 72 5)))
  | 0x1B => some (.plog x (r6 90) (r6 84) (r6 78) (BitVec.ofNat 5 (bits a 72 5)))
  | 0x1C => some (.sel x (arithOf a) (BitVec.ofNat 3 (bits a 69 3)))
  | 0x20 => some (.aadd x (arithOf a))
  | 0x21 => some (.amov x (r6 90) (r6 84))
  | 0x22 => some (.sfroma x (r6 90) (r6 84))
  | 0x23 => some (.movia x (r6 90) (BitVec.ofNat 64 (bits a 0 64)))
  | 0x24 => some (.rdsys x (r6 90) (BitVec.ofNat 64 (bits a 0 64)))
  | 0x28 => some (.ld x (memOf a) [])
  | 0x29 => some (.st x (memOf a) [])
  | 0x2A => some (.lda x (memOf a) [])
  | 0x2B => some (.sta x (memOf a) [])
  | 0x2C => some (.atom x (memOf a) (BitVec.ofNat 3 (bits a 71 3)) (flag a 70) (r6 64) [])
  | 0x30 =>
    some (.br x (BitVec.ofNat 2 (bits a 94 2)) (r6 88) (BitVec.ofNat 3 (bits a 85 3)) (BitVec.ofNat 16 (bits a 64 16))
      (BitVec.ofNat 16 (bits a 48 16)))
  | 0x40 =>
    some (.mldw x (mxLineOf a) (BitVec.ofNat 4 (bits a 80 4)) (flag a 79) (BitVec.ofNat 17 (bits a 32 17)) [])
  | 0x41 =>
    some (.mmul x (mxLineOf a) (BitVec.ofNat 4 (bits a 80 4)) (flag a 79) (BitVec.ofNat 17 (bits a 32 17))
      (BitVec.ofNat 9 (bits a 23 9)) (BitVec.ofNat 9 (bits a 14 9)) (flag a 13) [] [])
  | 0x42 => some (.mclr x (BitVec.ofNat 3 (bits a 10 3)))
  | 0x43 => some (.mout x (BitVec.ofNat 9 (bits a 14 9)) (r6 4) (BitVec.ofNat 2 (bits a 2 2)) (flag a 1))
  | 0x44 => some (.manc x (BitVec.ofNat 3 (bits a 10 3)) (BitVec.ofNat 12 (bits a 32 12)))
  | 0x45 => some (.mflg x (BitVec.ofNat 3 (bits a 10 3)) (r6 4))
  | 0x46 => some (.mraw x (mxLineOf a) (BitVec.ofNat 12 (bits a 32 12)) (BitVec.ofNat 9 (bits a 14 9)) [])
  | 0x50 => some (.vop x (vopOf a))
  | 0x51 =>
    match bits a 81 2 with
    | 2 =>
      some (.vldStrided x (.v (r6 90)) (vxLineOf a) (BitVec.ofNat 14 (bits a 42 14)) (BitVec.ofNat 2 (bits a 40 2))
        (BitVec.ofNat 2 (bits a 38 2)) (flag a 80) [])
    | 3 => some (.vldTranspose x (r6 90) (vxLineOf a) (BitVec.ofNat 2 (bits a 36 2)) (flag a 35) (flag a 80) [])
    | _ => some (.vld x (r6 90) (vxLineOf a) (flag a 81) (flag a 80) [])
  | 0x52 => some (.vst x (r6 90) (vxLineOf a) (flag a 81))
  | 0x53 =>
    if bits a 81 2 = 2 then
      some (.vldStrided x (.oc (BitVec.ofNat 9 (bits a 23 9))) (vxLineOf a) (BitVec.ofNat 14 (bits a 42 14))
        (BitVec.ofNat 2 (bits a 40 2)) (BitVec.ofNat 2 (bits a 38 2)) (flag a 80) [])
    else some (.ocfill x (BitVec.ofNat 9 (bits a 23 9)) (vxLineOf a) (flag a 81) (flag a 80) [])
  | 0x54 => some (.ocput x (r6 90) (BitVec.ofNat 9 (bits a 23 9)))
  | 0x55 => some (.lutld x (r6 90) (r6 84) (BitVec.ofNat 9 (bits a 23 9)))
  | 0x60 => some (.dload x (dmaOf w.eng) (BitVec.ofNat 4 (bits a 92 4)) (BitVec.ofNat 16 (bits a 64 16)))
  | 0x61 => some (.dbase x (dmaOf w.eng) (BitVec.ofNat 4 (bits a 92 4)) (flag a 90) (r6 84) (flag a 83))
  | 0x62 =>
    some (.dgo x (dmaOf w.eng) (BitVec.ofNat 4 (bits a 92 4)) ⟨flag a 91, BitVec.ofNat 7 (bits a 84 7)⟩
      (BitVec.ofNat 32 (bits a 0 32)))
  | 0x63 => some (.datom x (datomOf a))
  | 0x70 =>
    some (.qopen x (ctxOf a) (BitVec.ofNat 2 (bits a 82 2)) (mseRaise a) (BitVec.ofNat 12 (bits a 52 12))
      (BitVec.ofNat 20 (bits a 32 20)))
  | 0x71 => some (.qclose x (ctxOf a) (mseRaise a))
  | 0x72 => some (.qsend x (ctxOf a) (mseRaise a) (BitVec.ofNat 3 (bits a 71 3)) (r6 65) (flag a 64))
  | 0x73 => some (.qcsend x (ctxOf a) (mseRaise a) (BitVec.ofNat 2 (bits a 72 2)) (r6 66) (r6 60))
  | _ => none

/-- The DELTA and the operation of 128 bits: none for a reserved opcode, an engine that is not the opcode's, a reserved field
that is not 0, a reserved code, or a register beyond its file (R175, R179). -/
def decodeWord (w : Nat) : Option (Nat × Instr) :=
  let x := splitWord w
  match instrOf x with
  | none => none
  | some i =>
    if engineTakes x.opc x.eng && (reserved x.opc x.args).all (fun r => bits x.args r.1 r.2 = 0) && i.fieldsOk then
      some (x.delta, i)
    else none

/-- The fields of an operation that its opcode does not define: they are 0 in every word (R175). -/
def spareZero : Instr → Bool
  | .ld _ f _ => f.b == 0
  | .st _ f _ => f.d == 0 && !f.sx && !f.rl
  | .lda _ f _ => f.b == 0 && !f.sx
  | .sta _ f _ => f.d == 0 && !f.sx && !f.rl
  | .atom _ f _ _ _ _ => !f.sx
  | _ => true

end Sys2Proof.Machine
end

