-- ==== Sys2Proof/Machine/Image.lean ====
section
/-!
DEFINITION. The program image: header, section table, relocation table, bindings, and the image as patched, with the refusals of
the loader that concern them (06 R166 to R171, R201, R202; 07 R210; 15 R460 to R464).
-/

namespace Sys2Proof.Machine

open Sys2Proof

/-! ### KVI indexes of a refusal (R167) -/

def kviHeader : Nat := fld 7 29 3 + 0x3FFFFF
def kviSection (n : Nat) : Nat := fld 7 29 3 + n
/-- Entry `idx` of a table section of core image `core`. -/
def kviTable (core sect idx : Nat) : Nat := fld 6 29 3 + fld core 22 7 + fld sect 18 4 + fld idx 0 18
def kviOf (core eng word : Nat) : Nat := fld eng 29 3 + fld core 22 7 + fld word 0 22

def sBlocks : Nat := 2
def sChains : Nat := 3
def sDescs : Nat := 4
def sReloc : Nat := 5
def sHandlers : Nat := 6
def sWindows : Nat := 7
def sAudit : Nat := 8

/-- A refusal, where a test fails. -/
def failIf (bad : Bool) (k : Nat) : Option Nat := if bad then some k else none

/-- The first refusal among the items of a list, with their indexes from `n`. -/
def firstBad {α : Type} (f : Nat → α → Option Nat) : Nat → List α → Option Nat
  | _, [] => none
  | n, a :: t =>
    match f n a with
    | some k => some k
    | none => firstBad f (n + 1) t

/-- The first refusal of checks in order. -/
def firstOf : List (Option Nat) → Option Nat
  | [] => none
  | some k :: _ => some k
  | none :: t => firstOf t

/-! ### Header and sections (R168 to R170) -/

/-- Header fields. -/
def imgIsa (i : List Byte) : Nat := leAt i 4 2
def imgCores (i : List Byte) : Nat := leAt i 8 2
def imgSects (i : List Byte) : Nat := leAt i 0x0A 2
def imgSectOff (i : List Byte) : Nat := leAt i 0x0C 4
def imgOp (i : List Byte) : Nat := bits (leAt i 0x10 4) 0 3

/-- Whether the header is refused (R4, R169; 02 R60). The table must lie in the image (DEDUCED). -/
def headerBad (i : List Byte) (audit : Bool) : Bool :=
  i.length < 64 || leAt i 0 4 ≠ 0x3249564B || !(imgIsa i = 2 || imgIsa i = 3) || leAt i 6 2 ≠ 64
    || imgCores i = 0 || 128 < imgCores i || imgSectOff i % 16 ≠ 0 || imgSectOff i < 64
    || i.length < imgSectOff i + 16 * imgSects i
    || bits (leAt i 0x10 4) 3 29 ≠ 0 || 4 < imgOp i
    || 128 < leAt i 0x14 2 || leAt i 0x14 2 < imgCores i || 2048 < leAt i 0x16 2
    || !(leAt i 0x18 1 = 0 || leAt i 0x18 1 = 2) || !zeroAt i 0x19 1
    || 512 < leAt i 0x1A 2 || 1152 < leAt i 0x1C 4 || !zeroAt i 0x20 32
    || (audit && imgIsa i = 2)

/-- A section-table entry. -/
structure Sect where
  ty   : Nat
  core : Nat
  eng  : Nat
  off  : Nat
  size : Nat
  res  : Nat
  deriving DecidableEq, Repr

def sectAt (i : List Byte) (n : Nat) : Sect :=
  let o := imgSectOff i + 16 * n
  ⟨leAt i o 2, leAt i (o + 2) 2, leAt i (o + 4) 1, leAt i (o + 8) 4, leAt i (o + 12) 4, leAt i (o + 5) 3⟩

def imgTable (i : List Byte) : List Sect := (upFrom 0 (imgSects i)).map (sectAt i)

/-- Bytes of an entry, and the largest count of entries where there is one. -/
def entryBytes (ty : Nat) : Nat :=
  match ty with
  | 1 => 16 | 2 => 32 | 3 => 16 | 4 => 128 | 5 => 24 | 6 => 16 | _ => 8
def entryLimit (ty : Nat) : Option Nat :=
  match ty with
  | 3 => some 1024
  | 6 => some 64
  | 7 => some 256
  | _ => none

/-- Whether two ranges of bytes meet. -/
def meets (a n b m : Nat) : Bool := decide (n ≠ 0) && decide (m ≠ 0) && decide (a < b + m) && decide (b < a + n)

/-- Whether a section is refused; `before` lists those of lower index. -/
def sectBad (i : List Byte) (before : List Sect) (x : Sect) : Bool :=
  let whole := x.ty = sReloc
  x.ty = 0 || 8 < x.ty || (x.ty = sAudit && imgIsa i = 2) || x.res ≠ 0
    || (if whole then x.core ≠ 0xFFFF else imgCores i ≤ x.core)
    || (if x.ty = 1 then 5 < x.eng else x.eng ≠ 0)
    || x.off % 16 ≠ 0 || x.size % entryBytes x.ty ≠ 0 || i.length < x.off + x.size
    || (match entryLimit x.ty with
      | some n => n < x.size / entryBytes x.ty
      | none => false)
    || meets x.off x.size 0 64 || meets x.off x.size (imgSectOff i) (16 * imgSects i)
    || (before.any fun y => meets x.off x.size y.off y.size || (y.ty = x.ty && y.core = x.core && y.eng = x.eng))

/-- The first section-table entry that is refused, by index. -/
def tableFault (i : List Byte) : List Sect → Nat → List Sect → Option Nat
  | _, _, [] => none
  | before, n, x :: t => if sectBad i before x then some (kviSection n) else tableFault i (x :: before) (n + 1) t

/-- The section of a kind. -/
def findSect (l : List Sect) (ty core eng : Nat) : Option Sect :=
  l.find? fun x => x.ty = ty && x.core = core && x.eng = eng

/-- Whether some core image lacks its BLOCKS or a STREAM section. -/
def lacksSect (i : List Byte) (l : List Sect) : Bool :=
  (upFrom 0 (imgCores i)).any fun c =>
    (findSect l sBlocks c 0).isNone || (upFrom 0 6).any fun e => (findSect l 1 c e).isNone

/-- The entries of a section, as numbers. -/
def entriesOf (i : List Byte) (s : Option Sect) : List Nat :=
  match s with
  | none => []
  | some x =>
    let n := entryBytes x.ty
    (upFrom 0 (x.size / n)).map fun k => leAt i (x.off + n * k) n

/-- A core image as the image file holds it: each table's entries as numbers, and its six streams. -/
structure CoreRaw where
  windows  : List Nat
  blocks   : List Nat
  chains   : List Nat
  descs    : List Nat
  handlers : List Nat
  audit    : List Nat
  streams  : List (List Nat)
  deriving DecidableEq, Repr

def CoreRaw.empty : CoreRaw := ⟨[], [], [], [], [], [], []⟩

def coreRaw (i : List Byte) (l : List Sect) (c : Nat) : CoreRaw where
  windows := entriesOf i (findSect l sWindows c 0)
  blocks := entriesOf i (findSect l sBlocks c 0)
  chains := entriesOf i (findSect l sChains c 0)
  descs := entriesOf i (findSect l sDescs c 0)
  handlers := entriesOf i (findSect l sHandlers c 0)
  audit := entriesOf i (findSect l sAudit c 0)
  streams := (upFrom 0 6).map fun e => entriesOf i (findSect l 1 c e)

def imgRaw (i : List Byte) : List CoreRaw := (upFrom 0 (imgCores i)).map (coreRaw i (imgTable i))

/-! ### Bindings and placement (15 R460 to R464) -/

/-- Binding entry `b` of a list. -/
def bindingAt (l : List Byte) (b : Nat) : Binding :=
  let o := 32 * b
  ⟨leAt l o 1, leAt l (o + 1) 1, leAt l (o + 2) 2, leAt l (o + 8) 8, leAt l (o + 16) 8, leAt l (o + 24) 8, 0⟩

/-- The pseudo-channels of an MCAL binding. -/
def Binding.pcs (b : Binding) : List Nat :=
  (upFrom 0 (bits b.value 10 10)).map fun i => bits b.value 0 10 + i * bits b.value 20 10

def Binding.dir (b : Binding) : Nat := bits b.value 30 2
def Binding.runs (b : Binding) : Nat := bits b.size 0 6
def Binding.maxgap (b : Binding) : Nat := bits b.size 6 7

/-- Whether an MCAL binding keeps the ranges of R461 and R230. -/
def Binding.calOk (b : Binding) : Bool :=
  let npc := bits b.value 10 10
  let step := bits b.value 20 10
  b.value < 2 ^ 32 && b.size < 2 ^ 13 && b.param < 2 ^ 16 && b.sets = 0 && b.role = 0
    && 1 ≤ npc && npc ≤ 768 && 1 ≤ step && step ≤ 767 && b.dir ≠ 3 && (b.pcs.all fun p => p < 768)
    && 1 ≤ b.runs && b.runs ≤ 48 && 1 ≤ b.maxgap && b.maxgap ≤ 64 && 64 ≤ b.runs * b.maxgap
    && (if b.dir = 1 then b.param = 0xFFFF else true)

/-- The core images of a program group's binding. -/
def Binding.members (b : Binding) : List Nat :=
  (upFrom 0 128).filter fun c => if c < 64 then bitAt b.value c else bitAt b.size (c - 64)

/-- The program groups that the list names, in ascending order of number. -/
def groupsOf (l : List Binding) : List Nat :=
  sortBy (fun (x y : Nat) => x ≤ y) ((l.filter fun b => b.kind = 6).map fun b => b.param)

/-- Whether a binding breaks R461 or R462. -/
def Binding.bad (b : Binding) (ncore top : Nat) (all : List Binding) : Bool :=
  match b.kind with
  | 0 => b.role ≠ 0 || b.sets ≠ 0 || 2 < b.value || b.size ≠ 0 || b.param ≠ 0
  | 1 =>
    3 < b.role || b.sets = 0 || 16 < b.sets || (b.sets = 1 && b.param ≠ 0)
      || top < b.value + (b.sets - 1) * b.param + b.size
  | 2 => b.role ≠ 0 || b.sets ≠ 0 || b.size ≠ 0 || b.param ≠ 0 || bits b.value 60 4 ≠ 8
  | 3 => b.role ≠ 0 || b.sets ≠ 0 || b.size ≠ 0 || b.param ≠ 0 || 2 ^ 32 ≤ b.value
  | 4 =>
    !b.calOk || (b.dir ≠ 1 && (if b.param < 0x8000 then ncore ≤ b.param
      else !(all.any fun g => g.kind = 6 && g.param = b.param - 0x8000)))
  | 5 => b.role ≠ 0 || b.sets ≠ 0 || 1024 ≤ b.value || b.size ≠ 0 || 4096 ≤ b.param
  | 6 => b.role ≠ 0 || b.sets ≠ 0 || 2 ^ 16 ≤ b.param || b.members = [] || b.members.any fun c => ncore ≤ c
  | _ => true

/-- Whether two of a list are equal. -/
def twins : List Nat → Bool
  | [] => false
  | a :: t => t.contains a || twins t

/-- M: the buffer sets of the bindings that have copies, 0 where none has; none where they differ (15 R464). -/
def setsOf (l : List Binding) : Option Nat :=
  match (l.filter fun b => b.kind = 1 && 1 < b.sets).map fun b => b.sets with
  | [] => some 0
  | m :: t => if t.all fun x => x = m then some m else none

/-- Whether the binding list is refused. -/
def bindingsBad (l : List Binding) (ncore top : Nat) : Bool :=
  (l.any fun b => b.bad ncore top l) || 1 < (l.filter fun b => b.kind = 0).length
    || twins ((l.filter fun b => b.kind = 6).map fun b => b.param) || (setsOf l).isNone

/-! ### Relocations (R201, R202, R210) -/

/-- A RELOC entry. -/
structure Reloc where
  idx    : Nat
  core   : Nat
  desc   : Nat
  eng    : Nat
  kind   : Nat
  pos    : Nat
  width  : Nat
  sym    : Nat
  res    : Nat
  addend : Int
  deriving DecidableEq, Repr

/-- POS as the entry's byte gives it: for KIND 5 and 6 in a DESCS entry, whose fields lie at 768, 784 and 800 (09 R256), the
byte counts from bit 768 (notes/assumptions/42.md). -/
def relocPos (desc kind pos : Nat) : Nat := if desc = 1 && (kind = 5 || kind = 6) then 768 + pos else pos

def relocOf (x : Nat) : Reloc :=
  ⟨bits x 0 32, bits x 32 16, bits x 48 4, bits x 52 4, bits x 56 8, relocPos (bits x 48 4) (bits x 56 8) (bits x 64 8),
    bits x 72 8, bits x 80 16, bits x 96 32, sext (bits x 128 64) 64⟩

def imgRelocs (i : List Byte) : List Reloc := (entriesOf i (findSect (imgTable i) sReloc 0xFFFF 0)).map relocOf

/-- What the loader knows when it patches: the bindings with their slots, the placement, and the hardware group of each program
group. -/
structure Links where
  isa      : Nat
  binds    : List Binding
  place    : List Nat
  groups   : List (Nat × Nat)
  deriving DecidableEq, Repr

def Links.bind (k : Links) (n : Nat) : Option Binding := k.binds[n]?

/-- The kind of binding that a relocation kind names (R201, R461); 9 where it names none. -/
def bindKind (kind : Nat) : Nat := match kind with | 1 => 1 | 3 => 2 | 4 => 3 | _ => 9

/-- Whether the SYMBOL of a relocation names something of the wrong kind. -/
def Reloc.wrongSymbol (k : Links) (r : Reloc) : Bool :=
  match r.kind with
  | 2 => k.place.length ≤ r.sym
  | 6 => (k.groups.find? fun g => g.1 = r.sym).isNone
  | 5 => match k.bind r.sym with
    | some b => !(b.kind = 4 || b.kind = 5)
    | none => false
  | _ => match k.bind r.sym with
    | some b => b.kind ≠ bindKind r.kind
    | none => false

/-- The value of a relocation in buffer set `set` (R201, R210, R463, R464). -/
def Reloc.value (k : Links) (set : Nat) (r : Reloc) : Int :=
  let b := (k.bind r.sym).getD ⟨0, 0, 0, 0, 0, 0, 0⟩
  match r.kind with
  | 1 => (b.value : Int) + ((set % max 1 b.sets) * b.param : Nat) + r.addend
  | 2 => ((scrBase + k.place.getD r.sym 0 * scrBytes : Nat) : Int) + r.addend
  | 3 => (b.value : Int) + r.addend
  | 4 => (b.value : Int)
  | 5 => if b.kind = 4 then ((b.slot : Int) + r.addend) % 512 else ((bits b.value 0 10 : Int) + r.addend) % 1024
  | _ => (((k.groups.find? fun g => g.1 = r.sym).map (·.2)).getD 0 : Nat)

/-- The target of a relocation: its bits in the image and their number. -/
def Reloc.target (raw : List CoreRaw) (r : Reloc) : Option (Nat × Nat) :=
  match raw[r.core]? with
  | none => none
  | some c =>
    if r.desc = 0 then ((c.streams.getD r.eng [])[r.idx]?).map fun w => (w, 128)
    else (c.descs[r.idx]?).map fun d => (d, 1024)

/-- The KVI index of what a relocation patches. -/
def Reloc.patched (r : Reloc) : Nat := if r.desc = 0 then kviOf r.core r.eng r.idx else kviTable r.core sDescs r.idx

/-- Whether two relocations patch a bit in common. -/
def Reloc.overlaps (r q : Reloc) : Bool :=
  r.core = q.core && r.desc = q.desc && (r.desc = 1 || r.eng = q.eng) && r.idx = q.idx && meets r.pos r.width q.pos q.width

/-- Whether a KIND 5 field is narrower than its slots: 9 bits in a memory calendar, 10 in a fabric calendar (R210). -/
def Reloc.slotNarrow (k : Links) (r : Reloc) : Bool :=
  r.kind = 5 && (match k.bind r.sym with
    | some b => decide (r.width < if b.kind = 4 then 9 else 10)
    | none => false)

/-- The refusal of relocation `n`, if any; `before` lists the earlier ones. -/
def Reloc.fault (k : Links) (raw : List CoreRaw) (before : List Reloc) (n : Nat) (r : Reloc) : Option Nat :=
  let own := some (kviTable 0 sReloc n)
  if r.res ≠ 0 || r.width = 0 || 64 < r.width || 1 < r.desc || 5 < r.eng || r.kind = 0 || 6 < r.kind
      || (r.kind = 5 && k.isa = 2) || ((r.kind = 4 || r.kind = 6) && r.addend ≠ 0) then own
  else
    match r.target raw with
    | none => own
    | some (x, size) =>
      if r.wrongSymbol k then own
      else if r.kind ≠ 2 && r.kind ≠ 6 && (k.bind r.sym).isNone then some r.patched
      else if size < r.pos + r.width || bits x r.pos r.width ≠ 0 || (before.any fun q => r.overlaps q)
          || r.slotNarrow k then some r.patched
      else
        let many := match k.bind r.sym with
          | some b => r.kind = 1 && 1 < b.sets
          | none => false
        if many && r.desc = 0 then own
        else
          let sets := if many then 16 else 1
          if (upFrom 0 sets).any fun s => r.value k s < 0 || (2 ^ r.width : Int) ≤ r.value k s then some r.patched
          else none

/-- The first relocation that is refused. -/
def relocFault (k : Links) (raw : List CoreRaw) : List Reloc → Nat → List Reloc → Option Nat
  | _, _, [] => none
  | before, n, r :: t =>
    match r.fault k raw before n with
    | some x => some x
    | none => relocFault k raw (r :: before) (n + 1) t

/-- A word with its relocations applied. -/
def patchWord (k : Links) (rs : List Reloc) (core eng idx w : Nat) : Nat :=
  (rs.filter fun r => r.desc = 0 && r.core = core && r.eng = eng && r.idx = idx).foldl
    (fun acc r => acc + (r.value k 0).toNat * 2 ^ r.pos) w

/-- The copies of a descriptor, one a buffer set where a binding with copies patches it (R464). -/
def patchDesc (k : Links) (rs : List Reloc) (core idx d : Nat) : List Nat :=
  let mine := rs.filter fun r => r.desc = 1 && r.core = core && r.idx = idx
  let sets := mine.foldl (fun n r => match k.bind r.sym with
    | some b => if r.kind = 1 then max n b.sets else n
    | none => n) 1
  (upFrom 0 sets).map fun s => mine.foldl (fun acc r => acc + (r.value k s).toNat * 2 ^ r.pos) d

/-- A core image as patched: its descriptors have their copies. -/
structure CoreProg where
  raw   : CoreRaw
  descs : List (List (List Byte))
  deriving DecidableEq, Repr

def patchCore (k : Links) (rs : List Reloc) (core : Nat) (c : CoreRaw) : CoreProg where
  raw := { c with streams := c.streams.zipIdx.map fun (x : List Nat × Nat) =>
    x.1.zipIdx.map fun (y : Nat × Nat) => patchWord k rs core x.2 y.2 y.1 }
  descs := c.descs.zipIdx.map fun (x : Nat × Nat) => (patchDesc k rs core x.2 x.1).map fun d => leBytes d 128

end Sys2Proof.Machine
end

