-- ==== Sys2Proof/Machine/Static.lean ====
section
/-!
DEFINITION. The loader's checks of one item of a core image: windows, blocks, chains, descriptors, handlers, audit tags, and each
word of each stream (06 R171 to R200, 07 R204 to R213, 03 R70 to R79, 04 R110 to R112, 05 R138 to R155, 09 R255 to R257,
11 R327).
-/

namespace Sys2Proof.Machine

open Sys2Proof

/-! ### Blocks (R172, R173) -/

/-- A BLOCKS entry. -/
def blockOf (x : Nat) : Block :=
  ⟨bits x 0 32, bits x 32 16, bits x 48 8, (upFrom 0 6).map fun e => bits x (64 + 32 * e) 32⟩

/-- What the checks of a core image are made against. -/
structure Ctx where
  core   : Nat
  isa    : Nat
  det    : Bool
  audit  : Bool
  blocks : List Block
  prog   : CoreProg
  /-- DESCS entries that a CSLOT relocation patches. -/
  cslot  : List Nat
  /-- Program groups' hardware numbers that this image is a member of. -/
  member : List Nat
  dev    : Nat
  /-- Whether the job has firmware privilege (R31). -/
  fwpriv : Bool
  deriving DecidableEq, Repr

def Ctx.stream (k : Ctx) (e : Nat) : List Nat := k.prog.raw.streams.getD e []

/-- The words of block `b` in stream `e`: the first and the number. -/
def Ctx.span (k : Ctx) (b e : Nat) : Nat × Nat :=
  let first := ((k.blocks[b]?).map fun x => x.start.getD e 0).getD 0
  let last := match k.blocks[b + 1]? with
    | some x => x.start.getD e 0
    | none => (k.stream e).length
  (first, last - first)

/-- Words of block `b` in stream `e`, with their indexes. -/
def Ctx.words (k : Ctx) (b e : Nat) : List (Nat × Nat) :=
  let r := k.span b e
  (upFrom r.1 r.2).map fun n => (n, (k.stream e).getD n 0)

def Block.service (b : Block) : Bool := b.mode = 1

/-- The first refusal of the BLOCKS section (R172, R174). A block 0 whose START is not 0 names word 0 of the stream. -/
def Ctx.blocksFault (k : Ctx) : Option Nat :=
  if k.blocks = [] then some (kviTable k.core sBlocks 0)
  else
    firstBad (fun n (b : Block) =>
      let own := some (kviTable k.core sBlocks n)
      let x := k.prog.raw.blocks.getD n 0
      let prev := k.blocks[n - 1]?
      if 1 < b.mode || bits x 56 8 ≠ 0 || (b.mode = 0) ≠ (b.length ≠ 0) || (n = 0 && b.mode ≠ 0) then own
      else if b.next < 0xFFFD && k.blocks.length ≤ b.next then own
      else
        match (upFrom 0 6).find? fun e => n = 0 && b.start.getD e 0 ≠ 0 with
        | some e => some (kviOf k.core e 0)
        | none =>
          if (upFrom 0 6).any fun e => (k.stream e).length < b.start.getD e 0
              || (n ≠ 0 && (match prev with
                | some p => b.start.getD e 0 < p.start.getD e 0
                | none => false)) then own
          else none) 0 k.blocks

/-! ### Chains (04 R111, R112; R195, R196) -/

/-- Whether a CHAINS entry breaks R195. -/
def chainBad (isa x : Nat) : Bool :=
  let n := bits x 0 4
  let c := chainOf x
  let has := fun (st : Nat) => c.stages.contains st
  8 < n || ((upFrom 0 8).any fun k => n ≤ k && bits x (3 * k + 4) 3 ≠ 0) || bits x 61 3 ≠ 0
    || c.addForm = 3 || 5 < c.cselPred || 4 < c.lutFn || c.redOp = 3 || 11 < c.cvtFmt || 9 < c.packFmt
    || (!has 0 && c.cvtFmt ≠ 0) || (!has 1 && c.bMul ≠ 0) || (!has 2 && (c.addForm ≠ 0 || c.bAdd ≠ 0))
    || (!has 3 && (c.cselPred ≠ 0 || c.cselMask || c.bCsb ≠ 0 || c.bCsc ≠ 0)) || (!has 4 && c.lutFn ≠ 0)
    || (!has 5 && c.shf ≠ 0) || (!has 6 && (c.redOp ≠ 0 || c.redG16 || c.redInt))
    || (!has 7 && (c.packFmt ≠ 0 || c.packSplit || c.packSr || c.packSat || c.packIndex))
    || (isa = 2 && ((3 ≤ c.cvtFmt && c.cvtFmt ≤ 6) || c.cvtFmt = 11 || (3 ≤ c.packFmt && c.packFmt ≤ 6) || c.packIndex
      || c.redInt || c.lutFn = 4))

/-- Whether a chain breaks R111. -/
def chainOrder (c : Chain) : Bool :=
  !twins c.stages && !((c.stages.drop 1).contains 0)
    && !((c.stages.take (c.stages.length - 1)).any fun st => st = 6 || st = 7) && c.stages.length ≤ 8

/-- Distinct operands of a kind among the specifiers that a chain reads. -/
def distinct (l : List Nat) : List Nat := l.foldr (fun a acc => if acc.contains a then acc else a :: acc) []

/-- The bindings that a chain's stages name. -/
def chainBindings (c : Chain) : List Nat := (c.stages.flatMap (stageBindings c)).filter fun b => b ≠ 0

/-- Whether a chain has CVT RAW. -/
def rawSource (c : Chain) : Bool := c.stages.contains 0 && c.cvtFmt = 11

/-- The operands that a VOP reads: kind 1 V, 2 S, 3 operand-cache entries; each once. -/
def vopReads (c : Chain) (f : VopFields) (kind : Nat) : List Nat :=
  let specs := f.srca :: (chainBindings c).map (specOf f)
  let own := (specs.filter fun s => s.kind.toNat = kind).map fun s => s.idx.toNat
  let pair := if rawSource c && f.srca.kind.toNat = kind && kind ≠ 2 then [f.srca.idx.toNat + 1] else []
  let sx := if kind = 2 && readsSx c then [f.sx.toNat] else []
  distinct (own ++ pair ++ sx)

/-- The groups SEL that a source or target of width `w` has (04 R116). -/
def selLimit (w : Nat) : Nat := match w with | 8 => 4 | 6 => 5 | 4 => 8 | 16 => 2 | _ => 1

/-- Whether the loader refuses a VOP for its chain (R111, R112, R120, R194, R195). -/
def vopBad (isa : Nat) (f : VopFields) (c : Chain) : Bool :=
  let used := chainBindings c
  !chainOrder c || 3 < (vopReads c f 1).length || 2 < (vopReads c f 3).length || 2 < (vopReads c f 2).length
    || (upFrom 1 3).any (fun b => !used.contains b && (specOf f b).kind ≠ 0)
    || (rawSource c && ((f.srca.kind = 1 && 62 < f.srca.idx.toNat) || (f.srca.kind = 3 && 510 < f.srca.idx.toNat)))
    || (c.stages.contains 0 && !rawSource c && selLimit (elemWidth c.cvtFmt) ≤ f.sel.toNat)
    || (c.stages.contains 7 && selLimit (elemWidth c.packFmt) ≤ f.sel.toNat)
    || (isa = 2 && f.sx ≠ 0) || (f.sde && c.stages.contains 6 && c.redG16)

/-! ### Descriptors (09 R255 to R257, R274) -/

/-- Whether an entry breaks R255 or R257 whichever engine loads it. -/
def descBad (d : List Byte) : Bool :=
  let ctl := leAt d 0x14 4
  let es := leAt d 0x10 4
  let sched := dSched d
  es = 0 || 16777216 < es || 1 < bits ctl 0 2 || bits ctl 7 1 ≠ 0 || bits ctl 15 1 ≠ 0 || bits ctl 23 9 ≠ 0
    || dNdim d = 0 || 5 < dNdim d
    || (upFrom 0 5).any (fun k => dCount d k = 0
      || (dNdim d ≤ k && (dCount d k ≠ 1 || dSstr d k ≠ 0 || dDstr d k ≠ 0)))
    || (if dRing d then dRslots d < 3 || 64 < dRslots d || dFillb d = 0 else dRslots d ≠ 0 || dGate d ≠ 0 || dTmo d ≠ 0)
    || (sched && dPace d = 0) || dFillb d % 256 ≠ 0 || (dFillb d ≠ 0 && dBytes d % dFillb d ≠ 0)
    || bits (leAt d 0x60 2) 10 6 ≠ 0 || bits (leAt d 0x62 2) 9 6 ≠ 0 || (!dTsen d && dTslot d ≠ 0)
    || bits (leAt d 0x64 1) 6 2 ≠ 0 || !zeroAt d 0x65 3 || (!dMcast d && dMcg d ≠ 0) || bits (leAt d 0x68 4) 12 20 ≠ 0
    || (!sched && (dCslot d ≠ 0 || dTsen d || dCirc d ≠ 0)) || !zeroAt d 0x70 16
    || 2 ^ 32 ≤ dElems d || 2 ^ 40 ≤ dBytes d

/-- The lowest offset that a walk reaches, and the highest. -/
def walkRange (d : List Byte) (str : Nat → Int) : Int × Int :=
  (upFrom 0 5).foldl (fun (x : Int × Int) k =>
    let o := ((dCount d k - 1 : Nat) : Int) * str k
    (x.1 + min 0 o, x.2 + max 0 o)) (0, 0)

/-- Whether a DBASE of the core image changes the start of a side of a slot. -/
def Ctx.rebased (k : Ctx) (e slot : Nat) (dst : Bool) : Bool :=
  (k.stream e).any fun w => match decodeWord w with
    | some (_, .dbase _ _ s d _ _) => s.toNat = slot && d = dst
    | _ => false

/-- Whether the loader refuses a template at a DLOAD of engine `e` (3 DMA0, 4 DMA1) into a slot. -/
def Ctx.templateBad (k : Ctx) (e slot tmpl : Nat) (d : List Byte) : Bool :=
  let out := e = 4
  let loc := if out then dSrc d else dDst d
  let rem := if out then dDst d else dSrc d
  let str := if out then dSstr d else dDstr d
  let locMoves := k.rebased e slot (!out)
  let remMoves := k.rebased e slot out
  let cls := bits rem 60 4
  let dpa := cls = 0 || (cls = 8 && bits rem 48 12 = k.dev)
  let place := rem % 2 ^ 48
  let fabric := cls = 8 && !dpa
  let hbm := dpa && place < hbmEnd
  let r := walkRange d str
  (dMcast d && (out || (!hbm && !remMoves) || !k.member.contains (dMcg d)))
    || (dRing d && (upFrom 0 5).any fun j => str j ≠ 0)
    || (!locMoves && (2 ^ 25 ≤ loc
      || (if dRing d then scrBytes < loc + dRslots d * dFillb d
        else (loc : Int) + r.1 < 0 || (scrBytes : Int) < (loc : Int) + r.2 + (dEsize d : Int))))
    || (!remMoves && !(cls = 0 || cls = 8))
    || (dSched d && (hbm || fabric) && !k.cslot.contains tmpl)
    || (!remMoves && !fabric && (dCirc d ≠ 0 || dTsen d))
    || (dTsen d && (!out || (fabric && hbmEnd ≤ place)))
    || (!remMoves && dSched d && dpa && !hbm && dCslot d ≠ 0)
    || (!remMoves && hbm && 512 ≤ dCslot d)

/-! ### Windows (R171, 05 R155) -/

/-- FIRST, COUNT and SRC of a WINDOWS entry. -/
def windowOf (x : Nat) : Nat × Nat × Nat := (bits x 0 17, bits x 32 18, bits x 50 2)

/-- The lines of the rings that DMA0 fills: first line and count. -/
def Ctx.inRings (k : Ctx) : List (Nat × Nat) :=
  (k.stream 3).flatMap fun w => match decodeWord w with
    | some (_, .dload _ _ slot t) =>
      if k.rebased 3 slot.toNat true then []
      else ((k.prog.descs.getD t.toNat []).filter dRing).map fun d =>
        (dDst d / 256, (dDst d + dRslots d * dFillb d - 1) / 256 + 1 - dDst d / 256)
    | _ => []

/-- The first window that is refused. -/
def Ctx.windowsFault (k : Ctx) : Option Nat :=
  let l := k.prog.raw.windows
  let rings := k.inRings
  firstBad (fun n x =>
    let w := windowOf x
    let bad := bits x 17 15 ≠ 0 || bits x 52 12 ≠ 0
      || (w.2.1 ≠ 0 && (w.2.2 = 3 || lineCount < w.1 + w.2.1
        || ((l.take n).any fun y => meets w.1 w.2.1 (windowOf y).1 (windowOf y).2.1)
        || (rings.any fun r => meets w.1 w.2.1 r.1 r.2)))
    failIf bad (kviTable k.core sWindows n)) 0 l

/-! ### Words -/

/-- Whether an ISA 2 image may hold an operation (R166, R193, R196; 07 R204). -/
def isa2Has : Instr → Bool
  | .tdec _ _ t _ => !t.form
  | .tset _ t _ => !t.form
  | .twait _ _ t _ _ => !t.form
  | .mldw _ _ fmt _ _ _ => fmt.toNat ≤ 2 || fmt = 8 || fmt = 9
  | .mmul _ _ fmt _ _ _ _ _ _ _ => fmt.toNat ≤ 2 || fmt = 8 || fmt = 9
  | .mout _ _ _ ofmt _ => ofmt ≠ 2
  | .manc .. => false
  | .mflg .. => false
  | .mraw .. => false
  | .lutld .. => false
  | .qcsend .. => false
  | .qopen _ _ cls _ _ _ => cls.toNat < 2
  | _ => true

/-- Whether the tally operand names a window that has no WINDOWS entry (07 R207). -/
def Ctx.noWindow (k : Ctx) (t : TallyOp) : Bool := t.form && k.prog.raw.windows.length ≤ tallyIdx t

/-- Lines that a feed reads from LINE, and from SLINE. -/
def feedLines (kind fmt n : Nat) (mx : Bool) : Nat × Nat :=
  let o : MxOp := ⟨0, kind, 0, fmt, mx, 0, 0, n, 0, false, 0, 0, [], [], 0, false, false, false, [], []⟩
  (o.lineN, o.scaleN)

/-- Whether a static line operand leaves the scratchpad (R138). -/
def feedFar (l : LineOp) (sline : BitVec 17) (n : Nat × Nat) : Bool :=
  !l.aen && (lineCount < l.line.toNat + n.1 || lineCount < sline.toNat + n.2)

/-- Whether static lines meet one bank twice. -/
def sameBank (l : List Nat) : Bool := twins (l.map bankOf)

/-- Whether a static geometry is refused. -/
def geoBad (l : LineOp) (g : Nat → Option (List Nat)) (banks : Bool) : Bool :=
  !l.aen && (match g l.line.toNat with
    | none => true
    | some ls => banks && sameBank ls)

/-- Whether the loader refuses an operation, the mode of its block and its stamp given. -/
def Ctx.opBad (k : Ctx) (b : Block) (stamp : Nat) (last : Bool) (i : Instr) : Bool :=
  let sched := !b.service
  match i with
  | .twait _ _ t _ _ => k.noWindow t
  | .tdec _ _ t _ => k.noWindow t
  | .tset _ t _ => k.noWindow t
  | .fence _ _ _ s => sched && (s = .dev || s = .fab)
  | .br _ _ _ _ t f =>
    b.next ≠ 0xFFFD || !last || (sched && stamp + 12 ≠ b.length) || k.blocks.length ≤ t.toNat || k.blocks.length ≤ f.toNat
  | .mldw _ l fmt mx sl _ => !sched || stamp < 16 || feedFar l sl (feedLines 0 fmt.toNat 1 mx)
  | .mmul _ l fmt mx sl nm1 _ _ _ _ => !sched || stamp < 16 || feedFar l sl (feedLines 1 fmt.toNat (nm1.toNat + 1) mx)
  | .mraw _ l _ _ _ => !sched || stamp < 16 || feedFar l 0 (8, 0)
  | .mclr .. => !sched
  | .manc .. => !sched
  | .mout .. => !sched
  | .mflg .. => !sched
  | .vop _ f =>
    (sched && stamp = 0) || (match k.prog.raw.chains[f.chain.toNat]? with
      | none => true
      | some c => vopBad k.isa f (chainOf c))
  | .lutld .. => sched && stamp = 0
  | .vld _ _ l col _ _ => geoBad l (fun n => fourLines n col) false
  | .vst _ _ l col => geoBad l (fun n => fourLines n col) false
  | .ocfill _ _ l col _ _ => geoBad l (fun n => fourLines n col) false
  | .vldStrided _ _ l st _ _ _ _ => geoBad l (fun n => strideLines n st.toInt) true
  | .vldTranspose _ _ l _ sh _ _ => geoBad l (fun n => transposeLines n sh) false
  | .dload _ e slot t =>
    match k.prog.descs[t.toNat]? with
    | none => true
    | some copies => copies.any fun d => k.templateBad (if e = .inbound then 3 else 4) slot.toNat t.toNat d
  | .qopen _ _ cls _ _ _ => sched && k.det && (cls = 1 || cls = 3)
  | _ => false

/-- A word of a block. -/
structure At where
  idx   : Nat
  eng   : Nat
  stamp : Nat
  delta : Nat
  ins   : Instr
  deriving DecidableEq, Repr

/-- Whether a word may follow in its block (R176, R177). -/
def deltaBad (b : Block) (first : Bool) (delta stamp : Nat) : Bool :=
  if b.service then delta ≠ 0 else (!first && delta = 0) || b.length ≤ stamp

/-- The second branch of two in a scheduled block that are less than 12 ccyc apart, where word `n` is the first of them: `room`
is the ccyc that are left (02 R66). -/
def Ctx.nearBranch (k : Ctx) (e : Nat) : Nat → List (Nat × Nat) → Option Nat
  | _, [] => none
  | room, (n, w) :: t =>
    match decodeWord w with
    | none => none
    | some (delta, i) =>
      if room < delta then none
      else match i with
        | .br .. => some (kviOf k.core e n)
        | _ => k.nearBranch e (room - delta) t

/-- The words of block `b` of a stream with their stamps, or the first word that is refused. -/
def Ctx.walk (k : Ctx) (b : Block) (e : Nat) : Nat → Bool → List (Nat × Nat) → Except Nat (List At)
  | _, _, [] => .ok []
  | stamp, first, (n, w) :: t =>
    let own := kviOf k.core e n
    match decodeWord w with
    | none => .error own
    | some (delta, i) =>
      let stamp := if b.service then 0 else stamp + delta
      let near := match i with
        | .br .. => if b.service then none else k.nearBranch e 11 t
        | _ => none
      if (splitWord w).eng ≠ e || deltaBad b first delta stamp || (k.isa = 2 && !isa2Has i) || k.opBad b stamp (t.isEmpty || near.isSome) i then
        .error own
      else
        match k.walk b e stamp false t with
        | .error x => .error ((near.map (min x)).getD x)
        | .ok l =>
          match near with
          | some y => .error y
          | none => .ok (⟨n, e, stamp, delta, i⟩ :: l)

/-- The words of stream `e`, block by block. -/
def Ctx.streamWords (k : Ctx) (e : Nat) : List (Nat × Block) → Except Nat (List (List At))
  | [] => .ok []
  | (n, b) :: t =>
    match k.walk b e 0 true (k.words n e) with
    | .error x => .error x
    | .ok l =>
      match k.streamWords e t with
      | .error x => .error x
      | .ok r => .ok (l :: r)

/-- The words of all streams: by stream, by block. -/
def Ctx.allWords (k : Ctx) : List Nat → Except Nat (List (List (List At)))
  | [] => .ok []
  | e :: t =>
    match k.streamWords e (k.blocks.zipIdx.map fun (x : Block × Nat) => (x.2, x.1)) with
    | .error x => .error x
    | .ok l =>
      match k.allWords t with
      | .error x => .error x
      | .ok r => .ok (l :: r)

/-! ### Audit tags (R211, R212; 02 R60) -/

def auditOf (x : Nat) : AuditTag :=
  ⟨bits x 0 22, bits x 22 3, bits x 32 4, bitAt x 36, bits x 37 6, bits x 43 9, bits x 52 8⟩

/-- The order of tags. -/
def auditKey (x : Nat) : Nat :=
  ((((bits x 22 3 * 2 ^ 22 + bits x 0 22) * 16 + bits x 32 4) * 512 + bits x 43 9) * 64) + bits x 37 6

/-- The registers and entries that a word reads, by (kind, number), and the lines it reads (R212). -/
def lineReads (l : LineOp) (n : Nat) : List (Nat × Nat) × Nat := (if l.aen then [(1, l.areg.toNat)] else [], n)

def arithReads (f : Arith) : List (Nat × Nat) := (0, f.a.toNat) :: (if f.i then [] else [(0, f.b.toNat)])

def nReads : NSrc → List (Nat × Nat)
  | .imm _ => []
  | .reg r => [(0, r.toNat)]

def opReads (chains : List Nat) : Instr → List (Nat × Nat) × Nat
  | .tinc _ _ _ n => (nReads n, 0)
  | .tdec _ _ _ n => (nReads n, 0)
  | .tset _ _ n => (nReads n, 0)
  | .add _ f => (arithReads f, 0)
  | .sub _ f => (arithReads f, 0)
  | .and _ f => (arithReads f, 0)
  | .or _ f => (arithReads f, 0)
  | .xor _ f => (arithReads f, 0)
  | .shl _ f => (arithReads f, 0)
  | .shr _ f => (arithReads f, 0)
  | .sar _ f => (arithReads f, 0)
  | .mul _ f => (arithReads f, 0)
  | .cmp _ f _ => (arithReads f, 0)
  | .plog _ _ a b fn => ((2, a.toNat) :: (if fn = 4 then [] else [(2, b.toNat)]), 0)
  | .sel _ f ps => ((2, ps.toNat) :: arithReads f, 0)
  | .aadd _ f => ((1, f.a.toNat) :: (if f.i then [] else [(0, f.b.toNat)]), 0)
  | .amov _ _ a => ([(0, a.toNat)], 0)
  | .sfroma _ _ a => ([(1, a.toNat)], 0)
  | .ld _ f _ => ([(1, f.a.toNat)], 1)
  | .st _ f _ => ([(1, f.a.toNat), (0, f.b.toNat)], 0)
  | .lda _ f _ => ([(1, f.a.toNat)], 1)
  | .sta _ f _ => ([(1, f.a.toNat), (1, f.b.toNat)], 0)
  | .atom _ f aop _ c _ => ((1, f.a.toNat) :: (0, f.b.toNat) :: (if aop = 4 then [(0, c.toNat)] else []), 1)
  | .br _ cond sr pr _ _ => (if cond = 3 then [(2, pr.toNat)] else [(0, sr.toNat)], 0)
  | .mldw _ l fmt mx _ _ => let n := feedLines 0 fmt.toNat 1 mx; lineReads l (n.1 + n.2)
  | .mmul _ l fmt mx _ nm1 _ _ _ _ => let n := feedLines 1 fmt.toNat (nm1.toNat + 1) mx; lineReads l (n.1 + n.2)
  | .mraw _ l _ _ _ => lineReads l 8
  | .vop _ f =>
    let c := chainOf (chains.getD f.chain.toNat 0)
    ((vopReads c f 1).map (fun r => (3, r)) ++ (vopReads c f 2).map (fun r => (0, r))
      ++ (vopReads c f 3).map (fun r => (4, r)), 0)
  | .vld _ _ l _ _ _ => lineReads l 4
  | .vldStrided _ _ l _ _ _ _ _ => lineReads l 4
  | .vldTranspose _ _ l _ _ _ _ => lineReads l 64
  | .vst _ v l _ => ((3, v.toNat) :: (lineReads l 0).1, 0)
  | .ocfill _ _ l _ _ _ => lineReads l 4
  | .ocput _ v _ => ([(3, v.toNat)], 0)
  | .lutld _ lo hi e => ([(0, lo.toNat), (0, hi.toNat), (4, e.toNat)], 0)
  | .dbase _ _ _ _ sr _ => ([(0, sr.toNat)], 0)
  | .datom _ f =>
    ((0, f.sa.toNat) :: (0, f.sb.toNat) :: (if f.aop = 4 then [(0, f.sc.toNat)] else []), 0)
  | .qsend _ _ _ nw sb _ => ((upFrom sb.toNat (nw.toNat + 1)).map fun r => (0, r), 0)
  | .qcsend _ _ _ vk sv sk => ((0, sk.toNat) :: (0, sv.toNat) :: (if vk = 1 then [(0, sv.toNat + 1)] else []), 0)
  | _ => ([], 0)

/-- The guard of an operation. -/
def guardOf (i : Instr) : Option Guard := (wordOf 0 i).bind fun w => w.guard

/-- Whether the tags of a word are one for each resource that it reads, and no others. -/
def tagsOk (chains : List Nat) (i : Instr) (tags : List AuditTag) : Bool :=
  let r := opReads chains i
  let regs := distinctPairs (r.1 ++ (match guardOf i with
    | some g => [(2, g.p.toNat)]
    | none => []))
  let own := tags.filter fun t => t.rkind ≠ 5
  let lines := tags.filter fun t => t.rkind = 5
  regs.all (fun x => (own.filter fun t => t.rkind = x.1 && t.ridx = x.2).length = 1) && own.length = regs.length
    && (if lines.any fun t => t.all then lines.length = 1 && r.2 ≠ 0
      else lines.length = r.2 && (upFrom 0 r.2).all fun n => lines.any fun t => t.lpos = n)
where
  distinctPairs (l : List (Nat × Nat)) : List (Nat × Nat) := l.foldr (fun a acc => if acc.contains a then acc else a :: acc) []

/-- The first refusal of the AUDIT section: its format; in an audit build, the word whose tags are out of order, of another
stream or not right (R212). -/
def Ctx.auditFault (k : Ctx) : Option Nat :=
  let l := k.prog.raw.audit
  let word := fun (x : Nat) => some (kviOf k.core (bits x 22 3) (bits x 0 22))
  match firstBad (fun n x =>
    let t := auditOf x
    if bits x 25 7 ≠ 0 || bits x 60 4 ≠ 0 || 5 < t.eng || 5 < t.rkind || (t.rkind = 5 && t.ridx ≠ 0)
        || (t.rkind ≠ 5 && (t.all || t.lpos ≠ 0)) || (t.all && t.lpos ≠ 0)
        || (k.audit && ((k.stream t.eng).length ≤ t.word
          || (n ≠ 0 && auditKey x ≤ auditKey (l.getD (n - 1) 0)))) then word x else none) 0 l with
  | some x => some x
  | none =>
    if !k.audit then none
    else
      let tags := l.map auditOf
      firstOf ((upFrom 0 6).map fun e => firstBad (fun n w =>
        match decodeWord w with
        | none => none
        | some (_, i) =>
          failIf (!tagsOk k.prog.raw.chains i (tags.filter fun t => t.eng = e && t.word = n)) (kviOf k.core e n)) 0
          (k.stream e))

/-! ### Handlers (11 R327) -/

/-- A HANDLERS entry. -/
def handlerOf (x : Nat) : HandlerEntry := ⟨bits x 0 16, bitAt x 16, bits x 32 32⟩

/-- The blocks that may follow a block: NEXT, or the targets of its BR. -/
def Ctx.next (k : Ctx) (n : Nat) : List Nat :=
  match k.blocks[n]? with
  | none => []
  | some b =>
    if b.next < 0xFFFD then [b.next]
    else if b.next ≠ 0xFFFD then []
    else (k.words n 0).flatMap fun w => match decodeWord w.2 with
      | some (_, .br _ _ _ _ t f) => [t.toNat, f.toNat]
      | _ => []

/-- The blocks reached from a list, in at most `fuel` rounds. -/
def Ctx.closure (k : Ctx) : Nat → List Nat → List Nat → List Nat
  | 0, seen, _ => seen
  | fuel + 1, seen, todo =>
    let new := distinct ((todo.flatMap k.next).filter fun n => !seen.contains n)
    if new = [] then seen else k.closure fuel (seen ++ new) new

def Ctx.reach (k : Ctx) (n : Nat) : List Nat := k.closure k.blocks.length [n] [n]

/-- The first HANDLERS entry that is refused. -/
def Ctx.handlersFault (k : Ctx) : Option Nat :=
  firstBad (fun n x =>
    let h := handlerOf x
    let dead := match k.blocks[h.block]? with
      | none => true
      | some b => !b.service
    failIf (bits x 17 7 ≠ 0 || bits x 24 8 ≠ 0 || bits x 64 64 ≠ 0 || (h.valid && dead)) (kviTable k.core sHandlers n)) 0
    k.prog.raw.handlers

/-! ### A core image -/

/-- The refusals of one core image in the order of R219, or its words. -/
def Ctx.check (k : Ctx) : Except Nat (List (List (List At))) :=
  let chains := firstBad (fun n x => failIf (chainBad k.isa x) (kviTable k.core sChains n)) 0 k.prog.raw.chains
  let descs := firstBad (fun n (copies : List (List Byte)) =>
    failIf (copies.any descBad) (kviTable k.core sDescs n)) 0 k.prog.descs
  match firstOf [k.windowsFault, k.blocksFault, chains, descs, k.handlersFault, k.auditFault] with
  | some x => .error x
  | none => k.allWords [0, 1, 2, 3, 4, 5]

/-- The image that the core runs (R170). -/
def Ctx.image (k : Ctx) : CoreImage where
  streams := k.prog.raw.streams.map fun l => l.map fun w => BitVec.ofNat 128 w
  blocks := k.blocks
  chains := k.prog.raw.chains
  descs := k.prog.descs
  windows := k.prog.raw.windows.map windowOf
  handlers := k.prog.raw.handlers.map handlerOf
  audit := k.prog.raw.audit.map auditOf

end Sys2Proof.Machine
end

