-- ==== Sys2Proof/Machine/Vxe.lean ====
section
/-!
DEFINITION. The operations of the vector engine: VOP and its chains, loads and stores of V registers, the operand cache and
the activation table (04; 05 R145 to R148; 06 R194 to R197; 07 R205).
-/

namespace Sys2Proof.Machine

open Sys2Proof

/-- A command that runs a word of the VXE at its stamp. -/
def State.vxeOn (s : State) (x : Issue) (f : Env → Nat → Core → Core) : State :=
  s.issueOn x .vxe false fun env c => f env (c.kvi .vxe x.word) { c with vx := { c.vx with svc := c.rn.mode = 2 } }

/-! ### Chains (04 R110 to R113) -/

/-- Reads an operand-cache entry in the ccyc before a chain's issue. A guarded chain keeps the violation that the read makes
until its guard is known (06 R178). -/
def Core.readEarly (c : Core) (env : Env) (o : VxOp) (entry : Nat) : Core × List Viol × List Lane :=
  let (c', l) := c.readOc env .vxe o.kvi entry (some o.dest)
  match o.guard with
  | none => (c', [], l)
  | some _ => (c, c'.ck.viol.drop c.ck.viol.length, l)

/-- The operand-cache entries that source A names: the second one of a RAW pair too. -/
def srcEntries (ch : Chain) (f : VopFields) : List Nat :=
  if f.srca.kind = 3 then f.srca.idx.toNat :: (if isRaw ch then [f.srca.idx.toNat + 1] else []) else []

/-- The operand-cache entries that a chain reads, each one once (04 R112), with the offset of the read from the ccyc before the
stamp: those of source A then, those of operands later. -/
def ocEntries (ch : Chain) (f : VopFields) : List (Nat × Nat) :=
  let used := ch.stages.flatMap (stageBindings ch)
  let src := srcEntries ch f
  let ops := ([1, 2, 3].filter fun b => used.contains b && (specOf f b).kind = 3).map fun b => (specOf f b).idx.toNat
  let new := ops.foldl (fun l e => if src.contains e || l.contains e then l else l ++ [e]) []
  src.map (fun e => (e, 0)) ++ new.filterMap fun e => (ocReadAt ch f e).map fun t => (e, t)

/-- The reads of the ccyc before the stamp, and those put ahead. -/
def Core.ocReads (c : Core) (env : Env) (o : VxOp) : List (Nat × Nat) → Core × VxOp
  | [] => (c, o)
  | (e, t) :: rest =>
    if t = 0 then
      let (c, vs, l) := c.readEarly env o e
      c.ocReads env { o with early := o.early ++ vs, vals := o.vals ++ [(⟨4, e⟩, l)] } rest
    else (c.later t (.ocRead o.id e)).ocReads env o rest

/-- A chain is taken, one ccyc before its stamp. -/
def Core.takeChain (c : Core) (env : Env) (kvi : Nat) (g : Option Guard) (f : VopFields) (ch : Chain) : Core :=
  let lat := chainLat ch.stages
  let (c, dest) := c.post ⟨3, f.vd.toNat⟩ (c.tm.p + 1) (c.tm.p + 3 + lat) .vxe kvi (.lanes [])
  let red := ch.stages.contains 6 && f.sde
  let (c, sd) := if red then
      let (c, id) := c.post ⟨0, f.sd.toNat⟩ (c.tm.p + 1) (c.tm.p + 5 + lat) .vxe kvi (.s 0 false)
      (c, some id)
    else (c, none)
  let o : VxOp :=
    ⟨c.ids, kvi, c.tm.p + 1, ch, f, [], [], ⟨0, false⟩, g, [], [], [], dest, sd, BitVec.ofNat 64 (c.runAt (c.tm.p + 1)),
      VFlags.none, false⟩
  let c := { c with ids := c.ids + 1 }
  let (c, o) := c.ocReads env o (ocEntries ch f)
  { c with vx := { c.vx with ops := c.vx.ops ++ [o] } }.later 1 (.stage o.id 0)

/-- VOP (04 R109, R113). -/
def execVop (x : Issue) (f : VopFields) (s : State) : Host.Outcome State Fault Refusal :=
  accept (.vop x f) (s.issueOn x .vxe true fun env c =>
    match env.img.chains[f.chain.toNat]? with
    | some ch => c.takeChain env (c.kvi .vxe x.word) x.guard f (chainOf ch)
    | none => c)

/-! ### Loads (04 R109, 05 R145 to R147) -/

/-- The line number of a word, with the poison use of its A register; `none` where the lines `geo` gives leave their row,
column or the scratchpad: ADDR with cause 3 (04 R133, 05 R146). -/
def Core.lineSet (c : Core) (env : Env) (kvi : Nat) (l : LineOp) (kind : Nat) (geo : Nat → Option (List Nat)) :
    Core × Option (List Nat × Bool) :=
  let (c, base, p) := c.lineBase env .vxe kvi l
  let c := if p then c.poisonUse .vxe kvi 1 1 l.areg.toNat 0 else c
  match geo (lineAt base l.line) with
  | none => (c.addrFault .vxe kvi (256 * lineAt base l.line) 3 kind, none)
  | some ls => (c, some (ls, p))

def poisonLines (p : Bool) (vs : List LineVal) : List LineVal := vs.map fun (v : LineVal) => { v with p := v.p || p }

/-- The lines of a read in service mode, where a line whose port or bank is busy waits a ccyc (05 R144): `last` is the ccyc in which
the slowest of those read arrives. -/
def Core.readWaiting (c : Core) (env : Env) (kvi : Nat) (rl : Bool) (ecc : List EccObs) :
    Nat → Nat → List Nat → Core × List LineVal × Nat
  | _, last, [] => (c, [], last)
  | k, last, l :: t =>
    let c := if c.portFree false l then c else c.advance env 1
    let x := c.readLines env .vxe kvi none ecc k [l]
    let y := x.1.readWaiting env kvi rl ecc (k + 1) (max last (x.1.tm.p + readLat rl l)) t
    (y.1, x.2 ++ y.2.1, y.2.2)

/-- The lines of a read of the VXE, and the ccyc in which the slowest of them arrives: all read at issue in scheduled mode. -/
def Core.readVx (c : Core) (env : Env) (kvi : Nat) (rl : Bool) (ecc : List EccObs) (ls : List Nat) :
    Core × List LineVal × Nat :=
  if c.rn.mode = 2 then c.readWaiting env kvi rl ecc 0 c.tm.p ls
  else
    let x := c.readLines env .vxe kvi (some c.ids) ecc 0 ls
    (x.1, x.2, c.tm.p + maxLat rl ls)

/-- Reads four lines into a V register or an operand-cache entry: ready `extra` ccyc after the slowest line. -/
def Core.load4 (c : Core) (env : Env) (kvi : Nat) (l : LineOp) (rl : Bool) (ecc : List EccObs) (dest : Res) (extra : Nat)
    (geo : Nat → Option (List Nat)) (lanes : List LineVal → List (Nat × Lane)) : Core :=
  match c.lineSet env kvi l 0 geo with
  | (c, none) => c
  | (c, some (ls, p)) =>
    let issue := c.tm.p
    let x := c.readVx env kvi rl ecc ls
    (x.1.postVld dest issue (x.2.2 + extra) kvi (.lanes (lanes (poisonLines p x.2.1)))).1

/-- VLD of a row or column (04 R109). -/
def execVld (x : Issue) (v : BitVec 6) (l : LineOp) (col : Bool) (rl : Bool) (ecc : List EccObs) (s : State) :
    Host.Outcome State Fault Refusal :=
  accept (.vld x v l col rl ecc) (s.vxeOn x fun env kvi c =>
    c.load4 env kvi l rl ecc ⟨3, v.toNat⟩ 1 (fun n => fourLines n col) (linesToLanes 0))

/-- OCFILL of a row or column (04 R109). -/
def execOcfill (x : Issue) (entry : BitVec 9) (l : LineOp) (col : Bool) (rl : Bool) (ecc : List EccObs) (s : State) :
    Host.Outcome State Fault Refusal :=
  accept (.ocfill x entry l col rl ecc) (s.vxeOn x fun env kvi c =>
    c.load4 env kvi l rl ecc ⟨4, entry.toNat⟩ 2 (fun n => fourLines n col) (linesToLanes 0))

/-- The strided form of VLD and OCFILL (05 R145, R146). -/
def execVldStrided (x : Issue) (d : VDest) (l : LineOp) (stride : BitVec 14) (w : BitVec 2) (b0 : BitVec 2) (rl : Bool)
    (ecc : List EccObs) (s : State) : Host.Outcome State Fault Refusal :=
  accept (.vldStrided x d l stride w b0 rl ecc) (s.vxeOn x fun env kvi c =>
    let (res, extra) := match d with
      | .v r => (Res.mk 3 r.toNat, 1)
      | .oc e => (Res.mk 4 e.toNat, 2)
    c.load4 env kvi l rl ecc res extra (fun n => strideLines n stride.toInt) (strideLanes w b0.toNat))

/-- The sixteen register writes of a transposing read (05 R147). -/
def Core.postTile (c : Core) (kvi v : Nat) : Nat → Core × List Nat
  | 0 => (c, [])
  | n + 1 =>
    let (c, ids) := c.postTile kvi v n
    let (c, id) := c.postVld ⟨3, v + n⟩ c.tm.p (c.tm.p + 30 + n) kvi (.lanes [])
    (c, ids ++ [id])

/-- The transposing form of VLD (05 R147). -/
def execVldTranspose (x : Issue) (v : BitVec 6) (l : LineOp) (tw : BitVec 2) (tshape : Bool) (rl : Bool)
    (ecc : List EccObs) (s : State) : Host.Outcome State Fault Refusal :=
  accept (.vldTranspose x v l tw tshape rl ecc) (s.vxeOn x fun env kvi c =>
    match c.lineSet env kvi l 0 (fun n => transposeLines n tshape) with
    | (c, none) => c
    | (c, some (ls, p)) =>
      let (c, ids) := c.postTile kvi v.toNat 16
      let op := c.ids
      let c := { c with
        ids := op + 1
        vx := { c.vx with tr := c.vx.tr ++ [TrOp.mk op kvi ls tw.toNat ids [] false p ecc] } }
      c.transposeStep env op 0)

/-! ### Stores (04 R109) -/

/-- VST: lines 0 and 1 are written at issue, lines 2 and 3 in the next ccyc. -/
def execVst (x : Issue) (v : BitVec 6) (l : LineOp) (col : Bool) (s : State) : Host.Outcome State Fault Refusal :=
  accept (.vst x v l col) (s.vxeOn x fun env kvi c =>
    let (c, lanes) := c.readV env .vxe kvi v.toNat
    match c.lineSet env kvi l 1 (fun n => fourLines n col) with
    | (c, none) => c
    | (c, some (ls, p)) =>
      ls.zipIdx.foldl (fun (c : Core) y =>
        let at0 := c.tm.p + y.2 / 2
        let d := laneLine lanes y.2
        let (c, id) := c.post ⟨5, y.1⟩ at0 (at0 + 2) .vxe kvi (.bytes 0 d.1 (d.2 || p))
        c.access at0 .vxe true y.1 kvi (some id)) c)

/-! ### The operand cache and the activation table -/

/-- OCPUT (04 R109): a copy, with its marks (R134). -/
def execOcput (x : Issue) (v : BitVec 6) (entry : BitVec 9) (s : State) : Host.Outcome State Fault Refusal :=
  accept (.ocput x v entry) (s.vxeOn x fun env kvi c =>
    let (c, l) := c.readV env .vxe kvi v.toNat
    (c.post ⟨4, entry.toNat⟩ c.tm.p (c.tm.p + 2) .vxe kvi (.lanes (l.zipIdx.map fun y => (y.2, y.1)))).1)

/-- LUTLD (04 R109, R123): the table is used by the stages that enter two ccyc on, or later. -/
def execLutld (x : Issue) (slo shi : BitVec 6) (entry : BitVec 9) (s : State) : Host.Outcome State Fault Refusal :=
  accept (.lutld x slo shi entry) (s.vxeOn x fun env kvi c =>
    let before := c.ck.viol.length
    let (c, lo) := c.readS env .vxe kvi slo.toNat
    let (c, hi) := c.readS env .vxe kvi shi.toNat
    let (c, k) := c.readOc env .vxe kvi entry.toNat none
    let p := lo.p || hi.p
    let c := c.usePoison .vxe kvi 0 [(0, slo.toNat, lo.p), (0, shi.toNat, hi.p)]
    let l : W32 := lo.v.truncate 32
    let h : W32 := hi.v.truncate 32
    let bad := c.ck.viol.length ≠ before
    let k := if bad then (freeLanes c.fc).map (·.2) else k
    let c := if bad then { c with fc := c.fc + 256 } else c
    let t : ActTable := ⟨actValid l h, l, h, actScale l h, k.map fun (y : Lane) => Lane.mk y.v (y.p || p), entry.toNat⟩
    c.later 2 (.lut t))

end Sys2Proof.Machine
end

