-- ==== Sys2Proof/Machine/Paths.lean ====
section
/-!
DEFINITION. The loader's checks that span several words or paths (07 R219, step 5): reachability, late deliveries, the array and
the beam along every path, operand-cache ports, write-backs, the landing floor, fences, requests of the stream engines, and the
size of the native image (02 R37, R38, R62; 03 R71, R76, R77, R81, R84, R90, R99; 04 R130, R131; 05 R148, R159, R162;
06 R174, R187, R203; 09 R261, R264). What the spec does not fix of them is in notes/assumptions/33.md,
and which KVI index a refusal carries in notes/assumptions/56.md.
-/

namespace Sys2Proof.Machine

open Sys2Proof

/-! ### Latencies fixed by stamps -/

/-- The largest latency that a read of lines can have: ring 2 where a line is computed or RL is MAX (R187). -/
def loadLat (rl : Bool) (l : LineOp) (ls : Option (List Nat)) : Nat :=
  if l.aen then 11 else maxLat rl (ls.getD [])

/-- The ccyc, from its issue, by which an operation has delivered (R37; 02 R43). -/
def deliverAt (chains : List Nat) : Instr → Nat
  | .mul .. => 4
  | .ld .. => 12
  | .lda .. => 12
  | .st .. => 2
  | .sta .. => 2
  | .atom .. => 14
  | .tinc .. => 2
  | .tdec .. => 2
  | .tset .. => 2
  | .mldw .. => 128
  | .mmul _ _ fmt _ _ nm1 _ _ _ _ => nm1.toNat * mxOcc fmt.toNat + mxLat fmt.toNat + 1
  | .mraw .. => 263
  | .mout _ _ _ ofmt _ => if ofmt = 2 then 5 else 4
  | .mflg .. => 4
  | .vop _ f =>
    let c := chainOf (chains.getD f.chain.toNat 0)
    let n := chainLat c.stages
    if c.stages.contains 6 && f.sde then n + 4 else n + 2
  | .vld _ _ l col rl _ => loadLat rl l (fourLines l.line.toNat col) + 1
  | .vldStrided _ d l st _ _ rl _ =>
    loadLat rl l (strideLines l.line.toNat st.toInt) + (match d with
      | .v _ => 1
      | .oc _ => 2)
  | .vldTranspose .. => 45
  | .vst .. => 3
  | .ocfill _ _ l col rl _ => loadLat rl l (fourLines l.line.toNat col) + 2
  | .ocput .. => 2
  | .lutld .. => 2
  | .skip .. => 0
  | .twait .. => 0
  | .fence .. => 0
  | .br .. => 12
  | .dload .. => 0
  | .dbase .. => 0
  | .dgo .. => 0
  | .datom .. => 0
  | .qopen .. => 0
  | .qclose .. => 0
  | .qsend .. => 0
  | .qcsend .. => 0
  | _ => 1

/-! ### What happens at a fixed ccyc of a path -/

/-- Kinds of happening. -/
inductive PKind where
  /-- A line read or a line write: of a bank, or 64 where the line is computed. -/
  | read (bank : Nat)
  | write (bank : Nat)
  /-- An operand-cache read or write port. -/
  | ocRead
  | ocWrite
  /-- A write to the V registers: a chain's, a load's, the beam's, a transposing read's. -/
  | chain
  | load
  | beam
  | tile
  /-- A result that reaches a beam row: whether it needs exact mode, and, where it counts under R90, whether it clears. -/
  | result (row : Nat) (exact : Bool) (count : Option Bool)
  /-- MANC or MCLR. -/
  | clear (tile : Nat) (exact : Bool)
  deriving DecidableEq, Repr

/-- A happening: its ccyc from the block's entry, its engine, and the word that makes it. -/
structure PEvt where
  t    : Int
  kind : PKind
  eng  : Nat
  kvi  : Nat
  deriving DecidableEq, Repr

/-- The bank of line `n` of an operand. -/
def bankIn (l : LineOp) (n : Nat) : Nat := if l.aen then 64 else bankOf n

/-- The happenings of a word, from its stamp. -/
def opEvents (isa : Nat) (chains : List Nat) (i : Instr) : List (Int × PKind) :=
  let reads4 := fun (l : LineOp) (ls : Option (List Nat)) =>
    (ls.getD [0, 0, 0, 0]).map fun n => ((0 : Int), PKind.read (bankIn l n))
  let feed := fun (l : LineOp) (o : MxOp) =>
    ((upFrom 0 o.lineN).map fun u => ((o.feedAt false u : Int) - 16, PKind.read (bankIn l (o.line + u))))
      ++ ((upFrom 0 o.scaleN).map fun u => ((o.feedAt true u : Int) - 16, PKind.read (bankIn l (o.sline + u))))
  let mx := fun (kind fmt : Nat) (scales : Bool) (line sline n : Nat) =>
    MxOp.mk 0 kind 0 fmt scales line sline n 0 false 0 0 [] [] 0 false false false [] []
  match i with
  | .ld .. => [(0, .read 64)]
  | .lda .. => [(0, .read 64)]
  | .st .. => [(0, .write 64)]
  | .sta .. => [(0, .write 64)]
  | .atom .. => [(0, .read 64), (12, .write 64)]
  | .mldw _ l fmt s sl _ => feed l (mx 0 fmt.toNat s l.line.toNat sl.toNat 1)
  | .mmul _ l fmt s sl nm1 row acc _ _ =>
    let f := fmt.toNat
    let narrow := mxClass f ≠ some .c16
    feed l (mx 1 f s l.line.toNat sl.toNat (nm1.toNat + 1))
      ++ (upFrom 0 (nm1.toNat + 1)).map fun q =>
        (((q * mxOcc f + mxLat f : Nat) : Int),
          .result ((row.toNat + q) % 512) (isa = 3 && narrow) (if isa = 3 && narrow then some (!acc) else none))
  | .mraw _ l _ row _ => feed l (mx 2 0 false l.line.toNat 0 1) ++ [(262, .result row.toNat true none)]
  | .mclr _ t => [(0, .clear t.toNat false)]
  | .manc _ t _ => [(0, .clear t.toNat true)]
  | .mout _ _ _ ofmt _ => if ofmt = 2 then [(3, .beam), (4, .beam)] else [(3, .beam)]
  | .mflg .. => [(3, .beam)]
  | .vop _ f =>
    let c := chainOf (chains.getD f.chain.toNat 0)
    (ocEntries c f).map (fun x => ((x.2 : Int) - 1, PKind.ocRead)) ++ [((chainLat c.stages : Int) + 1, PKind.chain)]
  | .vld _ _ l col rl _ =>
    let ls := fourLines l.line.toNat col
    reads4 l ls ++ [((loadLat rl l ls : Int), .load)]
  | .vldStrided _ d l st _ _ rl _ =>
    let ls := strideLines l.line.toNat st.toInt
    reads4 l ls ++ ((loadLat rl l ls : Int), .load) :: (match d with
      | .v _ => []
      | .oc _ => [((loadLat rl l ls : Int), .ocWrite)])
  | .vldTranspose _ _ l _ sh _ _ =>
    let ls := (transposeLines l.line.toNat sh).getD (upFrom 0 64)
    ls.zipIdx.map (fun (x : Nat × Nat) => (((x.2 / 4 : Nat) : Int), PKind.read (bankIn l x.1)))
      ++ (upFrom 0 16).map fun k => (((29 + k : Nat) : Int), PKind.tile)
  | .vst _ _ l col =>
    ((fourLines l.line.toNat col).getD [0, 0, 0, 0]).zipIdx.map fun (x : Nat × Nat) =>
      (((x.2 / 2 : Nat) : Int), PKind.write (bankIn l x.1))
  | .ocfill _ _ l col rl _ =>
    let ls := fourLines l.line.toNat col
    reads4 l ls ++ [((loadLat rl l ls : Int), .load), ((loadLat rl l ls : Int), .ocWrite)]
  | .ocput .. => [(0, .ocWrite)]
  | .lutld .. => [(0, .ocRead)]
  | _ => []

/-! ### Requests of a template (09 R259, R261) -/

/-- The requests of each fill: the stream offset at which each begins, and the lines it touches at its local side. -/
def cutFills (env : Env) (d : List Byte) (out : Bool) : Nat → Nat → List (Nat × List Nat)
  | 0, _ => []
  | fuel + 1, n =>
    if dBytes d ≤ n then []
    else
      let (_, _, la, len) := nextRequest env d out n
      if len = 0 then [] else (n / dFill d, linesOf la len) :: cutFills env d out fuel (n + len)

/-- The requests of each fill as lists of lines. -/
def fillReqs (env : Env) (d : List Byte) (out : Bool) : List (List (List Nat)) :=
  let l := cutFills env d out (dBytes d) 0
  (upFrom 0 (dFills d)).map fun k => (l.filter fun x => x.1 = k).map (·.2)

/-- A descriptor with its start addresses moved. -/
def movedDesc (d : List Byte) (src dst : Nat) : List Byte :=
  leBytes ((dSrc d + src) % 2 ^ 64) 8 ++ leBytes ((dDst d + dst) % 2 ^ 64) 8 ++ d.drop 16

/-- The largest number of requests of each fill, over the starts that may change. -/
def maxCounts (env : Env) (d : List Byte) (out moveSrc moveDst : Bool) : List Nat :=
  let offs := fun (b : Bool) => if b then upFrom 0 2048 else [0]
  (offs moveSrc).foldl (fun (acc : List Nat) a =>
    (offs moveDst).foldl (fun (acc : List Nat) b =>
      let n := (fillReqs env (movedDesc d a b) out).map List.length
      (upFrom 0 (dFills d)).map fun k => max (acc.getD k 0) (n.getD k 0)) acc) []

/-- A SCHED template as its requests issue: for each request its ccyc after the DGO, and the banks of its lines (64 where the
local start may change). -/
def schedReqs (env : Env) (d : List Byte) (out moveSrc moveDst : Bool) : List (Nat × List Nat) :=
  let at0 := fun (k r : Nat) => 4 + k * dFpace d + r * dPace d
  if moveSrc || moveDst then
    let n := min (dPace d) 9
    (maxCounts env d out moveSrc moveDst).zipIdx.flatMap fun (x : Nat × Nat) =>
      (upFrom 0 x.1).map fun r => (at0 x.2 r, (upFrom 0 n).map fun _ => 64)
  else
    (fillReqs env d out).zipIdx.flatMap fun (x : List (List Nat) × Nat) =>
      x.1.zipIdx.map fun (y : List Nat × Nat) => (at0 x.2 y.2, y.1.map bankOf)

/-- Whether FPACE is less than PACE times the largest request count of any fill of several (R261). -/
def fpaceShort (env : Env) (d : List Byte) (out moveSrc moveDst : Bool) : Bool :=
  let n := if moveSrc || moveDst then maxCounts env d out moveSrc moveDst else (fillReqs env d out).map List.length
  1 < n.length && dFpace d < dPace d * n.foldl max 0

/-! ### A path's state at the entry of a block -/

/-- A transfer under way: its engine, the word of its DGO, and the ccyc from now at which its requests issue. -/
structure Going where
  eng  : Nat
  kvi  : Nat
  reqs : List Int
  deriving DecidableEq, Repr

/-- `phase` is the run's ccyc modulo 16 (05 R159); `ev` the happenings of the interval in progress and those still to come; `load`
the last weight load: ccyc since its stamp, at most 128, and its format; `busy` the ccyc for which the array input is still
occupied; `exact` the modes of the eight tiles; `rel` and `acq` the ccyc until the accesses of SEQ, MXE, VXE and DMA1 are
released and acquired; `slots` the template in each descriptor slot. -/
structure PathAt where
  block : Nat
  phase : Nat
  ev    : List PEvt
  load  : Option (Nat × Nat)
  busy  : Nat
  exact : List Bool
  rel   : List Nat
  acq   : List Nat
  slots : List (Nat × Nat)
  going : List Going
  deriving DecidableEq, Repr

/-- The path at a run's start, or a handler's dispatch, with what the descriptor slots hold. -/
def PathAt.start (b : Nat) (slots : List (Nat × Nat)) : PathAt :=
  ⟨b, 0, [], none, 0, [false, false, false, false, false, false, false, false], [0, 0, 0, 0], [0, 0, 0, 0], slots, []⟩

/-- What the path checks are made with: a core image, its words by stream and block, and how its transfers are cut. -/
structure PCtx where
  k     : Ctx
  words : List (List (List At))
  env   : Env
  deriving DecidableEq, Repr

/-- The words of a block, by stamp, then engine. -/
def PCtx.blockWords (p : PCtx) (b : Nat) : List At :=
  sortBy (fun (x y : At) => x.stamp < y.stamp || (x.stamp = y.stamp && x.eng ≤ y.eng))
    ((upFrom 0 6).flatMap fun e => (p.words.getD e []).getD b [])

def PCtx.kvi (p : PCtx) (a : At) : Nat := kviOf p.k.core a.eng a.idx

/-! ### The array (03 R71, R76, R77, R81) -/

/-- The array's state after a word, or none where the word is refused. Loads of one block are compared by `loadsClose`. -/
def arrayStep (x : PathAt) (a : At) : Option PathAt :=
  match a.ins with
  | .mldw _ _ fmt _ _ _ =>
    match x.load with
    | some (ago, _) => if a.stamp + ago < 128 then none else some { x with load := some (128, fmt.toNat) }
    | none => some { x with load := some (128, fmt.toNat) }
  | .mmul _ _ fmt _ _ nm1 _ _ _ _ =>
    match x.load with
    | none => none
    | some (_, w) =>
      let f := fmt.toNat
      if mxClass f ≠ mxClass w || mxIsInt f ≠ mxIsInt w || a.stamp < x.busy then none
      else some { x with busy := a.stamp + (nm1.toNat + 1) * mxOcc f }
  | .mraw .. => if a.stamp < x.busy then none else some { x with busy := a.stamp + 2 }
  | _ => some x

/-- The array's words of a block in order. -/
def arrayRun (kvi : At → Nat) (x : PathAt) : List At → Except Nat PathAt
  | [] => .ok x
  | a :: t =>
    match arrayStep x a with
    | none => .error (kvi a)
    | some y => arrayRun kvi y t

/-- Loads of one block, whose stamps are compared with each other (R76). -/
def loadsClose (kvi : At → Nat) : List At → Option Nat
  | [] => none
  | a :: t =>
    match t with
    | b :: _ => if b.stamp < a.stamp + 128 then some (kvi b) else loadsClose kvi t
    | [] => none

/-! ### Fences (06 R187, 10 R300, R301) -/

/-- The place of an engine whose fences stamps decide. -/
def fenceSlot (eng : Nat) : Option Nat :=
  match eng with
  | 0 => some 0
  | 1 => some 1
  | 2 => some 2
  | 4 => some 3
  | _ => none

/-- When an access has been released, and its value delivered, from its stamp. -/
def relAfter (a : At) : Nat :=
  match a.ins with
  | .st .. => 2
  | .sta .. => 2
  | .atom .. => 12
  | .vst .. => 3
  | _ => 0

def acqAfter (chains : List Nat) (a : At) : Nat :=
  match a.ins with
  | .ld .. => 12
  | .lda .. => 12
  | .atom .. => 12
  | .vld .. => deliverAt chains a.ins
  | .vldStrided .. => deliverAt chains a.ins
  | .vldTranspose .. => 45
  | .ocfill .. => deliverAt chains a.ins
  | .mldw _ _ fmt mx _ _ => (feedLines 0 fmt.toNat 1 mx).1 * mxPerLine fmt.toNat
  | .mmul _ _ fmt _ _ nm1 _ _ _ _ => nm1.toNat * mxOcc fmt.toNat
  | _ => 0

def raise (l : List Nat) (k v : Nat) : List Nat := setNth l k (max (l.getD k 0) v)

/-! ### One block of a path -/

/-- The template that a DGO starts, where the path knows it. -/
def PCtx.template (p : PCtx) (x : PathAt) (eng slot : Nat) : Option (Nat × List Byte) :=
  (x.slots.find? fun s => s.1 = 16 * eng + slot).bind fun s =>
    ((p.k.prog.descs[s.2]?).bind fun c => c.head?).map fun d => (s.2, d)

/-- The words of a block in order: slots, fences and requests. A service block's stamps are 0. -/
def PCtx.flow (p : PCtx) (service : Bool) (x : PathAt) : List At → Except Nat (PathAt × List PEvt)
  | [] => .ok (x, [])
  | a :: t =>
    let own := p.kvi a
    let keep := fun (y : PathAt) (ev : List PEvt) =>
      match p.flow service y t with
      | .error e => Except.error e
      | .ok (z, l) => .ok (z, ev ++ l)
    match a.ins with
    | .dload _ e slot tm =>
      let key := 16 * (if e = .inbound then 3 else 4) + slot.toNat
      let slots := sortBy (fun (s u : Nat × Nat) => s.1 ≤ u.1) ((key, tm.toNat) :: x.slots.filter fun s => s.1 ≠ key)
      keep { x with slots := slots } []
    | .dgo _ e slot _ _ =>
      let eng := if e = .inbound then 3 else 4
      let out := eng = 4
      match p.template x eng slot.toNat with
      | none => keep x []
      | some (_, d) =>
        if dSched d && service then .error own
        else if !dSched d && !service && p.k.det then .error own
        else if !dSched d then keep x []
        else
          let ms := p.k.rebased eng slot.toNat false
          let md := p.k.rebased eng slot.toNat true
          let rs := schedReqs p.env d out ms md
          let ts := rs.map fun r => ((a.stamp + r.1 : Nat) : Int)
          if fpaceShort p.env d out ms md || (x.going.any fun g => g.eng = eng && g.reqs.any fun u => ts.contains u) then
            .error own
          else
            let lines := if out then rs.flatMap fun r =>
                r.2.zipIdx.map fun (b : Nat × Nat) => PEvt.mk ((a.stamp + r.1 + b.2 : Nat) : Int) (.read b.1) 4 own
              else []
            let ends := rs.foldl (fun m r => max m (a.stamp + r.1 + r.2.length)) 0
            keep { x with
              going := x.going ++ [⟨eng, own, ts⟩]
              rel := if out then raise x.rel 3 ends else x.rel } lines
    | .fence _ _ kind _ =>
      if service then keep x []
      else
        match fenceSlot a.eng with
        | none => keep x []
        | some s =>
          if (kind ≠ .acquire && a.stamp < x.rel.getD s 0) || (kind ≠ .release && a.stamp < x.acq.getD s 0) then .error own
          else keep x []
    | i =>
      let x := if service then x else
        match fenceSlot a.eng with
        | none => x
        | some s =>
          { x with
            rel := raise x.rel s (if relAfter a = 0 then 0 else a.stamp + relAfter a)
            acq := raise x.acq s (if acqAfter p.k.prog.raw.chains a = 0 then 0 else a.stamp + acqAfter p.k.prog.raw.chains a) }
      keep x (if service then [] else (opEvents p.k.isa p.k.prog.raw.chains i).map fun v =>
        PEvt.mk ((a.stamp : Int) + v.1) v.2 a.eng own)

/-- Happenings in the order of their ccyc, then of the engines. -/
def inOrder (l : List PEvt) : List PEvt :=
  sortBy (fun (x y : PEvt) => x.t < y.t || (x.t = y.t && x.eng ≤ y.eng)) l

/-- The second of two happenings of a kind in one ccyc, where `n` are allowed: the first word that is one too many. -/
def tooMany (p : PKind → Bool) (n : Nat) : List PEvt → List PEvt → Option Nat
  | _, [] => none
  | seen, x :: t =>
    if p x.kind then
      if n ≤ (seen.filter fun y => p y.kind && y.t = x.t).length then some x.kvi else tooMany p n (x :: seen) t
    else tooMany p n seen t

/-- A load's register write within those of a transposing read (05 R148). -/
def tileMeets (l : List PEvt) : Option Nat :=
  match l.find? fun x => x.kind = .load && l.any fun y => y.kind = .tile && y.t = x.t with
  | some x => some x.kvi
  | none => tooMany (fun k => k = .tile) 1 [] l

/-- The accesses of one interval of 16 ccyc (05 R159, R162): the first word that breaks a limit. -/
def intervalBad (l : List PEvt) : Option Nat :=
  let reads := l.filter fun x => match x.kind with
    | .read _ => true
    | _ => false
  let writes := l.filter fun x => match x.kind with
    | .write _ => true
    | _ => false
  let hits := fun (b : Nat) => l.filter fun x => match x.kind with
    | .read c => c = b || c = 64
    | .write c => c = b || c = 64
    | _ => false
  let ccycs := fun (b : Nat) => (upFrom 0 16).filter fun (n : Nat) => (hits b).any fun x => x.t % 16 = (n : Int)
  if 24 < writes.length then writes.head?.map (·.kvi)
  else
    match (upFrom 0 64).find? fun b => 12 < (ccycs b).length with
    | some b => (hits b).head?.map (·.kvi)
    | none => if 60 < reads.length then reads.head?.map (·.kvi) else none

/-- The intervals of a block, from the one in progress at its entry; `last` takes in one that the run's end cuts off. -/
def intervals (phase length : Nat) (last : Bool) (l : List PEvt) : Option Nat :=
  let n := (phase + length) / 16 + (if last then 1 else 0)
  firstOf ((upFrom 0 n).map fun (i : Nat) =>
    let a : Int := 16 * i - phase
    intervalBad (l.filter fun x => a ≤ x.t && x.t < a + 16))

/-- Results and clears in order: the modes at the end, or the word whose result meets the wrong mode (03 R84). -/
def modesRun (exact : List Bool) : List PEvt → Except Nat (List Bool)
  | [] => .ok exact
  | x :: t =>
    match x.kind with
    | .result row need _ => if exact.getD (row / 64) false ≠ need then .error x.kvi else modesRun exact t
    | .clear tl e => modesRun (setNth exact tl e) t
    | _ => modesRun exact t

/-- Results come before the clears of their ccyc (03 R83, R100). -/
def beamOrder (l : List PEvt) : List PEvt :=
  sortBy (fun (x y : PEvt) => x.t < y.t || (x.t = y.t && (match x.kind with
    | .result _ _ _ => true
    | _ => false))) (l.filter fun x => match x.kind with
      | .result _ _ _ => true
      | .clear _ _ => true
      | _ => false)

/-- A path through block `b`: its state at the block's end, and the beam's happenings, or a refusal. The run's end cuts off an
interval in progress, in a service block too (05 R159). -/
def PCtx.step (p : PCtx) (b : Block) (x : PathAt) : Except Nat (PathAt × List PEvt) :=
    let ws := p.blockWords x.block
    let ending := b.next = 0xFFFF || b.next = 0xFFFE
    if b.service then
      match firstOf [(x.going.find? fun g => g.reqs.any fun u => 0 ≤ u).map (·.kvi),
          if ending then intervals x.phase 0 true (x.ev.filter fun v => v.t < 0) else none] with
      | some e => .error e
      | none =>
        match p.flow true { x with going := [] } ws with
        | .error e => .error e
        | .ok (y, _) =>
          .ok ({ y with
            busy := 0, rel := [0, 0, 0, 0], acq := [0, 0, 0, 0], load := y.load.map fun l => (128, l.2) }, [])
    else
      let mxs := ws.filter fun a => a.eng = 1
      let loads := mxs.filter fun a => match a.ins with
        | .mldw .. => true
        | _ => false
      match loadsClose p.kvi loads with
      | some e => .error e
      | none =>
        match arrayRun p.kvi x mxs with
        | .error e => .error e
        | .ok y =>
          match p.flow false { x with busy := y.busy, load := y.load } ws with
          | .error e => .error e
          | .ok (z, ev) =>
            let all := inOrder (x.ev ++ ev)
            let here := all.filter fun v => 0 ≤ v.t && v.t < (b.length : Int)
            let isa3 := p.k.isa = 3
            let beam := beamOrder here
            match firstOf [
                tooMany (fun k => k = .ocRead) 2 [] here, tooMany (fun k => k = .ocWrite) 1 [] here,
                tooMany (fun k => k = .chain) 1 [] here, tooMany (fun k => k = .beam) 1 [] here, tileMeets here,
                intervals x.phase b.length ending (all.filter fun v => v.t < (b.length : Int)),
                if ending then (z.going.find? fun g => g.reqs.any fun u => (b.length : Int) ≤ u).map (·.kvi) else none] with
            | some e => .error e
            | none =>
              match if isa3 then modesRun x.exact beam else .ok x.exact with
              | .error e => .error e
              | .ok exact =>
                let cut : Int := 16 * ((x.phase + b.length) / 16 : Nat) - x.phase
                let lastLoad := loads.getLast?
                let load := match lastLoad with
                  | some a => z.load.map fun l => (min 128 (b.length - a.stamp), l.2)
                  | none => z.load.map fun l => (min 128 (l.1 + b.length), l.2)
                let y : PathAt :=
                  { block := x.block, phase := (x.phase + b.length) % 16
                    ev := (all.filter fun v => cut ≤ v.t && (b.length ≤ v.t.toNat || (match v.kind with
                      | .read _ => true
                      | .write _ => true
                      | _ => false))).map fun (v : PEvt) => { v with t := v.t - b.length }
                    load := load, busy := z.busy - b.length, exact := exact
                    rel := z.rel.map fun n => n - b.length, acq := z.acq.map fun n => n - b.length, slots := z.slots
                    going := (z.going.map fun (g : Going) =>
                      { g with reqs := (g.reqs.filter fun u => (b.length : Int) ≤ u).map fun u => u - b.length }).filter
                        fun g => g.reqs ≠ [] }
                .ok (y, beam)

/-! ### Every path -/

/-- A place that a path reaches: the state in which a block is entered and, in a handler, the state of the run or the idle core
that waits for its RETURN. -/
structure PPos where
  cur   : PathAt
  under : Option PathAt
  deriving DecidableEq, Repr

/-- The places that follow a point of dispatch: the successor itself, and each handler before it (11 R328). -/
def PCtx.points (p : PCtx) (x : PathAt) : List PPos :=
  let hs := (p.k.prog.raw.handlers.map handlerOf).filter fun h => h.valid
  ⟨x, none⟩ :: hs.map fun h => ⟨PathAt.start h.block x.slots, some x⟩

/-- Where a block leads: after END the next run's start, after RETURN the successor that waits, each with the descriptor slots as
they are; and a run's service block to a point of dispatch. -/
def PCtx.leads (p : PCtx) (b : Block) (q : PPos) (out : PathAt) : List PPos :=
  if b.next = 0xFFFF then p.points (PathAt.start 0 out.slots)
  else if b.next = 0xFFFE then
    match q.under with
    | some u => p.points { u with slots := out.slots }
    | none => []
  else (p.k.next q.cur.block).flatMap fun n =>
    let x := { out with block := n }
    if b.service && q.under.isNone then p.points x else [⟨x, q.under⟩]

/-- A place, what its block does to the beam, whether the run ends there, and where it leads. -/
structure PNode where
  at0  : PPos
  beam : List PEvt
  ends : Bool
  next : List PPos
  deriving DecidableEq, Repr

/-- At most `fuel` more places: those found, those still to do, or a refusal. -/
def PCtx.explore (p : PCtx) : Nat → List PNode → List PPos → Except Nat (List PNode × List PPos)
  | 0, seen, todo => .ok (seen, todo)
  | _ + 1, seen, [] => .ok (seen, [])
  | fuel + 1, seen, q :: t =>
    if seen.any fun n => n.at0 = q then p.explore fuel seen t
    else
      match p.k.blocks[q.cur.block]? with
      | none => p.explore fuel seen t
      | some b =>
        match p.step b q.cur with
        | .error e => .error e
        | .ok (out, beam) =>
          let next := p.leads b q out
          p.explore fuel (seen ++ [⟨q, beam, decide (b.next = 0xFFFF), next⟩]) (t ++ next)

/-- Every place that the paths reach: rounds of 1, 2, 4, ... places until none is left to do. -/
def PCtx.exploreAll (p : PCtx) : Nat → Nat → List PNode → List PPos → Except Nat (List PNode)
  | 0, _, seen, _ => .ok seen
  | rounds + 1, k, seen, todo =>
    match p.explore (2 ^ k) seen todo with
    | .error e => .error e
    | .ok (seen, todo) => if todo = [] then .ok seen else p.exploreAll rounds (k + 1) seen todo

/-- The rounds. A place is fixed by its block, its phase, the words in flight, the requests still to issue and the templates of
the slots: by fewer than 2^192 bits, since no time in it reaches 2^74 ccyc and no ccyc holds more than one word of an engine. There
are fewer than 2^(2^192) places, each leads to at most 130 others, and so the rounds find them all. -/
def pathRounds : Nat := 2 ^ 200

/-! ### Accumulations of an exact entry (03 R90) -/

/-- The count of a row after the happenings of a block, or the word that takes it beyond 2^23. -/
def countRow (row : Nat) : Nat → List PEvt → Except Nat Nat
  | n, [] => .ok n
  | n, x :: t =>
    match x.kind with
    | .result r _ (some clears) =>
      if r ≠ row then countRow row n t
      else if clears then countRow row 1 t
      else if 2 ^ 23 ≤ n then .error x.kvi
      else countRow row (n + 1) t
    | .clear tl _ => countRow row (if row / 64 = tl then 0 else n) t
    | _ => countRow row n t

/-- One round: the largest count with which each place can be entered. A run begins with a cleared beam. -/
def countRound (row : Nat) (nodes : List PNode) (cnt : List Nat) : Except Nat (List Nat) :=
  nodes.zipIdx.foldl (fun acc x =>
    match acc with
    | .error e => .error e
    | .ok m =>
      match countRow row (cnt.getD x.2 0) x.1.beam with
      | .error e => .error e
      | .ok n =>
        let n := if x.1.ends then 0 else n
        .ok (nodes.zipIdx.map fun y => if x.1.next.contains y.1.at0 then max (m.getD y.2 0) n else m.getD y.2 0))
    (.ok cnt)

/-- A word of a loop that accumulates without end: one that adds to the row. -/
def adder (row : Nat) (nodes : List PNode) : Option Nat :=
  (nodes.flatMap fun n => n.beam).findSome? fun x => match x.kind with
    | .result r _ (some false) => if r = row then some x.kvi else none
    | _ => none

/-- Rounds to a fixed point: more rounds than states means a loop that accumulates without end. -/
def countFix (row : Nat) (nodes : List PNode) : Nat → List Nat → Option Nat
  | 0, _ => adder row nodes
  | fuel + 1, cnt =>
    match countRound row nodes cnt with
    | .error e => some e
    | .ok c => if c = cnt then none else countFix row nodes fuel c

def countFault (nodes : List PNode) : Option Nat :=
  firstOf ((upFrom 0 512).map fun row => countFix row nodes (nodes.length + 1) (nodes.map fun _ => 0))

/-! ### Blocks (R174; 02 R37, R38) -/

/-- BRANCH blocks whose last SEQ word is no BR (R174). -/
def PCtx.branchFault (p : PCtx) : Option Nat :=
  firstBad (fun n (b : Block) =>
    if b.next ≠ 0xFFFD then none
    else
      match ((p.words.getD 0 []).getD n []).getLast? with
      | none => some (kviTable p.k.core sBlocks n)
      | some a => match a.ins with
        | .br .. => none
        | _ => some (p.kvi a)) 0 p.k.blocks

/-- RETURN reached from block 0, or END from a handler (R174). -/
def PCtx.endFault (p : PCtx) : Option Nat :=
  let hs := (p.k.prog.raw.handlers.map handlerOf).filter fun h => h.valid
  let fromRun := p.k.reach 0
  let fromHandlers := hs.flatMap fun h => p.k.reach h.block
  (((upFrom 0 p.k.blocks.length).find? fun n =>
    let nx := ((p.k.blocks[n]?).map fun (b : Block) => b.next).getD 0
    (fromRun.contains n && nx = 0xFFFE) || (fromHandlers.contains n && nx = 0xFFFF))).map fun n =>
      kviTable p.k.core sBlocks n

/-- A handler from which no RETURN is reachable (11 R327). -/
def PCtx.returnFault (p : PCtx) : Option Nat :=
  firstBad (fun n x =>
    let h := handlerOf x
    let ends := (p.k.reach h.block).any fun m => ((p.k.blocks[m]?).map fun (y : Block) => y.next) = some 0xFFFE
    failIf (h.valid && !ends) (kviTable p.k.core sHandlers n)) 0 p.k.prog.raw.handlers

/-- The first MXE word of a block that a handler reaches (03 R74). -/
def PCtx.handlerMxe (p : PCtx) : Option Nat :=
  let hs := (p.k.prog.raw.handlers.map handlerOf).filter fun h => h.valid
  let from0 := hs.flatMap fun h => p.k.reach h.block
  ((upFrom 0 p.k.blocks.length).findSome? fun n =>
    if from0.contains n then ((p.words.getD 1 []).getD n []).find? fun a => match a.ins with
      | .skip .. => false
      | _ => true
    else none).map p.kvi

/-- The name of a service block: its first word, by engine, or its entry (02 R38). -/
def PCtx.blockName (p : PCtx) (n : Nat) : Nat :=
  (((upFrom 0 6).findSome? fun e => ((p.words.getD e []).getD n []).head?).map p.kvi).getD (kviTable p.k.core sBlocks n)

def Ctx.isService (k : Ctx) (n : Nat) : Bool := ((k.blocks[n]?).map Block.service).getD false

/-- A service block between scheduled blocks of a deterministic run (02 R38). -/
def PCtx.serviceFault (p : PCtx) : Option Nat :=
  if !p.k.det then none
  else
    (((upFrom 0 p.k.blocks.length).find? fun n =>
      (p.k.reach 0).contains n && p.k.isService n && (p.k.reach n).any fun m => !p.k.isService m)).map p.blockName

/-- An operation that delivers after the end of a scheduled block before a service block (02 R37). -/
def PCtx.lateFault (p : PCtx) : Option Nat :=
  firstBad (fun n (b : Block) =>
    if b.service || !((p.k.next n).any p.k.isService) then none
    else ((p.blockWords n).find? fun a => b.length < a.stamp + deliverAt p.k.prog.raw.chains a.ins).map p.kvi) 0 p.k.blocks

/-- The first word whose native bytes pass 256 KiB of IMEM (R203; 02 R62). -/
def PCtx.imemFault (p : PCtx) : Option Nat :=
  let tags := fun (a : At) => if p.k.audit then
      4 * (p.k.prog.raw.audit.filter fun x => (auditOf x).eng = a.eng && (auditOf x).word = a.idx).length
    else 0
  let ws := p.words.flatMap fun bl => bl.zipIdx.flatMap fun (x : List At × Nat) => if p.k.isService x.2 then [] else x.1
  fill 0 (ws.map fun a =>
    (p.kvi a, Config.nativeWordBytes (BitVec.ofNat 128 ((p.k.stream a.eng).getD a.idx 0)) + tags a))
where
  fill (n : Nat) : List (Nat × Nat) → Option Nat
    | [] => none
    | (k, b) :: t => if 262144 < n + b then some k else fill (n + b) t

/-- The path checks of a core image (R219, step 5). -/
def PCtx.fault (p : PCtx) : Option Nat :=
  match firstOf [p.branchFault, p.endFault, p.returnFault, p.handlerMxe, p.serviceFault, p.lateFault] with
  | some e => some e
  | none =>
    match p.exploreAll pathRounds 0 [] (p.points (PathAt.start 0 [])) with
    | .error e => some e
    | .ok nodes => firstOf [if p.k.isa = 3 then countFault nodes else none, p.imemFault]

end Sys2Proof.Machine
end

