-- ==== Sys2Proof/Machine/Jobs.lean ====
section
/-!
DEFINITION. The commands that load a job and place what it needs: LOAD, UNLOAD, RESERVE, ARM, OPEN_CHANNEL, CLOSE_CHANNEL,
SET_CIRCUITS (15 R457 to R469; 08 R229 to R233; 09 R273; 11 R312, R336, R341, R345; 13 R395, R397, R401).
-/

namespace Sys2Proof.Machine

open Sys2Proof

/-! ### Memory-calendar reservations (08 R229 to R233, 05 R160) -/

/-- The runs that the rule of R231 places after `last`, from the `i`-th of `want` on; `first` is the first run. -/
def placeRest (free : Nat → Bool) (first want maxgap : Nat) : Nat → Nat → Nat → Option (List Nat × Nat)
  | 0, _, last => some ([], last)
  | left + 1, i, last =>
    let n := max (first + 64 * i / want) (last + 1)
    match (upFrom n (first + 64 - n)).find? fun k => free (k % 64) with
    | none => none
    | some k =>
      if maxgap < k - last then none
      else (placeRest free first want maxgap left (i + 1) k).map fun r => (k % 64 :: r.1, r.2)

/-- The placement of R231: the runs in order from the first. -/
def placeRuns (free : Nat → Bool) (want maxgap : Nat) : Option (List Nat) :=
  (upFrom 0 64).findSome? fun first =>
    if !free first then none
    else
      match placeRest free first want maxgap (want - 1) 1 first with
      | some (l, last) => if first + 64 - last ≤ maxgap then some (first :: l) else none
      | none => none

/-- Whether a run of a pseudo-channel is ELASTIC with no change pending. -/
def Hbm.freeRun (h : Hbm) (pc n : Nat) : Bool :=
  n % 16 ≠ 15 && tget CalEntry.elastic h.cal (64 * pc + n) = CalEntry.elastic

/-- Runs of a pseudo-channel that are SCHED, or will be. -/
def Hbm.schedRuns (h : Hbm) (pc : Nat) : Nat :=
  ((upFrom 0 64).filter fun n =>
    let e := tget CalEntry.elastic h.cal (64 * pc + n)
    if e.pend then e.kind2 ≠ 0 else e.kind ≠ 0).length

/-- Whether reservation `id` holds run `n` of a pseudo-channel. -/
def Hbm.holds (h : Hbm) (id pc n : Nat) : Bool :=
  let e := tget CalEntry.elastic h.cal (64 * pc + n)
  if e.pend then e.kind2 ≠ 0 && e.res2 = id else e.kind ≠ 0 && e.res = id

/-- The lines that the reads of run `n` bring to a core in 40 ns: each pseudo-channel of a reservation that delivers there
brings 5 (notes/assumptions/34.md). -/
def Hbm.linesTo (h : Hbm) (core n : Nat) : Nat :=
  ((h.resv.filter fun x => x.2.valid && x.2.dir ≠ 1 && x.2.cores.contains core && h.holds x.1 (x.2.pcs.headD 0) n).map
    fun x => 5 * x.2.pcs.length).sum

/-- The lowest reservation ID that no reservation holds. -/
def Hbm.freeId (h : Hbm) : Option Nat := (upFrom 0 4096).find? fun i => !(tget Resv.free h.resv i).valid

/-- Places a reservation of a job: its ID and FIRST_SLOT. -/
def Hbm.reserve (h : Hbm) (job : Nat) (b : Binding) (cores : List Nat) : Option (Hbm × Nat × Nat) :=
  match placeRuns (fun n => b.pcs.all fun p => h.freeRun p n) b.runs b.maxgap, h.freeId with
  | some runs, some id =>
    if b.pcs.any fun p => 48 < h.schedRuns p + b.runs then none
    else
      let first := 8 * runs.headD 0
      let cal := b.pcs.foldl (fun (m : SMap CalEntry) p =>
        runs.foldl (fun (m : SMap CalEntry) n =>
          tput CalEntry.elastic m (64 * p + n) { CalEntry.elastic with pend := true, kind2 := 1, res2 := id }) m) h.cal
      let v : Resv := { Resv.free with
        valid := true, dir := b.dir, runs := b.runs, maxgap := b.maxgap, job := job, first := first, pcs := b.pcs
        cores := cores }
      let h := { h with cal := cal, resv := tput Resv.free h.resv id v }
      if b.dir ≠ 1 && cores.any fun k => runs.any fun n => 32 < h.linesTo k n then none else some (h, id, first)
  | _, _ => none

/-- Places reservations in order, or none of them. -/
def Hbm.reserveAll (h : Hbm) (job : Nat) : List (Binding × List Nat) → Option (Hbm × List (Nat × Nat))
  | [] => some (h, [])
  | (b, cores) :: t =>
    match h.reserve job b cores with
    | none => none
    | some (h, id, first) => (h.reserveAll job t).map fun r => (r.1, (id, first) :: r.2)

/-- The logical cores that an MCAL binding delivers into. -/
def calCores (b : Binding) (place : List Nat) (all : List Binding) : List Nat :=
  if b.dir = 1 then []
  else if b.param < 0x8000 then [place.getD b.param 0]
  else ((all.find? fun g => g.kind = 6 && g.param = b.param - 0x8000).map fun g =>
    g.members.map fun c => place.getD c 0).getD []

/-- Releases a job's reservations: their runs become ELASTIC at the next frame boundary. -/
def Hbm.release (h : Hbm) (job : Nat) : Hbm :=
  let mine := fun (id : Nat) => let v := tget Resv.free h.resv id; v.valid && v.job = job
  { h with
    cal := h.cal.map fun (x : Nat × CalEntry) =>
      let e := x.2
      if (e.kind ≠ 0 && mine e.res) || (e.pend && e.kind2 ≠ 0 && mine e.res2) then
        (x.1, { e with pend := true, kind2 := 0, res2 := 0 })
      else x
    resv := h.resv.map fun (x : Nat × Resv) =>
      if x.2.valid && x.2.job = job then (x.1, { x.2 with gone := true }) else x }

/-- Bytes of a RESULT field. -/
def resultBytes (r : Nat × Nat) : List Byte := leBytes (fld r.1 0 12 + fld r.2 16 9) 4

/-- The RESULT fields of a list of 32-byte entries at an address: (entry, ID and FIRST_SLOT). -/
def State.writeResults (s : State) (at0 : W64) (l : List (Nat × Nat × Nat)) : State :=
  l.foldl (fun (s : State) x => s.result (at0 + BitVec.ofNat 64 (32 * x.1 + 4)) (resultBytes x.2)) s

/-! ### LOAD (15 R457 to R465) -/

/-- The flags of LOAD. -/
def Cmd.audit (c : Cmd) : Bool := c.p.p5.getLsbD 0
def Cmd.det (c : Cmd) : Bool := c.p.p5.getLsbD 1
def Cmd.fwpriv (c : Cmd) : Bool := c.p.p5.getLsbD 2

/-- What LOAD reads: the program without its signature, the signature, the bindings and the placement. -/
structure LoadIn where
  img   : List Byte
  sig   : List Byte
  binds : List Binding
  place : List Nat
  deriving DecidableEq, Repr

def State.loadIn (s : State) (c : Cmd) (image bindings placement : List Byte) : LoadIn :=
  let all := s.buffer c.p.p0 c.p.p1.toNat image
  let img := if c.fwpriv then all.take (all.length - 512) else all
  let n := bits c.p.p3.toNat 0 16
  let bl := s.buffer c.p.p2 (32 * n) bindings
  { img := img, sig := all.drop img.length, binds := (upFrom 0 n).map (bindingAt bl)
    place := (s.buffer c.p.p4 (imgCores img) placement).map fun b => b.toNat }

/-- Whether R460 refuses a placement. -/
def State.placeBad (s : State) (job : Nat) (l : List Nat) : Bool :=
  (l.any fun k => 128 ≤ k) || twins l
    || s.jobs.any fun x => x.1 ≠ job && x.2.state ≠ jEMPTY && x.2.placement.any fun k => l.contains k

/-- The parameter that LOAD's lists break (R459, step 1). -/
def State.loadParam (s : State) (c : Cmd) (x : LoadIn) : Option Nat :=
  let groups := groupsOf x.binds
  let lone := !headerBad x.img false && (imgRelocs x.img).any fun r => r.kind = 6 && !groups.contains r.sym
  if bindingsBad x.binds (imgCores x.img) (if c.fwpriv then hbmEnd else hbmUser) || lone then some 2
  else if s.placeBad c.p.job.toNat x.place then some 4
  else none

/-- The hardware groups that no job holds. -/
def State.freeGroups (s : State) : List Nat := (upFrom 0 64).filter fun g => tget 0xFF s.mcgJob g = 0xFF

/-- The loader's check of a program, given what is placed for it: the core images' contexts and words, or the refusal. -/
def checkCores (mk : Nat → CoreProg → Ctx) (env : Env) :
    List (CoreProg × Nat) → Except Nat (List (Ctx × List (List (List At))))
  | [] => .ok []
  | (p, n) :: t =>
    match (mk n p).check with
    | .error e => .error e
    | .ok w =>
      match checkCores mk env t with
      | .error e => .error e
      | .ok l => .ok ((mk n p, w) :: l)

/-- A queue binding that a deterministic job may not use: a queue of this device with BAL 1 (11 R333). -/
def State.balanced (s : State) (x : LoadIn) : Option Nat :=
  firstBad (fun n (r : Reloc) => match x.binds[r.sym]? with
    | some b => failIf (r.kind = 4 && b.kind = 3 && b.value / 2 ^ 20 = s.fab.devId && (s.queue (b.value % 2 ^ 20)).bal
        && (s.queue (b.value % 2 ^ 20)).state = 1) (kviTable 0 sReloc n)
    | none => none) 0 (imgRelocs x.img)

/-- The checks of R219 in order. -/
def State.loadProgram (s : State) (c : Cmd) (x : LoadIn) (k : Links) : Except Nat (List Ctx) :=
  let img := x.img
  if headerBad img c.audit then .error kviHeader
  else
    let table := imgTable img
    match tableFault img [] 0 table with
    | some e => .error e
    | none =>
      if lacksSect img table then .error kviHeader
      else
        let raw := imgRaw img
        let rs := imgRelocs img
        match firstOf [relocFault k raw [] 0 rs, if c.det then s.balanced x else none] with
        | some e => .error e
        | none =>
          let members := fun (n : Nat) => (k.groups.filter fun g =>
            x.binds.any fun b => b.kind = 6 && b.param = g.1 && b.members.contains n).map (·.2)
          let mk := fun (n : Nat) (p : CoreProg) =>
            Ctx.mk n (imgIsa img) c.det c.audit (p.raw.blocks.map blockOf) p
              ((rs.filter fun r => r.desc = 1 && r.kind = 5 && r.core = n && r.pos = 768).map fun r => r.idx)
              (members n) s.fab.devId c.fwpriv
          let env := { s.env 0 with dev := s.fab.devId, fwpriv := c.fwpriv, isa3 := imgIsa img = 3 }
          match checkCores mk env (raw.zipIdx.map fun (y : CoreRaw × Nat) => (patchCore k rs y.2 y.1, y.2)) with
          | .error e => .error e
          | .ok l =>
            match firstOf (l.map fun y => (PCtx.mk y.1 y.2 env).fault) with
            | some e => .error e
            | none => .ok (l.map (·.1))

/-- Bytes of the native image of a core image (R203). -/
def CoreImage.nativeSize (i : CoreImage) (audit : Bool) : Nat :=
  ((i.streams.flatMap fun l => l.map Config.nativeWordBytes).sum) + (if audit then 4 * i.audit.length else 0)

/-- What a tag says, as the translator reads it. -/
def AuditTag.bytes (t : AuditTag) : List Byte :=
  leBytes (t.word + t.eng * 2 ^ 22 + t.rkind * 2 ^ 25) 4
    ++ leBytes ((if t.all then 1 else 0) + t.lpos * 2 + t.ridx * 2 ^ 7 + t.gen * 2 ^ 16) 4

/-- A core image's bytes, from which its native image is translated; in an audit build its tags too (02 R62, 07 R212). -/
def CoreImage.bytes (i : CoreImage) (audit : Bool) : List Byte :=
  (i.streams.flatMap fun l => l.flatMap fun w => leBytes w.toNat 16)
    ++ (i.blocks.flatMap fun b => leBytes b.length 4 ++ leBytes b.next 2 ++ leBytes b.mode 2
      ++ b.start.flatMap fun n => leBytes n 4)
    ++ (i.chains.flatMap fun c => leBytes c 16) ++ (i.descs.flatMap fun l => l.flatten)
    ++ (if audit then 1 :: i.audit.flatMap AuditTag.bytes else [0])

/-- JOBOPT DIGEST of a binding list. -/
def digestOpt (l : List Binding) : Nat := ((l.find? fun b => b.kind = 0).map fun b => b.value).getD 0

/-- LOAD's resources and program: the job, and what is placed for it. -/
def State.loadJob (s : State) (c : Cmd) (x : LoadIn) : State :=
  let id := c.id
  let job := c.p.job.toNat
  let groups := groupsOf x.binds
  let free := s.freeGroups
  let cals := x.binds.zipIdx.filter fun (b : Binding × Nat) => b.1.kind = 4
  if free.length < groups.length then s.noRecord id .erefused
  else
    match s.hbm.reserveAll job (cals.map fun (b : Binding × Nat) => (b.1, calCores b.1 x.place x.binds)) with
    | none => s.noRecord id .erefused
    | some (hbm, placed) =>
      if c.fwpriv && !(x.sig.length = 512 && Config.rsaVerify Config.firmwareKey x.img x.sig) then s.noRecord id .eauth
      else
        let slots := (cals.map fun (b : Binding × Nat) => b.2).zip placed
        let binds := x.binds.zipIdx.map fun (b : Binding × Nat) =>
          match slots.find? fun y => y.1 = b.2 with
          | some y => { b.1 with slot := y.2.2 }
          | none => b.1
        let mcg := groups.zip free
        match s.loadProgram c x ⟨imgIsa x.img, binds, x.place, mcg⟩ with
        | .error e => s.finish id .eprogram e
        | .ok cores =>
          let images := cores.map Ctx.image
          let j : Job := { Job.empty with
            state := jLOADED, det := c.det, audit := c.audit, fwpriv := c.fwpriv, isa3 := imgIsa x.img = 3
            op := imgOp x.img, seed := c.p.p6, placement := x.place, images := images, base := images
            calRel := ((imgRelocs x.img).zipIdx.filter fun (r : Reloc × Nat) => r.1.kind = 5).map fun (r : Reloc × Nat) =>
              (r.2, r.1.sym)
            bindings := binds, sets := (setsOf x.binds).getD 0, mcGroups := mcg
            progId := BitVec.ofNat 64 (leAt (Config.sha512_256 x.img) 0 8), digest := digestOpt x.binds
            ring := c.ring }
          let s := { s with
            hbm := hbm
            mcgJob := mcg.foldl (fun (m : SMap Nat) (g : Nat × Nat) => tput 0xFF m g.2 job) s.mcgJob }
          ((s.setJob job j).writeResults c.p.p2 slots).finish id .ok
            ((images.map fun (i : CoreImage) => i.nativeSize c.audit).foldl max 0)

/-- A LOAD that has ended without success leaves its slot EMPTY (15 R457); `c` is the LOAD as it was. -/
def State.endLoad (s : State) (held : Option Cmd) : State :=
  match held with
  | none => s
  | some c =>
    if (s.cmd c.id).isNone && (s.job c.p.job.toNat).state = jLOADING then s.setJob c.p.job.toNat Job.empty else s

/-- LOAD: its slot has been LOADING since the command began execution. -/
def execLoad (id : Reads) (image bindings placement : List Byte) (s : State) : Host.Outcome State Fault Refusal :=
  accept (.load id image bindings placement) (
    let bufs := fun (c : Cmd) => [(c.p.p0, c.p.p1.toNat), (c.p.p2, 32 * bits c.p.p3.toNat 0 16),
      (c.p.p4, imgCores (s.buffer c.p.p0 c.p.p1.toNat image))]
    (s.reading id.no 0x01 id.ecc bufs fun s =>
      s.perform1 id.no 0x01 (fun _ => true) (fun c => s.loadParam c (s.loadIn c image bindings placement))
        fun c => s.loadJob c (s.loadIn c image bindings placement)).endLoad
      ((s.cmd id.no).filter fun c => s.loader c))

/-! ### UNLOAD (15 R457, R458; 08 R233; 11 R341, R345; 09 R283) -/

/-- A job slot becomes EMPTY: its reservations, groups, circuits, queues and windows are released. -/
def State.emptyJob (s : State) (job : Nat) : State :=
  let j := s.job job
  let s := { s with hbm := s.hbm.release job }
  let mine := (s.mcgJob.filter fun x => x.2 = job).map (·.1)
  let qs := (s.qgrpJob.filter fun x => x.2 = job).map (·.1)
  let s := { s with
    mcg := tdrop (fun g => mine.contains g) s.mcg, mcgJob := tdrop (fun g => mine.contains g) s.mcgJob
    qgrp := tdrop (fun g => qs.contains g) s.qgrp, qgrpJob := tdrop (fun g => qs.contains g) s.qgrpJob }
  let s := j.circuits.foldl (fun (s : State) x => s.removeCircuit x.2) s
  let s := ((s.queues.filter fun x => x.2.job = job && x.2.state = 1).map (·.1)).foldl State.queueGone s
  let s := j.placement.foldl (fun (s : State) k => s.modCore k fun (c : Core) => { c with lu := { c.lu with win := [] } }) s
  s.setJob job Job.empty

/-- UNLOAD: it waits for the job's runs to retire. -/
def execUnload (id : Nat) (s : State) : Host.Outcome State Fault Refusal :=
  accept (.unload id) (s.runCmd id 0x02 fun c =>
    if !(s.job c.p.job.toNat).live.isEmpty then s
    else ((s.emptyJob c.p.job.toNat).settleDevice).finish id .ok 0)

/-! ### RESERVE (15 R467) -/

/-- RESERVE. -/
def execReserve (id : Reads) (entries : List Byte) (s : State) : Host.Outcome State Fault Refusal :=
  accept (.reserve id entries) (s.reading id.no 0x03 id.ecc (fun c => [(c.p.p0, 32 * c.p.p1.toNat)]) fun s =>
    let list := fun (c : Cmd) =>
      (upFrom 0 c.p.p1.toNat).map (bindingAt (s.buffer c.p.p0 (32 * c.p.p1.toNat) entries))
    let bad := fun (c : Cmd) =>
      let j := s.job c.p.job.toNat
      if (list c).any fun b => b.kind ≠ 4 || !b.calOk || (b.dir ≠ 1 && j.state ≠ jEMPTY && (if b.param < 0x8000 then j.placement.length ≤ b.param
          else !(j.bindings.any fun g => g.kind = 6 && g.param = b.param - 0x8000))) then some 0
      else none
    s.perform1 id.no 0x03 (fun _ => true) bad fun c =>
      let job := c.p.job.toNat
      let j := s.job job
      match s.hbm.reserveAll job ((list c).map fun b => (b, calCores b j.placement j.bindings)) with
      | none => s.noRecord id.no .erefused
      | some (hbm, placed) =>
        ({ s with hbm := hbm }.writeResults c.p.p0 ((upFrom 0 placed.length).zip placed)).finish id.no .ok 0)

/-! ### ARM (15 R457, R466, R477; 13 R397) -/

/-- Whether a descriptor has a VC0 remote side: SCHED, with an address of another device. -/
def vc0Desc (dev : Nat) (d : List Byte) : Bool :=
  let far := fun (a : Nat) => bits a 60 4 = 8 && bits a 48 12 ≠ dev
  dSched d && (far (dSrc d) || far (dDst d))

/-- A descriptor with its job circuit index replaced. -/
def setCirc (d : List Byte) (id : Nat) : List Byte := d.take 0x68 ++ leBytes id 4 ++ d.drop 0x6C

/-- The circuit of a job circuit index. -/
def State.jobCircuit (s : State) (j : Job) (idx : Nat) : Option (Nat × Circ) :=
  (j.circuits.find? fun x => x.1 = idx).map fun x => (x.2, tget Circ.none s.fab.circ x.2)

/-- Whether a slot is reserved to a circuit at a port. -/
def Port.reservedTo (p : Port) (slot id : Nat) : Bool :=
  let f := tget FCal.free p.cal slot
  if f.pend then f.res2 && f.circ2 = id else f.res && f.circ = id

/-- The first refusal of ARM with EPROGRAM. -/
def State.armFault (s : State) (j : Job) : Option Nat :=
  let descs := firstBad (fun n (i : CoreImage) =>
    firstBad (fun e (copies : List (List Byte)) =>
      failIf (copies.any fun d => vc0Desc s.fab.devId d && (match s.jobCircuit j (dCirc d) with
        | none => true
        | some (_, c) => !c.valid || c.core ≠ j.placement.getD n 0)) (kviTable n sDescs e)) 0 i.descs) 0 j.base
  let slots := j.calRel.findSome? fun r =>
    match j.bindings[r.2]? with
    | none => none
    | some b =>
      if b.kind ≠ 5 then none
      else
        match s.jobCircuit j b.param with
        | some (id, c) => failIf (!(s.port c.out).reservedTo b.value id) (kviTable 0 sReloc r.1)
        | none => some (kviTable 0 sReloc r.1)
  firstOf [descs, slots]

/-- A core image with its circuit IDs patched. -/
def State.patchCircuits (s : State) (j : Job) (i : CoreImage) : CoreImage :=
  { i with descs := i.descs.map fun (l : List (List Byte)) => l.map fun (d : List Byte) =>
    if vc0Desc s.fab.devId d then
      match s.jobCircuit j (dCirc d) with
      | some (id, _) => setCirc d id
      | none => d
    else d }

/-- The digest of the bindings of a role, in a buffer set (15 R477). -/
def State.roleDigest (s : State) (j : Job) (role set : Nat) : List Byte := s.hbm.digestOf (j.ranges role set)

/-- A core is armed for a job: its image, windows, contexts and slots; its arrival tallies are 0 (05 R158). -/
def Core.arm (c : Core) (job image : Nat) (j : Job) (i : CoreImage) : Core :=
  let wins := i.windows.zipIdx.foldl (fun (m : SMap Window) (x : (Nat × Nat × Nat) × Nat) =>
    tput Window.closed m x.2 (if x.1.2.1 = 0 then Window.closed else ⟨x.1.1, x.1.2.1, x.1.2.2, false⟩)) []
  { c with
    lu := { c.lu with win := wins }
    tl := { c.tl with t := tdrop (fun k => 128 ≤ k) c.tl.t }
    dm := { c.dm with slots := [] }
    ms := { c.ms with ctx := [] }
    rn := { c.rn with job := job, image := image, det := j.det, audit := j.audit } }

/-- The multicast map of a hardware group (09 R273). -/
def groupMap (j : Job) (group : Nat) : BitVec 128 :=
  match j.bindings.find? fun b => b.kind = 6 && b.param = group with
  | none => 0
  | some b => b.members.foldl (fun (m : BitVec 128) c => m ||| BitVec.ofNat 128 (2 ^ j.placement.getD c 0)) 0

/-- ARM. -/
def execArm (id : Reads) (s : State) : Host.Outcome State Fault Refusal :=
  accept (.arm id) (s.runCmd id.no 0x04 fun c =>
    let job := c.p.job.toNat
    let j := s.job job
    let outs := j.circuits.map fun x => s.port (tget Circ.none s.fab.circ x.2).out
    if j.det && outs.any (fun p => p.calSusp) then s.noRecord id.no .erefused
    else
      match s.armFault j with
      | some e => s.finish id.no .eprogram e
      | none =>
        let r := s.touch id.ecc (if j.digest = 0 then [] else j.ranges 1 0)
        if r.2 then r.1.noRecord id.no .epoison else
        let s := r.1
        let images := j.base.map (s.patchCircuits j)
        let dg := Config.sha512_256 (leBytes s.host.trVer.toNat 4
          ++ images.flatMap fun i => Config.nativeImage (i.bytes j.audit) s.host.trVer.toNat)
        let j := { j with
          state := jARMED, images := images, runIdx := 0, runs := 0, progDg := dg
          wgtDg := if j.digest = 0 then [] else s.roleDigest j 1 0, fabSched := outs.all fun p => !p.calSusp, per := none }
        let s := { s.setJob job j with
          mcg := j.mcGroups.foldl (fun (m : SMap (BitVec 128)) g => tput 0 m g.2 (groupMap j g.1)) s.mcg }
        let s := (j.placement.zip images).zipIdx.foldl (fun (s : State) (x : (Nat × CoreImage) × Nat) =>
          s.modCore x.1.1 fun k => k.arm job x.2 j x.1.2) s
        (s.settleDevice).finish id.no .ok 0)

/-! ### OPEN_CHANNEL and CLOSE_CHANNEL (11 R312, R336, R341, R345; 14 R447) -/

/-- The queue that a descriptor image describes, owned by a job. -/
def queueOf (d : List Byte) (job : Nat) : Queue :=
  let ctl := leAt d 0 4
  let group := bitAt ctl 4
  { Queue.zero with
    state := 1, kind := bits ctl 2 2, group := group, policy := bits ctl 5 2, hbm := bitAt ctl 7, rlog := bits ctl 8 5
    hmode := bitAt ctl 13, bal := bitAt ctl 14, fab := bitAt ctl 15, exact := bitAt ctl 16, home := bits ctl 17 2
    reader := if group then bits (leAt d 4 2) 8 6 else bits (leAt d 4 2) 0 8
    hidx := bits (leAt d 6 1) 0 6, job := job, rbase := leAt d 8 8, sbase := leAt d 0x10 8, scred := leAt d 0x18 4
    maxconn := leAt d 0x1C 2, slog := leAt d 0x1E 1, expect := leAt d 0x40 4, ctmo := leAt d 0x44 4, dq := leAt d 0x48 4
    anchor := bits (leAt d 0x4C 2) 0 12, keys := leAt d 0x4E 2
    members := (upFrom 0 64).filterMap fun m =>
      let x := leAt d (0x200 + 8 * m) 8
      if bitAt x 63 then some (m, bits x 0 32) else none }

/-- Whether the ring of a CORE queue lies in one window of its reader whose SRC admits the senders (R312). -/
def State.ringInWindow (s : State) (q : Queue) : Bool :=
  let j := s.job q.job
  ((j.placement.zip j.images).find? fun x => x.1 = q.reader).elim false fun x => x.2.windows.any fun w =>
    w.2.1 ≠ 0 && (if q.fab then w.2.2 = 2 else w.2.2 = 1 || w.2.2 = 2)
      && 256 * w.1 ≤ q.rbase && q.rbase + 2 ^ q.rlog ≤ 256 * (w.1 + w.2.1)

/-- Whether a descriptor image breaks R312: every field keeps its range, whatever the kind of the queue; EXPECT that of a COMBINING
queue, and the window that of a ring which is read. -/
def State.queueBad (s : State) (d : List Byte) (q : Queue) : Bool :=
  let ctl := leAt d 0 4
  bits ctl 0 2 = 3 || q.kind = 3 || q.policy = 3 || bits ctl 19 13 ≠ 0
    || (!q.group && 128 ≤ q.reader) || q.maxconn = 0 || 4096 < q.maxconn || q.scred % 16 ≠ 0
    || q.rlog < 12 || 26 < q.rlog || q.rbase % 256 ≠ 0 || q.slog < 12 || 26 < q.slog || q.sbase % 256 ≠ 0
    || (q.kind = 1 && q.expect = 0) || (q.group && !q.hbm)
    || (q.kind = 0 && !q.group && !q.hbm && !s.ringInWindow q)

/-- Combining entries of a hub that are taken: reserved, or held without reservation. -/
def Hub.combTaken (h : Hub) : Nat := h.combRes + (h.comb.filter fun e => !e.resv).length

/-- OPEN_CHANNEL. A QID whose queue is OPEN is not free (DESIGN CHOICE: the spec does not say). -/
def execOpenChannel (id : Reads) (image : List Byte) (s : State) : Host.Outcome State Fault Refusal :=
  accept (.openChannel id image) (s.reading id.no 0x09 id.ecc (fun c => [(c.p.p1, 1024)]) fun s =>
    let data := fun (c : Cmd) => s.buffer c.p.p1 1024 image
    let map := fun (c : Cmd) => BitVec.ofNat 128 (c.p.p2.toNat + 2 ^ 64 * c.p.p3.toNat)
    let bad := fun (c : Cmd) =>
      let q := queueOf (data c) c.p.job.toNat
      if s.queueBad (data c) q then some 1
      else if q.group && tget 0xFF s.qgrpJob q.reader ≠ 0xFF && tget 0 s.qgrp q.reader ≠ map c then some 2
      else none
    s.perform1 id.no 0x09 (fun _ => true) bad fun c =>
      let qid := bits c.p.p0.toNat 0 20
      let job := c.p.job.toNat
      let q := queueOf (data c) job
      let h := s.hub q.home
      if (s.queue qid).state = 1 || (q.kind = 1 && 65536 < h.combTaken + q.keys) then s.noRecord id.no .erefused
      else
        let s := s.setQueue qid q
        let s := if q.kind = 1 then (s.setHub q.home { h with combRes := h.combRes + q.keys }).hubConn q qid (.opn 0) else s
        let s := if q.group && tget 0xFF s.qgrpJob q.reader = 0xFF then
            { s with qgrp := tput 0 s.qgrp q.reader (map c), qgrpJob := tput 0xFF s.qgrpJob q.reader job }
          else s
        s.finish id.no .ok 0)

/-- CLOSE_CHANNEL: an OPEN queue becomes GONE, a GONE one FREE. -/
def execCloseChannel (id : Nat) (s : State) : Host.Outcome State Fault Refusal :=
  accept (.closeChannel id) (s.runCmd id 0x0A fun c =>
    let qid := bits c.p.p0.toNat 0 20
    let s := match (s.queue qid).state with
      | 1 => s.queueGone qid
      | 2 => s.setQueue qid Queue.zero
      | _ => s
    s.finish id .ok 0)

/-! ### SET_CIRCUITS (15 R466, R468; 13 R395, R401) -/

/-- A circuit-list entry. -/
structure CircEntry where
  orig    : Nat
  dst     : Nat
  hops    : Nat
  nslot   : Nat
  first   : Nat
  spacing : Nat
  ports   : Nat
  res     : Bool
  deriving DecidableEq, Repr

def circEntryAt (l : List Byte) (k : Nat) : CircEntry :=
  let o := 32 * k
  ⟨leAt l o 2, leAt l (o + 2) 2, leAt l (o + 4) 1, leAt l (o + 6) 2, leAt l (o + 8) 2, leAt l (o + 10) 2,
    leAt l (o + 16) 8, zeroAt l (o + 5) 1 && zeroAt l (o + 12) 4 && zeroAt l (o + 24) 8⟩

/-- The output port of the first hop, and the slots at the origin. -/
def CircEntry.out (e : CircEntry) : Nat := bits e.ports 0 4
def CircEntry.slots (e : CircEntry) : List Nat := (upFrom 0 e.nslot).map fun i => (e.first + i * e.spacing) % 1024

/-- Whether an entry breaks the ranges of R468, or its origin slots are not distinct or are FIXED. -/
def CircEntry.bad (e : CircEntry) (ncore : Nat) : Bool :=
  ncore ≤ e.orig || 4096 ≤ e.dst || e.hops = 0 || 15 < e.hops || e.nslot = 0 || 960 < e.nslot || 1024 ≤ e.first
    || e.spacing = 0 || 1024 ≤ e.spacing || !e.res || twins e.slots || e.slots.any fun k => k % 16 = 15

/-- The largest gap between reserved slots, in slots (R416). -/
def slotGap (l : List Nat) : Nat :=
  let s := sortBy (fun (x y : Nat) => x ≤ y) l
  let next := s.drop 1 ++ (s.head?.map fun x => x + 1024).toList
  (s.zip next).foldl (fun m x => max m (x.2 - x.1)) 0

/-- CIRCc_BUDGET: the write bound of R400 for the hops, less 80 ns (R401). -/
def circBudget (hops : Nat) : Nat := 600 + 150 * (hops - 2) - 80

/-- Whether a slot of a port is reserved, or will be. -/
def Port.slotTaken (p : Port) (k : Nat) : Bool :=
  let f := tget FCal.free p.cal k
  f.res || (f.pend && f.res2)

/-- The lowest circuit ID that is free here. -/
def State.freeCirc (s : State) : Option Nat :=
  (upFrom 0 4096).find? fun i => tget Circ.none s.fab.circ i = Circ.none

/-- The outcome of installing entries: the state and the origin IDs, or the status that refuses them. `later` is what the rest of
each path answers: no free ID on it, or a delivery too many (none); the next device's ID; or more, where a slot of a later hop
has no place (notes/assumptions/35.md). -/
def State.installAll (job : Nat) : List (CircEntry × List Nat) → Nat → State → Except Status (State × List Nat)
  | [], _, s => .ok (s, [])
  | (e, later) :: t, idx, s =>
    let j := s.job job
    if e.bad j.placement.length || e.slots.any (s.port e.out).slotTaken || 1 < later.length then .error .eparam
    else
      match later, s.freeCirc with
      | [next], some id =>
        let c : Circ :=
          { valid := true, origin := true, term := false, out := e.out, next := next % 4096, dst := e.dst
            core := j.placement.getD e.orig 0, nslot := e.nslot, fgap := slotGap e.slots, budget := circBudget e.hops
            cnt := 0, job := job, gone := false }
        let s := s.installCircuit id c e.slots
        let s := s.setJob job { s.job job with circuits := (s.job job).circuits ++ [(idx, id)] }
        match State.installAll job t (idx + 1) s with
        | .error x => .error x
        | .ok (s, l) => .ok (s, id :: l)
      | _, _ => .error .erefused

/-- SET_CIRCUITS. -/
def execSetCircuits (id : Reads) (entries : List Byte) (later : List (List Nat)) (s : State) : Host.Outcome State Fault Refusal :=
  accept (.setCircuits id entries later) (s.reading id.no 0x0B id.ecc (fun c => [(c.p.p0, 32 * c.p.p1.toNat)]) fun s =>
    let plan := fun (c : Cmd) =>
      let l := (upFrom 0 c.p.p1.toNat).map (circEntryAt (s.buffer c.p.p0 (32 * c.p.p1.toNat) entries))
      State.installAll c.p.job.toNat (l.zipIdx.map fun (x : CircEntry × Nat) => (x.1, later.getD x.2 []))
        (s.job c.p.job.toNat).circuits.length s
    let bad := fun (c : Cmd) => match plan c with
      | .error .eparam => some 0
      | _ => none
    s.perform1 id.no 0x0B (fun _ => true) bad fun c =>
      match plan c with
      | .ok (s, ids) => (s.result c.p.p2 (ids.flatMap fun i => leBytes i 2)).finish id.no .ok 0
      | .error _ => s.noRecord id.no .erefused)

end Sys2Proof.Machine
end

