-- ==== Sys2Proof/Machine/Queries.lean ====
section
/-!
DEFINITION. QUERY and FAULTS, and the digest records of runs: hashing and signing (14 R449; 16 R486; 15 R475 to R480).
-/

namespace Sys2Proof.Machine

open Sys2Proof

/-- Exactly `n` bytes: cut, or filled up with zeros. -/
def padTo (n : Nat) (d : List Byte) : List Byte := d.take n ++ List.replicate (n - d.length) 0

/-! ### Digest records (15 R475 to R480) -/

/-- RUN_DG. -/
def Digest.runDg (d : Digest) : List Byte :=
  Config.sha512_256 (padTo 32 d.prog ++ padTo 32 d.wgt ++ padTo 32 d.inp ++ leBytes d.config.toNat 16)

/-- The first 256 bytes of a digest record; digests that are not yet complete, or are spoiled, are 0. -/
def State.digestHead (s : State) (d : Digest) (state : Nat) : List Byte :=
  leBytes state 2 ++ leBytes d.job 1 ++ leBytes d.status.code 1 ++ leBytes (fld (b2n d.sign) 0 1 + fld (b2n d.skip) 1 1) 4
    ++ leBytes d.run 8 ++ leBytes d.start.toNat 8 ++ leBytes d.stop.toNat 8 ++ leBytes d.ccyc.toNat 8
    ++ leBytes d.stretch.toNat 8 ++ leBytes devIdWord 4 ++ leBytes s.host.trVer.toNat 4 ++ leBytes s.fab.devId 2 ++ leBytes 0 6
    ++ leBytes d.config.toNat 16 ++ leBytes 0 16 ++ padTo 32 d.prog ++ padTo 32 d.wgt ++ padTo 32 d.inp
    ++ padTo 32 (if d.inp.isEmpty then [] else d.runDg) ++ padTo 32 d.outp

/-- The 1,024 bytes of a digest record. -/
def State.digestBytes (s : State) (d : Digest) : List Byte :=
  if d.state = 0 then List.replicate 1024 0
  else padTo 1024 (s.digestHead d d.state ++ padTo 512 d.sig)

/-- The digest record of an index. -/
def MssState.digest (m : MssState) (i : Nat) : Digest := tget Digest.empty m.digests i
def MssState.setDigest (m : MssState) (i : Nat) (d : Digest) : MssState :=
  { m with digests := tput Digest.empty m.digests i d }

/-- HASH_COMPLETE: the inputs and outputs of a run are hashed; a record to be signed that finds 256 waiting is not (R480). -/
def execHashComplete (idx : Reads) (s : State) : Host.Outcome State Fault Refusal :=
  accept (.hashComplete idx) (
    if !s.mss.hashing.contains idx.no then s
    else
      let d := s.mss.digest idx.no
      let s := (s.touch idx.ecc (d.ins ++ d.outs)).1
      let full := d.sign && 256 ≤ s.mss.signing.length
      let d := { d with state := 2, inp := s.hbm.digestOf d.ins, outp := s.hbm.digestOf d.outs, skip := full }
      let m := s.mss.setDigest idx.no d
      { s with mss := { m with
        hashing := m.hashing.filter fun i => i ≠ idx.no
        signing := if d.sign && !full then m.signing ++ [idx.no] else m.signing } })

/-- DIGEST_SIGN: the first record that waits is signed, its STATE taken as 0. -/
def execDigestSign (idx : Nat) (s : State) : Host.Outcome State Fault Refusal :=
  accept (.digestSign idx) (
    if s.mss.signing.head? ≠ some idx || s.mss.restart || !s.mss.up then s
    else
      let d := s.mss.digest idx
      let d := { d with state := 3, sig := Config.deviceSign (s.digestHead d 0) }
      { s with mss := { s.mss.setDigest idx d with signing := s.mss.signing.drop 1 } })

/-! ### QUERY (14 R449) -/

/-- Subject DEVICE. -/
def State.queryDevice (s : State) : List Byte :=
  [devIdWord, s.host.fwVer.toNat, s.host.trVer.toNat, devCap0, devCap1, s.host.devState, s.host.cpStatus, 0].flatMap fun w =>
    leBytes w 4

/-- Subject JOB. -/
def Job.query (j : Job) : List Byte :=
  leBytes j.word 4 ++ leBytes 0 4 ++ leBytes j.runs.toNat 8 ++ leBytes j.lastStretch.toNat 8 ++ leBytes j.lastEnd.toNat 8

/-- Subject CONTEXT: the credit is that of a scheduled context, of all its members. -/
def SCtx.query (x : SCtx) : List Byte :=
  leBytes x.state 1 ++ leBytes (if x.state = 0 then 0 else x.cls) 1 ++ leBytes 0 2
    ++ leBytes (if x.state = 0 then 0 else x.handle) 4 ++ leBytes x.seq.toNat 4
    ++ leBytes (if x.state ≠ 0 && x.cls = 0 then (x.members.map (·.credit)).sum else 0) 4

/-- Subject RESERVATION. -/
def Resv.query (v : Resv) : List Byte :=
  (upFrom 0 4).flatMap fun h => (upFrom 0 4).flatMap fun w => leBytes (v.word h w) 4

/-- What a QUERY writes. -/
def State.queryBytes (s : State) (subject index : Nat) : List Byte :=
  match subject with
  | 0 => s.queryDevice
  | 1 => (s.job index).query
  | 2 => (tget SCtx.closed (s.core (bits index 0 8)).ms.ctx (bits index 8 12)).query
  | 3 => (s.queue index).query
  | 4 => (tget Resv.free s.hbm.resv index).query
  | _ => s.digestBytes (s.mss.digest index)

/-- QUERY. -/
def execQuery (id : Nat) (s : State) : Host.Outcome State Fault Refusal :=
  accept (.query id) (s.runCmd id 0x0E fun c =>
    let d := s.queryBytes c.p.p0.toNat c.p.p1.toNat
    (s.result c.p.p2 d).finish id .ok d.length)

/-! ### FAULTS (16 R486) -/

/-- The records of the log, oldest first. -/
def Faults.oldest (f : Faults) : List (Nat × FRec) :=
  ((f.log.filter fun x => f.head ≤ x.1) ++ f.log.filter fun x => x.1 < f.head).filterMap fun (x : Nat × Option FRec) =>
    x.2.map fun r => (x.1, r)

/-- Records are acknowledged. -/
def Faults.acknowledge (f : Faults) (l : List Nat) : Faults :=
  { f with log := f.log.map fun (x : Nat × Option FRec) =>
    if l.contains x.1 then (x.1, x.2.map fun (r : FRec) => { r with ack := true }) else x }

/-- FAULTS. -/
def execFaults (id : Nat) (s : State) : Host.Outcome State Fault Refusal :=
  accept (.faults id) (s.runCmd id 0x0F fun c =>
    let l := (s.fl.oldest.filter fun x => !x.2.ack).take c.p.p2.toNat
    let s := s.result c.p.p1 (l.flatMap fun x => x.2.bytes)
    let s := if c.p.p0.getLsbD 0 then { s with fl := s.fl.acknowledge (l.map (·.1)) } else s
    s.finish id .ok l.length)

end Sys2Proof.Machine
end

