-- ==== Sys2Proof/Machine/Capture.lean ====
section
/-!
DEFINITION. Captures: the capture region of HBM, CAPTURE TAKE and READ, the end of a capture, the release of a held one, and
the watchdog limit (16 R488, R492 to R494, R503; 08 R224).
-/

namespace Sys2Proof.Machine

open Sys2Proof

/-- The capture region (08 R224). -/
def capBase : Nat := 0x011F50000000

/-- STOP of a core section (16 R494). -/
def Core.stopCode (c : Core) : Nat :=
  match c.rn.stop with
  | .own => 1
  | .job => 2
  | .deadline => 4
  | .no => if c.rn.mode = 0 && c.rn.after.isNone && c.ms.handler.isNone then 3 else 0

/-- Job slot and run index of a core; slot 0xFF where it holds no run (DEDUCED). -/
def Core.jobRun (c : Core) : Nat :=
  let x := c.ctx c.rn.ctx
  if x.used then fld x.job 0 8 + fld x.run 8 56 else 0xFF

/-- A slot's 256 bytes: its descriptor, then STAT, HEAD, TAIL and REQ. -/
def Core.slotBytes (c : Core) (e : Dma) (n : Nat) : List Byte :=
  padTo 256 (padTo 128 (c.slot e n).desc ++ (upFrom 0 4).flatMap fun w => leBytes (c.slotWord e n w) 4)

/-- A reader context: handle, HEAD and TAIL of its queue. -/
def State.readerBytes (s : State) (qid : Nat) : List Byte :=
  let q := s.queue qid
  leBytes (fld s.fab.devId 20 12 + qid) 4 ++ leBytes q.head 4 ++ leBytes q.tail 4 ++ leBytes 0 4

/-- The poison marks of a V register. -/
def markBytes (l : List Lane) : List Byte :=
  leBytes (l.zipIdx.map fun x => if x.1.p then 2 ^ x.2 else 0).sum 32

/-- The parts of the section of core `k`, each with its offset. -/
def State.coreSection (s : State) (k : Nat) : List (Nat × List Byte) :=
  let c := s.core k
  let word := fun (n v : Nat) => leBytes v n
  [(0x0, word 4 (fld c.stopCode 0 8 + fld (s.phys k) 8 8)), (0x8, word 8 c.jobRun),
    (0x10, word 8 c.ccStatus ++ word 8 c.rn.runCcyc.toNat ++ word 8 c.rn.holdCcyc.toNat ++ word 8 c.mxStatus),
    (0x30, (upFrom 0 8).flatMap fun t => word 4 (c.mxAnchor t)),
    (0x50, word 4 (flagsWord c.vx.flags) ++ word 4 c.dmaStatus ++ word 4 (s.msStatus k) ++ word 4 c.tlStatus),
    (0x100, (upFrom 0 6).flatMap fun e => word 8 (tget 0 c.tl.wait e).toNat),
    (0x200, (upFrom 0 128).flatMap fun i => word 4 (c.tally false i).toNat),
    (0x400, (upFrom 0 256).flatMap fun i => word 4 (c.tally true i).toNat),
    (0x800, (upFrom 0 64).flatMap fun i => word 8 (tget ⟨0, false⟩ c.regs.s i).v.toNat),
    (0xA00, (upFrom 0 32).flatMap fun i => word 8 (tget ⟨0, false⟩ c.regs.a i).v.toNat),
    (0xB00, (upFrom 0 8).flatMap fun i => word 1 (b2n (tget ⟨false, false⟩ c.regs.p i).v)),
    (0x1000, (upFrom 0 16).flatMap fun n => c.slotBytes .inbound n),
    (0x2000, (upFrom 0 16).flatMap fun n => c.slotBytes .outbound n),
    (0x3000, (upFrom 0 256).flatMap fun n => (upFrom 0 4).flatMap fun w => word 4 (c.lwWord n w)),
    (0x4000, (upFrom 0 4096).flatMap fun x => (tget SCtx.closed c.ms.ctx x).query),
    (0x14000, c.ms.readers.flatMap fun q => s.readerBytes q),
    (0x20000, (upFrom 0 64).flatMap fun r => (lanesOf c.regs.v r).flatMap fun l => word 4 l.v.toNat),
    (0x30000, (upFrom 0 64).flatMap fun r => markBytes (lanesOf c.regs.v r))]

/-- Requests of this device's cores that await service at hub `h` (08 R250). -/
def State.hubPending (s : State) (h : Nat) : List Request :=
  let mine := fun (r : Request) => r.src.core < 128 && !r.src.fabric && r.dpa < 0x012000000000 && hubOf (pcOf r.dpa) = h
  let way := s.plane.filterMap fun (x : Nat × Option Msg) => match x.2 with
    | some (.hub r) => some r
    | _ => none
  let sched := s.hbm.resv.flatMap fun x => x.2.queues.flatMap fun q => q.2
  let elas := s.hbm.el.flatMap fun x => x.2.reqs.map fun e => e.req
  (way ++ sched ++ elas).filter mine

/-- How many requests are reads, writes and atomics. -/
def reqCounts (l : List Request) : List Nat :=
  [(l.filter fun r => match r.req with | .read _ => true | _ => false).length,
    (l.filter fun r => match r.req with | .write .. => true | _ => false).length,
    (l.filter fun r => match r.req with | .atom _ => true | _ => false).length]

/-- The section of hub `h`. -/
def State.hubSection (s : State) (h : Nat) : List Byte :=
  let x := s.hub h
  ([x.status, x.comb.length, x.combRes] ++ reqCounts (s.hubPending h)).flatMap fun w => leBytes w 4

/-- The header. -/
def State.capHeader (s : State) (cons : Bool) : List (Nat × List Byte) :=
  let f := s.fl
  let map := (f.capCores.map fun k => 2 ^ k).sum
  [(0x0, leBytes 1 4 ++ leBytes (fld f.capT 0 2 + fld (b2n cons) 2 1) 4 ++ leBytes f.capTbt.toNat 8
      ++ leBytes s.clk.tbt.toNat 8 ++ leBytes (fld f.capIdx 0 16) 4 ++ leBytes s.host.devState 4 ++ leBytes map 16),
    (0x100, (upFrom 0 64).flatMap fun j => leBytes (s.job j).word 4)]

/-- The parts of the whole region. -/
def State.capParts (s : State) (cons : Bool) : List (Nat × List Byte) :=
  s.capHeader cons ++ ((upFrom 0 4).map fun h => (0x1000 + 0x400 * h, s.hubSection h))
    ++ (s.fl.log.filterMap fun (x : Nat × Option FRec) => x.2.map fun r => (0x10000 + 64 * x.1, r.bytes))
    ++ s.fl.capCores.flatMap fun k =>
      (s.coreSection k).map fun p => (0x100000 + 0x80000 * k + p.1, p.2)

/-- Whether a key lies in the region, `unit` bytes a key. -/
def inCapture (unit k : Nat) : Bool := capBase ≤ k * unit && k * unit < capBase + captureSize

/-- The region holds these parts, and 0 elsewhere, without poison. -/
def Hbm.putCapture (h : Hbm) (parts : List (Nat × List Byte)) : Hbm :=
  { h with
    mem := parts.foldl (fun (m : SMap Byte) p => writeBytes m (capBase + p.1) p.2) (tdrop (inCapture 1) h.mem)
    pois := tdrop (inCapture 64) h.pois }

/-- Whether every captured core has stopped or is idle (R493). -/
def State.capConsistent (s : State) : Bool := s.fl.capCores.all fun k => (s.core k).stopCode ≠ 0

/-- A capture begins, over the region that holds an earlier one (R492). -/
def State.beginCapture (s : State) (trigger : Nat) (cores : List Nat) (cmd : Option Nat) : State :=
  { s with fl := { s.fl with
    capB := true, capL := false, capT := trigger, capTbt := s.clk.tbt, capCores := cores, capCmd := cmd, capIdx := 0xFFFF } }

/-- A capture ends: the region holds it, and a fault's is held. -/
def State.endCapture (s : State) : State :=
  let cons := s.capConsistent
  let cmd := s.fl.capCmd
  let s := { s with
    hbm := s.hbm.putCapture (s.capParts cons)
    fl := { s.fl with capB := false, capV := true, capC := cons, capL := s.fl.capT = 1, capCmd := none }
    hc := { s.hc with locks := s.hc.locks || s.fl.capT = 1 } }
  match cmd with
  | some id => s.finish id .ok 0
  | none => s

/-- The cores of the map of a TAKE. -/
def Cmd.capMap (c : Cmd) : List Nat :=
  (upFrom 0 128).filter fun k => if k < 64 then c.p.p1.getLsbD k else c.p.p2.getLsbD (k - 64)

/-- CAPTURE_TAKE: it waits while a capture is being taken. -/
def execCaptureTake (id : Nat) (s : State) : Host.Outcome State Fault Refusal :=
  accept (.captureTake id) (
    s.perform1 id 0x10 (fun c => !c.p.p0.getLsbD 0) (fun _ => none) fun c =>
      if s.fl.capB then s else (s.await id).beginCapture 2 c.capMap (some id))

/-- CAPTURE_READ: reading leaves the region and LOCKED unchanged. -/
def execCaptureRead (id : Reads) (s : State) : Host.Outcome State Fault Refusal :=
  accept (.captureRead id) (
    s.perform1 id.no 0x10 (fun c => c.p.p0.getLsbD 0) (fun _ => none) fun c =>
      let n := c.p.p3.toNat
      let r := s.touch id.ecc [(capBase + c.p.p1.toNat, n)]
      if r.2 then r.1.noRecord id.no .epoison
      else (r.1.result c.p.p2 (s.hbm.bytes (capBase + c.p.p1.toNat) n)).finish id.no .ok n)

/-- CAPTURE_DONE. -/
def execCaptureDone (s : State) : Host.Outcome State Fault Refusal :=
  accept .captureDone (if s.fl.capB then s.endCapture else s)

/-- A write of CAP_STATUS: a 1 releases a held capture. -/
def State.writeCapStatus (s : State) (v : W32) (same : Bool) : State :=
  let (s, v) := s.defined 0x3F v
  if v.getLsbD 1 && !(same && s.hc.locks) then { s with fl := { s.fl with capL := false } } else s

/-- CAP_LOCK_RELEASE. -/
def execCapLockRelease (v : Clearing) (s : State) : Host.Outcome State Fault Refusal :=
  accept (.capLockRelease v) (s.writeCapStatus v.v v.same)

/-- WD_LIMIT as a write stores it (R488). -/
def wdStored (v : Nat) : Nat := if v = 0 then 0 else clamp 10 4000000 v

/-- A write of WD_LIMIT. -/
def State.writeWdLimit (s : State) (v : W32) : State := { s with cfg := { s.cfg with wdLimit := wdStored v.toNat } }

/-- WD_LIMIT_WRITE. -/
def execWdLimitWrite (v : W32) (s : State) : Host.Outcome State Fault Refusal :=
  accept (.wdLimitWrite v) (s.writeWdLimit v)

end Sys2Proof.Machine
end

