-- ==== Sys2Proof/Machine/Dma.lean ====
section
/-!
DEFINITION. The stream engines: DLOAD, DBASE, DGO, DATOM, and the issue and completion of requests and fills (09; 06 R198,
R199).
-/

namespace Sys2Proof.Machine

open Sys2Proof

/-! ### Slots (06 R198, R199, 09 R254) -/

/-- A DMA_ERR of an operation on a slot: the slot and its transfer are unchanged (06 R199). -/
def Core.slotErr (c : Core) (e : Dma) (kvi slot cause : Nat) : Core :=
  c.dmaErr c.rn.ctx e.engine kvi (dmaSpec0 cause (e = .outbound) slot false 0 0 0) 0

/-- What R199 finds wrong with an operation on a slot: DLOAD may name an IDLE slot. -/
def slotCause (x : Slot) (load : Bool) : Option Nat :=
  if x.state = 2 then some 0x01
  else if x.state = 3 then some 0x07
  else if x.state = 0 && !load then some 0x02
  else none

/-- A command that runs a word of a stream engine on a slot. -/
def State.slotOn (s : State) (x : Issue) (e : Dma) (slot : BitVec 4) (load : Bool) (f : Env → Nat → Slot → Core → Core) :
    State :=
  s.issueOn x e.engine false fun env c =>
    let kvi := c.kvi e.engine x.word
    match slotCause (c.slot e slot.toNat) load with
    | some cause => c.slotErr e kvi slot.toNat cause
    | none => f env kvi (c.slot e slot.toNat) c

/-- DLOAD: the template of the run's buffer set (15 R464). -/
def execDload (x : Issue) (e : Dma) (slot : BitVec 4) (tmpl : BitVec 16) (s : State) : Host.Outcome State Fault Refusal :=
  accept (.dload x e slot tmpl) (s.slotOn x e slot true fun env _ sl c =>
    match env.img.descs[tmpl.toNat]? with
    | none => c
    | some copies =>
      c.setSlot e slot.toNat { sl with state := 1, desc := copies.getD env.set (copies.getD 0 []), gated := false })

/-- The start address of a side, in the descriptor as held. -/
def setStart (d : List Byte) (dst : Bool) (v : Nat) : List Byte :=
  let o := if dst then 8 else 0
  d.take o ++ leBytes v 8 ++ d.drop (o + 8)

/-- DBASE. -/
def execDbase (x : Issue) (e : Dma) (slot : BitVec 4) (dst : Bool) (sr : BitVec 6) (add : Bool) (s : State) :
    Host.Outcome State Fault Refusal :=
  accept (.dbase x e slot dst sr add) (s.slotOn x e slot false fun env kvi sl c =>
    let (c, v) := c.readS env e.engine kvi sr.toNat
    let c := c.usePoison e.engine kvi 1 [(0, sr.toNat, v.p)]
    let old := if dst then dDst sl.desc else dSrc sl.desc
    let new := if add then (old + v.v.toNat) % 2 ^ 64 else v.v.toNat
    c.setSlot e slot.toNat { sl with desc := setStart sl.desc dst new })

/-- DGO (09 R254, R261, R264): a SCHED descriptor starts in scheduled blocks only. -/
def execDgo (x : Issue) (e : Dma) (slot : BitVec 4) (r : Raise) (inc : W32) (s : State) : Host.Outcome State Fault Refusal :=
  accept (.dgo x e slot r inc) (s.slotOn x e slot false fun _ kvi sl c =>
    if dSched sl.desc && c.rn.mode ≠ 1 then c
    else if !dSched sl.desc && c.rn.mode = 1 && c.rn.det then c
    else
      c.setSlot e slot.toNat { sl with
        state := 2, rctx := c.rn.ctx, gated := false, head := 0, tail := 0, req := 0, at0 := c.tm.p
        raise := r.ten, tally := r.tally.toNat, inc := inc, pos := 0, rix := 0, fault := false, kvi := kvi
        mark := c.ids })

/-! ### Requests of one engine to overlapping addresses (10 R296) -/

/-- The memory that a remote range touches: device, and its first and last 2 KiB granule of HBM or 256-byte line. -/
def targetSpan (env : Env) (ra len : Nat) : Nat × Bool × Nat × Nat :=
  let dev := if bits ra 60 4 = 8 then bits ra 48 12 else env.dev
  let dpa := ra % 2 ^ 48
  if dpa < hbmEnd then (dev, true, dpa / 2048, (dpa + len - 1) / 2048) else (dev, false, dpa / 256, (dpa + len - 1) / 256)

/-- Whether an earlier request of the engine, outstanding by another route, overlaps: a SCHED one, or a DATOM that still
waits. -/
def Core.overlapped (c : Core) (env : Env) (e : Dma) (ra len : Nat) : Bool :=
  let x := targetSpan env ra len
  c.dm.txns.any fun t =>
    ((if e = .outbound then t.out || t.datom else !t.out && !t.datom) && (t.sched || !t.sent))
      && (let y := targetSpan env t.addr t.bytes
        x.1 = y.1 && x.2.1 = y.2.1 && x.2.2.1 ≤ y.2.2.2 && y.2.2.1 ≤ x.2.2.2)

/-! ### DATOM (06 R198, 10 R304) -/

/-- A DATOM leaves the core. -/
def Core.sendAtom (c : Core) (env : Env) (t : Txn) (op : AtomOp) : Core :=
  let c := c.setTxn { t with sent := true }
  match remotePlace env t.addr with
  | .hbm dpa => c.send (.hub ⟨dpa, .atom op, false, none, 0, env.source, [], .core env.core t.id⟩)
  | .scr core addr =>
    c.send (.remote core ⟨scrDpa core addr, .atom op, false, none, 0, env.source, [], .core env.core t.id⟩)
  | .fabric a =>
    let h := fabHeader env a 0x04 1 16 0 false 0 op.p
    c.send (.fabric { h with aop := op.aop, w8 := op.w8, sgn := op.sgn }
      (leBytes op.b.toNat 8 ++ leBytes op.c.toNat 8) false (.core env.core t.id))
  | .bad _ => c

/-- The DATOMs that wait leave in order while the share of elastic transactions has room and no earlier request overlaps
(09 R265, 10 R296). -/
def Core.sendWaiting (c : Core) (env : Env) : Core :=
  (c.dm.txns.filter fun t => t.datom && !t.sent).foldl (fun (c : Core) t =>
    match t.atom with
    | none => c
    | some op =>
      let before := { c with dm := { c.dm with txns := c.dm.txns.filter fun u => u.id < t.id } }
      if c.elasOut < 512 && !before.overlapped env .outbound t.addr t.bytes then c.sendAtom env t op else c) c

/-- The ADDR cause of a DATOM. -/
def datomCause (env : Env) (f : DatomFields) (a : Nat) : Option Nat :=
  if scopeCode f.scope < 2 then some 6
  else
    match remotePlace env a with
    | .bad 5 => some 6
    | .bad k => some k
    | _ => if a % (if f.w8 then 8 else 4) ≠ 0 then some 4 else none

def execDatom (x : Issue) (f : DatomFields) (s : State) : Host.Outcome State Fault Refusal :=
  accept (.datom x f) (s.issueOn x .dma1 false fun env c =>
    let kvi := c.kvi .dma1 x.word
    let (c, a) := c.readS env .dma1 kvi f.sa.toNat
    let (c, b) := c.readS env .dma1 kvi f.sb.toNat
    let (c, k) := if f.aop = 4 then c.readS env .dma1 kvi f.sc.toNat else (c, SVal.mk 0 false)
    let c := if a.p then c.usePoison .dma1 kvi 1 [(0, f.sa.toNat, true)]
      else c.usePoison .dma1 kvi 0 [(0, f.sb.toNat, b.p), (0, f.sc.toNat, k.p)]
    match datomCause env f a.v.toNat with
    | some cause => c.addrFault .dma1 kvi a.v.toNat cause 2
    | none =>
      let t : Txn :=
        { id := c.ids, out := false, slot := 0, fill := 0, req := 0, sched := false, datom := true, left := 1, own := 1
          unpl := 1, cslot := 0, bytes := if f.w8 then 8 else 4, addr := a.v.toNat, lcl := 256 * f.rline.toNat, rctx := c.rn.ctx, dead := false
          raise := f.ten, tally := f.tally.toNat, kvi := kvi, atom := some ⟨f.w8, f.aop, f.sgn, b.v, k.v, a.p || b.p || k.p⟩
          sent := false, buf := [], bad := false, ecc := [], walk := none }
      (c.openTxn t).sendWaiting env)

/-! ### Requests (09 R259 to R272) -/

/-- Members of a multicast group (09 R283). -/
def groupMembers (env : Env) (g : Nat) : List Nat :=
  (upFrom 0 128).filter fun k => (tget 0 env.mcg g).getLsbD k

/-- What is wrong with a request of a transfer: a DMA_ERR cause and its PC field (09 R257, R274; 13 R417). -/
def requestCause (env : Env) (d : List Byte) (r : Remote) : Option (Nat × Nat) :=
  -- a request over the fabric names no pseudo-channel
  match r with
  | .hbm _ => none
  | .scr _ _ => if dMcast d then some (0x03, 0) else none
  | .fabric _ =>
    if dMcast d then some (0x03, 0)
    else if !dSched d then none
    else
      let ci := tget Circ.none env.circ (dCirc d)
      if !(ci.valid && ci.origin && ci.core = env.core) then some (0x03, 0)
      else
        let f := tget FCal.free (tget Port.reset env.ports ci.out).cal (dCslot d)
        if f.res && f.circ = dCirc d then none else some (0x10, 0x3FF)
  | .bad _ => none

/-- Whether a ring's gate lets fill `k` start (09 R271): the tally it waits for. -/
def gateNeed (d : List Byte) (out : Bool) (k : Nat) : Nat := if out then k + 1 else k + 1 - dRslots d

def Core.gateOk (c : Core) (d : List Byte) (out : Bool) (k : Nat) : Bool :=
  !dRing d || gateNeed d out k ≤ (c.seenTally false (dGate d)).toNat

/-- A request issues: its transaction, and what leaves the core or is read for it. -/
def Core.request (c : Core) (env : Env) (e : Dma) (slot : Nat) (sl : Slot) (ecc : List EccObs) : Core :=
  let d := sl.desc
  let out := e = .outbound
  let (r, ra, la, len) := nextRequest env d out sl.pos
  if la + len > scrBytes then c.slotAddr e slot sl.kvi la 3
  else
    match r with
    | .bad cause => c.slotAddr e slot sl.kvi ra cause
    | r =>
      match requestCause env d r with
      | some (cause, pc) => c.slotFault e slot sl.kvi cause pc (dCslot d) sl.req ra
      | none =>
        if dSched d && 1536 ≤ c.schedOut then c.slotFault e slot sl.kvi 0x12 0 (dCslot d) sl.req ra
        else if !dSched d && (512 ≤ c.elasOut || c.overlapped env e ra len) then c
        else
          let members := if dMcast d then groupMembers env (dMcg d) else []
          let own := if out then 0 else match r with
            | .hbm dpa => blocks256 dpa len
            | _ => 1
          let t : Txn :=
            { id := c.ids, out := out, slot := slot, fill := sl.pos / dFill d, req := sl.req, sched := dSched d
              datom := false, left := if out then 1 else readLeft env d r len members, own := own, unpl := own
              cslot := dCslot d, bytes := len
              addr := ra, lcl := la, rctx := sl.rctx, dead := false, raise := false, tally := 0, kvi := sl.kvi
              atom := none, sent := true, buf := [], bad := false, ecc := ecc
              walk := if dCoincide d then some ⟨env.core, out, slot, sl.mark, sl.req⟩ else none }
          let c := c.setSlot e slot { sl with
            pos := sl.pos + len, req := sl.req + 1, gated := false
            rix := if (sl.pos + len) % dFill d = 0 then 0 else sl.rix + 1
            head := if sl.rix = 0 then sl.head + 1 else sl.head }
          let c := c.openTxn t
          if !out then c.sendRead env d r la len t.id (dSched d) members
          else if dSched d then c.dmaLine env t.id 0
          else c

/-- A fill whose gate does not hold: a SCHED transfer holds the core from this ccyc on, an ELASTIC one waits (09 R271). -/
def Core.gateWait (c : Core) (e : Dma) (slot : Nat) (sl : Slot) : Core :=
  let c := c.setSlot e slot { sl with gated := true }
  if !dSched sl.desc then c
  else
    let n := gateNeed sl.desc (e = .outbound) (sl.pos / dFill sl.desc)
    let v := (c.seenTally false (dGate sl.desc)).toNat
    let c := c.orWait e.engine (.gate (dGate sl.desc) (BitVec.ofNat 32 n) slot) sl.kvi
      (tallySpec0 false (dGate sl.desc) true slot v) n (tmoOf (dTmo sl.desc))
    if c.rn.hold.isSome then { c with rn := { c.rn with replay := true } } else c

/-- DMA_REQUEST_ISSUE (09 R261 to R265, R271): a SCHED request in its own ccyc, an ELASTIC one in any. -/
def execDmaRequestIssue (c delta : Nat) (e : Dma) (slot : BitVec 4) (ecc : List EccObs) (s : State) :
    Host.Outcome State Fault Refusal :=
  accept (.dmaRequestIssue c delta e slot ecc) (s.onCore c fun env k =>
    let k := k.comeToKey env delta (engKey e.engine false + 16)
    let sl := k.slot e slot.toNat
    let d := sl.desc
    let due := sl.at0 + 4 + sl.pos / dFill d * dFpace d + sl.rix * dPace d
    let going := k.rn.stop = .no || k.tm.now ≤ k.rn.stopAt
    if !sl.unissued || sl.fault || !going || (dSched d && (k.held || k.tm.p ≠ due)) then k
    else
      let k := { k with ck := { k.ck with seen := tput 0 k.ck.seen (engKey e.engine false + 16) (k.tm.now + 1) } }
      if sl.rix = 0 && !k.gateOk d (e = .outbound) (sl.pos / dFill d) then k.gateWait e slot.toNat sl
      else k.request env e slot.toNat sl ecc)

/-! ### Completion (09 R266, R267, R279) -/

/-- The DMA_ERR cause of an answer's status. -/
def answerCause (a : Answer) : Option Nat :=
  match a.status with
  | .ok => none
  | .delayed => none
  | .eaperture => some 0x04
  | .eresetTarget => some 0x05
  | _ => some (if a.cause = 0 then 0x06 else a.cause)

/-- A request or DATOM ended in an error: DMA_ERR with the slot that the request carried, its transfer's slot to ERROR (09 R279,
R280). The pseudo-channel stands with the causes of the calendars only. -/
def Core.txnError (c : Core) (t : Txn) (a : Answer) (cause : Nat) : Core :=
  let pc := if cause = 0x10 || cause = 0x11 then a.pc else 0
  if t.datom then
    c.dmaErr t.rctx .dma1 t.kvi (dmaSpec0 cause true 0 true pc t.cslot t.req) t.addr
  else
    let e : Dma := if t.out then .outbound else .inbound
    c.slotFault e t.slot t.kvi cause pc t.cslot t.req t.addr

/-- An answer of one piece reaches the core. A request that ends in an error counts no bytes (09 R282). -/
def Core.answered (c : Core) (t : Txn) (a : Answer) : Core :=
  let c := c.setTxn { t with left := t.left - 1 }
  match answerCause a with
  | none => c
  | some cause =>
    let c := c.setTxn { t with left := 0, own := 0, unpl := 0, raise := false, bytes := 0 }
    if t.dead then c else c.txnError t a cause

/-- A transaction whose pieces have all completed is freed. -/
def Core.free (c : Core) (env : Env) (id : Nat) : Core :=
  match c.txn id with
  | none => c
  | some t =>
    if t.left ≠ 0 then c
    else
      let c := { c with dm := { c.dm with
        txns := c.dm.txns.filter fun u => u.id ≠ id
        bytesOut := if t.out then c.dm.bytesOut + BitVec.ofNat 64 t.bytes else c.dm.bytesOut } }
      c.sendWaiting env

/-- The first answer under way for a transaction of a core. -/
def findAnswer (c txn : Nat) : SMap (Option Msg) → Option (Nat × Answer)
  | [] => none
  | (id, some (.answer k a)) :: t => if k = c && a.txn = txn then some (id, a) else findAnswer c txn t
  | _ :: t => findAnswer c txn t

/-- DMA_REQUEST_COMPLETE (09 R267): an answer arrives, or the last landing has become visible. -/
def execDmaRequestComplete (c delta txn : Nat) (s : State) : Host.Outcome State Fault Refusal :=
  accept (.dmaRequestComplete c delta txn) (
    if s.gated then s else
    let found := findAnswer c txn s.plane
    let s := match found with
      | some x => s.take x.1
      | none => s
    s.onCore c fun env k =>
      let k := k.comeTo env delta
      match k.txn txn with
      | none => k
      | some t =>
        let k := match found with
          | some x => k.answered t x.2
          | none => k
        k.free env txn)

/-- Whether the oldest fill under way has completed: all its requests issued and completed. -/
def Core.fillDone (c : Core) (e : Dma) (slot : Nat) : Bool :=
  let sl := c.slot e slot
  sl.state = 2 && sl.tail < sl.head && (sl.tail + 1) * dFill sl.desc ≤ sl.pos
    && !(c.dm.txns.any fun t => !t.datom && t.out = (e = .outbound) && t.slot = slot && t.fill = sl.tail)

/-- FILL_COMPLETE (09 R266, R272). -/
def execFillComplete (c delta : Nat) (e : Dma) (slot : BitVec 4) (s : State) : Host.Outcome State Fault Refusal :=
  accept (.fillComplete c delta e slot) (s.onCore c fun env k =>
    let k := k.comeTo env delta
    if !k.fillDone e slot.toNat then k
    else
      let sl := k.slot e slot.toNat
      let last := sl.tail + 1 = dFills sl.desc
      let k := k.setSlot e slot.toNat { sl with tail := sl.tail + 1, state := if last then 1 else 2 }
      if sl.raise && !sl.fault then k.complete e.engine sl.tally sl.inc else k)

end Sys2Proof.Machine
end

