-- ==== Sys2Proof/Machine/Mss.lean ====
section
/-!
DEFINITION. The MSS beside its messages: sensors and power, throttle and power cap, the ledger in flash, the copies of pending marks,
and its registers (17 R506 to R518, R526, R527; 16 R500; 03 R105; 08 R253; 18 R535).
-/

namespace Sys2Proof.Machine

open Sys2Proof

/-- Whether MSS firmware runs, and no restart is under way. -/
def MssState.awake (m : MssState) : Bool := m.up && !m.restart

/-! ### Sensors (R508, R509) -/

/-- T_THR and T_CRIT of a sensor. -/
def sensorThr (n : Nat) : Int := if 144 ≤ n && n < 152 then 105 else 100
def sensorCrit (n : Nat) : Int := if n < 144 then 110 else if n < 152 then 115 else 105

/-- The sensors of the die that sensor `n` is on: its first, and how many. -/
def sensorDie (n : Nat) : Nat × Nat :=
  if n < 136 then (0, 136)
  else if n < 140 then (136, 4)
  else if n < 144 then (140, 4)
  else (144 + (n - 144) / 2 * 2, 2)

/-- A reading that is valid. -/
def validTemp (t : Option Int) : Option Int := t.filter fun x => -40 ≤ x && x ≤ 150

end Sys2Proof.Machine

namespace Sys2Proof

open Sys2Proof.Machine

/-- What sensor `n` reports, if it is valid. -/
def Sample.temp (x : Sample) (n : Nat) : Option Int := validTemp (x.temps.getD n none)


/-- The highest of readings. -/
def highest : List Int → Option Int
  | [] => none
  | a :: t => some (t.foldl max a)

/-- What sensor `n` reads: an invalid one of a die reads as the die's highest valid reading plus 5; where none is valid, and for an
HBM sensor, the spec gives no reading: a free one. -/
def Sample.reading (x : Sample) (fc n : Nat) : Int :=
  match x.temp n with
  | some t => t
  | none =>
    let free : Int := ((Config.free32 (fc + n)).toNat % 512 : Nat) - 256
    if 152 ≤ n then free
    else
      let d := sensorDie n
      match highest ((upFrom d.1 d.2).filterMap x.temp) with
      | some t => t + 5
      | none => free

end Sys2Proof

namespace Sys2Proof.Machine

open Sys2Proof

/-- MG_SENSORn. -/
def sensorWord (n : Nat) (valid : Bool) (t : Int) : W32 :=
  BitVec.ofNat 32 (wrapInt t 9 + fld (b2n valid) 9 1 + fld (b2n (decide (sensorThr n ≤ t))) 10 1
    + fld (b2n (decide (sensorCrit n ≤ t))) 11 1)

/-- The sensor, among `n` from `a`, that reads highest: the first of those. -/
def hottest (r : Nat → Int) (a : Nat) : Nat → Nat
  | 0 => a
  | n + 1 =>
    let m := hottest r a n
    if r m < r (a + n) then a + n else m

/-- MG_TMAX. -/
def tmaxWord (r : Nat → Int) : W32 :=
  let n := hottest r 0 152
  BitVec.ofNat 32 (wrapInt (r n) 8 + fld n 8 8 + fld (wrapInt (r (hottest r 152 12)) 8) 16 8)

/-- A sensor that has become invalid is entered in the ledger. -/
def State.lostSensor (s : State) (n : Nat) : State := (s.ledger 0x000A (leBytes n 1)).alert 4

/-- HB_TEMP and THERM_LIMIT of hub `h`: a stack whose sensors are lost counts as above 105 °C (08 R253). -/
def State.hubTemp (s : State) (x : Sample) (r : Nat → Int) (h : Nat) : State :=
  let a := 152 + 3 * h
  let n := hottest r a 3
  let lost := (upFrom a 3).any fun k => (x.temp k).isNone
  s.modHub h fun (y : Hub) =>
    { y with temp := wrapInt (r n) 8, tempStk := n - a, therm := lost || decide (105 < r n) }

/-! ### Rails (R510; 18 R535) -/

/-- MG_RAILr of a sample: millivolts, 0.1 A, 0.1 W, and the out-of-range bit. -/
def railWord (x : Nat × Nat × Nat × Bool) : W64 :=
  BitVec.ofNat 64 (fld x.1 0 16 + fld x.2.1 16 16 + fld x.2.2.1 32 16 + fld (b2n x.2.2.2) 48 1)

/-- The registers of a sample. -/
def State.sampleRegs (s : State) (x : Sample) : State :=
  let r := x.reading s.freeCtr
  let was := fun (n : Nat) => (tget 0 s.mss.sensors n).getLsbD 9 || s.mss.sensors.isEmpty
  let gone := (upFrom 0 164).filter fun n => (x.temp n).isNone && was n
  let out := (upFrom 0 22).any fun k => (x.rails.getD k (0, 0, 0, false)).2.2.2 && !(tget 0 s.mss.rails k).getLsbD 48
  let s := { s with
    freeCtr := s.freeCtr + 164
    mss := { s.mss with
      sensors := (upFrom 0 164).foldl (fun (m : SMap W32) n => tput 0 m n (sensorWord n (x.temp n).isSome (r n))) []
      rails := (upFrom 0 22).foldl (fun (m : SMap W64) k => tput 0 m k (railWord (x.rails.getD k (0, 0, 0, false)))) []
      tmax := tmaxWord r, pwr1 := x.avg1, pwr10 := x.avg10 } }
  let s := gone.foldl State.lostSensor s
  let s := (upFrom 0 4).foldl (fun (s : State) h => s.hubTemp x r h) s
  if out then s.alert 5 else s

/-! ### The actions (R513, R514) -/

/-- Whether the limits for a return of the throttle hold: the 1 ms average at most 90 % of the cap, every sensor 5 °C below T_THR. -/
def State.calm (s : State) (r : Nat → Int) : Bool :=
  s.mss.pwr1 * 10 ≤ 9 * capWatts s.mss.pcapAct && (upFrom 0 164).all fun n => r n + 5 ≤ sensorThr n

/-- One point slower, at most once in a millisecond. -/
def State.slower (s : State) (sensor value : Nat) : State :=
  let free := match s.mss.lastThr with
    | some t => t + 4000000 ≤ s.clk.tbt.toNat
    | none => true
  let n := min 4 (s.targetOp + 1)
  if !free || s.targetOp = 4 then s else s.throttleStep sensor value n

/-- What a sample calls for. -/
def State.act (s : State) : State :=
  match s.thermalNow with
  | some x =>
    let s := s.thermalAll x
    if s.detArmed || s.critical.isNone || s.targetOp = 4 then s else s.throttleStep (bits x.1 0 8) (bits x.1 8 8) 4
  | none =>
    if s.detArmed then s
    else
      match s.mss.hot 10 with
      | some n => s.slower n (s.thermalSensor n).1
      | none => if s.mss.over1 || s.mss.over10 then s.slower 0xFF s.mss.pwr1 else s

/-- SENSOR_SAMPLE. During an MSS restart the hubs go on reporting (08 R253), and nothing else follows. -/
def execSensorSample (x : Sample) (s : State) : Host.Outcome State Fault Refusal :=
  accept (.sensorSample x) (
    let r := x.reading s.freeCtr
    if s.mss.restart then
      (upFrom 0 4).foldl (fun (s : State) h => s.hubTemp x r h) { s with freeCtr := s.freeCtr + 164 }
    else if !s.mss.awake then s
    else
      let s := (s.sampleRegs x).act
      if s.calm r then s else { s with mss := { s.mss with lastBad := s.clk.tbt.toNat } })

/-- THROTTLE_RETURN: one point faster after 100 ms within the limits, never beyond the host's point. -/
def execThrottleReturn (s : State) : Host.Outcome State Fault Refusal :=
  accept .throttleReturn (
    if !s.mss.awake || s.mss.throttle ≤ s.clk.hostOp || s.clk.tbt.toNat < s.mss.lastBad + 400000000 then s
    else
      let n := s.mss.throttle - 1
      let s := { s with mss := { s.mss with lastBad := s.clk.tbt.toNat } }
      ((s.setThrottle n).ledgerThermal 0xFF s.mss.pwr1 n).alert 2)

/-! ### The power cap (R511, R512) -/

/-- Whether a run of a deterministic job is in progress, or retiring. -/
def State.detRun (s : State) : Bool := s.jobs.any fun x => x.2.det && !x.2.live.isEmpty

/-- A write of MG_PCAP. During a restart the MSS applies no cap, so the code waits. -/
def State.writePcap (s : State) (v : W32) : State :=
  let (s, v) := s.defined 0x1F v
  let code := bits v.toNat 0 5
  if 24 < code then { s with mss := { s.mss with pcapErr := true } }
  else
    let s := { s with cfg := { s.cfg with pcap := code } }
    if s.detRun || !s.mss.awake then { s with mss := { s.mss with pcapErr := false, pcapPend := some code } }
    else { s with mss := { s.mss with pcapErr := false, pcapPend := none, pcapAct := code } }

/-- MG_PCAP_WRITE. -/
def execMgPcapWrite (v : W32) (s : State) : Host.Outcome State Fault Refusal :=
  accept (.mgPcapWrite v) (s.writePcap v)

/-- PCAP_APPLY. -/
def execPcapApply (s : State) : Host.Outcome State Fault Refusal :=
  accept .pcapApply (
    match s.mss.pcapPend with
    | none => s
    | some code =>
      if s.detRun || !s.mss.awake then s
      else { s with mss := { s.mss with pcapPend := none, pcapAct := code } })

/-! ### The ledger in flash (R517, R518) -/

/-- Entries in the ring. -/
def ledgerSize : Nat := 262144

/-- An entry's bytes but its CRC, and all 64. -/
def LEntry.head (e : LEntry) : List Byte :=
  leBytes e.tbt.toNat 8 ++ leBytes e.seq.toNat 4 ++ leBytes e.type 2 ++ leBytes (min 44 e.data.length) 2 ++ padTo 44 e.data
def LEntry.bytes (e : LEntry) : List Byte := e.head ++ leBytes (crc32c e.head).toNat 4

/-- An entry goes to flash. -/
def MssState.flash (m : MssState) (e : LEntry) : MssState :=
  { m with ledger := tput none m.ledger m.ledNext (some e), ledNext := (m.ledNext + 1) % ledgerSize }

/-- LEDGER_FLUSH: the entries held in SRAM, and one that counts those lost. During a restart they wait. -/
def execLedgerFlush (s : State) : Host.Outcome State Fault Refusal :=
  accept .ledgerFlush (
    if !s.mss.awake then s
    else
      let m := s.mss.ledBuf.foldl MssState.flash s.mss
      let m := { m with ledBuf := [] }
      if m.ledLost = 0 then { s with mss := m }
      else
        let e : LEntry := ⟨if s.clk.stepped then s.clk.tbt else 0, m.ledSeq, 0x000C, leBytes m.ledLost 4⟩
        { s with mss := { m.flash e with ledSeq := m.ledSeq + 1, ledLost := 0 } })

/-! ### Pending marks in flash (16 R500; 03 R105) -/

/-- Rods that await disabling: physical core and rod. -/
def State.pendRods (s : State) : List (Nat × Nat) :=
  s.cores.flatMap fun (x : Nat × Core) =>
    ((upFrom 0 132).filter fun r => x.2.mx.rodPend.getLsbD r).map fun r => (s.phys x.1, r)

/-- A list with what it does not hold yet added. -/
def addNew {α : Type} [DecidableEq α] (l : List α) : List α → List α
  | [] => l
  | a :: t => addNew (if l.contains a then l else l ++ [a]) t

/-- REMAP_FLASH_COPY. -/
def execRemapFlashCopy (s : State) : Host.Outcome State Fault Refusal :=
  accept .remapFlashCopy (
    if !s.mss.awake then s
    else { s with mss := { s.mss with
      pendRemapCores := addNew s.mss.pendRemapCores s.fl.pendCore
      pendRemapRods := addNew s.mss.pendRemapRods s.pendRods } })

/-! ### The mailbox block (R526, R527) -/

/-- MG_ALERT bits clear, by a write or by a message; those of `keep` end at 1. -/
def State.clearAlerts (s : State) (v : W32) (keep : BitVec 7) : State :=
  { s with mss := { s.mss with alert := (s.mss.alert &&& ~~~ (v.setWidth 7)) ||| keep } }

/-- The alerts that an event has set in the same hcyc: they end at 1 (00 R13, 17 R527). -/
def State.sameAlerts (s : State) (same : Bool) : BitVec 7 := if same then s.hc.alerts &&& s.mss.alert else 0

/-- A write of MG_ALERT. -/
def State.writeAlert (s : State) (v : W32) (same : Bool) : State :=
  let (s, v) := s.defined 0x7F v
  s.clearAlerts v (s.sameAlerts same)

/-- MG_ALERT_CLEAR. -/
def execMgAlertClear (v : Clearing) (s : State) : Host.Outcome State Fault Refusal :=
  accept (.mgAlertClear v) (s.writeAlert v.v v.same)

/-- A write of MB_CTRL: GO sends the message in MB_REQ, and is ignored while BUSY. A message that comes during a restart is not
answered (R506): the mailbox does not take it. -/
def State.writeMbCtrl (s : State) (v : W32) : State :=
  let (s, v) := s.defined 0x1 v
  if !v.getLsbD 0 || s.mss.mbStatus.getLsbD 0 || !s.mss.awake then s
  else { s with mss := { s.mss with mbStatus := 1, queue := s.mss.queue ++ [.mailbox] } }

/-- MB_GO. -/
def execMbGo (v : W32) (s : State) : Host.Outcome State Fault Refusal := accept (.mbGo v) (s.writeMbCtrl v)

end Sys2Proof.Machine
end

