-- ==== Sys2Proof/Machine/Messages.lean ====
section
/-!
DEFINITION. Management messages: the MSS command, vendor messages, SPDM, PLDM, MCTP control, and the restart of the MSS (17 R504 to
R507, R517 to R525, R527; 14 R448, R456; 16 R502). The spec names the messages and what they do; how their bytes are framed is the
protocols' (notes/assumptions/40.md).
-/

namespace Sys2Proof.Machine

open Sys2Proof

/-! ### Arrival and answer (R506) -/

/-- MSS: the message waits for its turn. During a restart it is not answered. In RECOVERY the boot ROM serves it. -/
def execMss (id : Reads) (msg : List Byte) (s : State) : Host.Outcome State Fault Refusal :=
  accept (.mss id msg) (s.reading id.no 0x14 id.ecc (fun c => [(c.p.p0, bits c.p.p1.toNat 0 16)]) fun s => s.runCmd id.no 0x14 fun _ =>
    if s.mss.restart then s.noRecord id.no .epeerGone
    else { s.await id.no with mss := { s.mss with queue := s.mss.queue ++ [.command id.no] } })

/-- Whether a message of a transport is next: those of the mailbox and of commands wait in order of arrival. -/
def MssState.next (m : MssState) (t : Transport) : Bool :=
  match t with
  | .mailbox => m.queue.head? = some t
  | .command _ => m.queue.head? = some t
  | _ => m.queue.isEmpty

/-- Whether the MSS serves a message now. -/
def State.serves (s : State) (t : Transport) : Bool := s.mss.awake && s.mss.next t

/-- Whether the MSS, or in RECOVERY the boot ROM, serves it. -/
def State.servesAny (s : State) (t : Transport) : Bool :=
  (s.mss.awake || s.host.state = dRECOVERY) && s.mss.next t

/-- MB_STATUS with DONE: the bytes of the response, and its status code. -/
def mbDone (len : Nat) (st : Status) : W32 := BitVec.ofNat 32 (fld 1 1 1 + fld len 2 13 + fld st.code 16 8)

/-- The response goes back the way that the request came. -/
def State.respond (s : State) (t : Transport) (d : List Byte) : State :=
  match t with
  | .mailbox =>
    let d := d.take 4096
    { s with mss := { s.mss with
      queue := s.mss.queue.drop 1, mbStatus := mbDone d.length .ok, mbRsp := writeBytes [] 0 d } }
  | .command id =>
    let s := { s with mss := { s.mss with queue := s.mss.queue.drop 1 } }
    match s.cmd id with
    | none => s
    | some c =>
      let d := d.take (bits c.p.p3.toNat 0 16)
      (s.result c.p.p2 d).finish id .ok d.length
  | t => s.emit (.message t d)

/-- A response: the message type, what it answers or is, and its body. -/
def State.reply (s : State) (t : Transport) (type code : Nat) (body : List Byte) : State :=
  s.respond t (leBytes type 1 ++ leBytes code 1 ++ body)

/-! ### Vendor messages -/

def tVendor : Nat := 0x7F
def tSpdm : Nat := 0x05
def tPldm : Nat := 0x01
def tControl : Nat := 0x00

/-- GET_STATUS. -/
def execGetStatus (t : Transport) (s : State) : Host.Outcome State Fault Refusal :=
  accept (.getStatus t) (
    if !s.serves t || t = Transport.doe then s
    else s.reply t tVendor 0x01 (leBytes s.mgStatus 4 ++ leBytes s.mss.alert.toNat 4 ++ leBytes s.mss.pwr 4
      ++ leBytes s.mss.tmax.toNat 4))

/-- Entry `i` of the ledger: one that is missing, or whose CRC fails, is reported as an entry of TYPE 0. -/
def MssState.entry (m : MssState) (i : Nat) : List Byte :=
  match tget none m.ledger (i % ledgerSize) with
  | some e => e.bytes
  | none => List.replicate 64 0

/-- LEDGER_READ. A count that the message does not permit returns no entry. -/
def execLedgerRead (t : Transport) (first count : Nat) (s : State) : Host.Outcome State Fault Refusal :=
  accept (.ledgerRead t first count) (
    if !s.serves t || t = Transport.doe then s
    else
      let l := if count = 0 || 60 < count then [] else upFrom first count
      s.reply t tVendor 0x02 (l.flatMap s.mss.entry))

/-- SET_ROOTS: within a secured session; otherwise it is refused. -/
def execSetRoots (t : Transport) (secured : Bool) (certs : List (List Byte)) (s : State) :
    Host.Outcome State Fault Refusal :=
  accept (.setRoots t secured certs) (
    if !s.serves t || t = Transport.doe then s
    else if !(secured && s.mss.spdm.session && s.mss.spdm.final) || certs.isEmpty || 8 < certs.length then
      s.reply t tVendor 0x04 (leBytes Status.erefused.code 1)
    else { s with mss := { s.mss with roots := certs } }.reply t tVendor 0x04 (leBytes 0 1))

/-- CLEAR_ALERT: bits clear as by a write of MG_ALERT (R527). -/
def execClearAlert (t : Transport) (mask : Clearing) (s : State) : Host.Outcome State Fault Refusal :=
  accept (.clearAlert t mask) (
    if !s.serves t || t = Transport.doe then s
    else
      let s := s.clearAlerts mask.v (s.sameAlerts mask.same)
      s.reply t tVendor 0x05 (leBytes s.mss.alert.toNat 4))

/-! ### The restart of the MSS (16 R502) -/

/-- The SPDM state without a connection. -/
def Spdm.none : Spdm := ⟨false, false, false, false, [], []⟩

/-- A restart begins: the requests that wait are not answered, and MSS commands complete with EPEER_GONE. -/
def State.restartBegin (s : State) : State :=
  let l := s.mss.queue
  let s := { s with mss := { s.mss with
    restart := true, up := false, mbStatus := 0, queue := [], spdm := Spdm.none, eid := 0, tid := 0 } }
  l.foldl (fun (s : State) t => match t with
    | .command id => s.noRecord id .epeerGone
    | _ => s) s

/-- BOOT_MODE as latched (18 R540). -/
def Pins.bootMode (p : Pins) : Nat := bits p.straps.toNat 2 2

/-- A ledger entry of a boot or restart: device state, FW_VER, fuse SVN, and the boot strap (17 R517, 18 R540). -/
def State.ledgerBoot (s : State) : State :=
  s.ledger 0x0001 (leBytes s.host.state 1 ++ leBytes s.host.fwVer.toNat 4 ++ leBytes s.mss.fuseSvn 1 ++ leBytes s.pins.bootMode 1)

/-- MSS_RESTART: by a message, answered before the restart begins, or by the MSS's own watchdog (`own`); and its end (`done`). -/
def execMssRestart (own : Bool) (t : Transport) (done : Bool) (s : State) : Host.Outcome State Fault Refusal :=
  accept (.mssRestart own t done) (
    if done then
      if !s.mss.restart then s
      else ({ s with mss := { s.mss with restart := false, up := true } }.calibrate [] 252 161).ledgerBoot
    else if own then (if s.mss.awake then s.restartBegin else s)
    else if !s.serves t || t = Transport.doe then s
    else (s.reply t tVendor 0x03 []).restartBegin)

/-! ### SPDM (R504, R505, R519 to R521) -/

def State.setSpdm (s : State) (x : Spdm) : State := { s with mss := { s.mss with spdm := x } }

/-- An SPDM ERROR: its code. -/
def State.spdmError (s : State) (t : Transport) (code : Nat) : State := s.reply t tSpdm 0x7F (leBytes code 1)

/-- Errors: an invalid request, one that comes out of order, parameters that are not supported. -/
def eInvalid : Nat := 0x01
def eUnexpected : Nat := 0x04
def eUnsupported : Nat := 0x07

/-- GET_VERSION: a connection begins. -/
def execGetVersion (t : Transport) (s : State) : Host.Outcome State Fault Refusal :=
  accept (.getVersion t) (
    if !s.serves t then s
    else (s.setSpdm { Spdm.none with version := true }).reply t tSpdm 0x04 (leBytes 0x1200 2))

/-- GET_CAPABILITIES: certificates, challenge, signed measurements, key exchange, encryption and authentication of sessions. -/
def execGetCapabilities (t : Transport) (s : State) : Host.Outcome State Fault Refusal :=
  accept (.getCapabilities t) (
    if !s.serves t then s
    else if !s.mss.spdm.version then s.spdmError t eUnexpected
    else s.reply t tSpdm 0x61 (leBytes 0x2D6 4))

/-- NEGOTIATE_ALGORITHMS: the requester must offer the one algorithm of each role. -/
def execNegotiateAlgorithms (t : Transport) (rsa4096 sha512 ffdhe4096 aes256 : Bool) (s : State) :
    Host.Outcome State Fault Refusal :=
  accept (.negotiateAlgorithms t rsa4096 sha512 ffdhe4096 aes256) (
    if !s.serves t then s
    else if !s.mss.spdm.version then s.spdmError t eUnexpected
    else if rsa4096 && sha512 && ffdhe4096 && aes256 then
      (s.setSpdm { s.mss.spdm with algo := true }).reply t tSpdm 0x63 (leBytes 0x0F 1)
    else (s.setSpdm Spdm.none).spdmError t eUnsupported)

/-- A request that follows the negotiation of algorithms. -/
def State.negotiated (s : State) (t : Transport) (act : State) : State :=
  if !s.serves t then s else if !s.mss.spdm.algo then s.spdmError t eUnexpected else act

/-- GET_DIGESTS: slot 0. -/
def execGetDigests (t : Transport) (s : State) : Host.Outcome State Fault Refusal :=
  accept (.getDigests t) (s.negotiated t (s.reply t tSpdm 0x01 (leBytes 0x01 1 ++ Config.sha512 s.mss.chain)))

/-- GET_CERTIFICATE: a piece of the chain of slot 0, and the bytes that follow it. -/
def execGetCertificate (t : Transport) (slot off len : Nat) (s : State) : Host.Outcome State Fault Refusal :=
  accept (.getCertificate t slot off len) (s.negotiated t (
    if slot ≠ 0 || s.mss.chain.length < off then s.spdmError t eInvalid
    else
      let d := (s.mss.chain.drop off).take len
      s.reply t tSpdm 0x02 (leBytes d.length 2 ++ leBytes (s.mss.chain.length - off - d.length) 2 ++ d)))

/-- CHALLENGE: a signature over both nonces and the digest of the chain. -/
def execChallenge (t : Transport) (slot : Nat) (nonce : List Byte) (s : State) : Host.Outcome State Fault Refusal :=
  accept (.challenge t slot nonce) (s.negotiated t (
    if slot ≠ 0 then s.spdmError t eInvalid
    else
      let (s, own) := s.random 32
      let dg := Config.sha512 s.mss.chain
      s.reply t tSpdm 0x03 (dg ++ own ++ Config.deviceSign (nonce ++ own ++ dg))))

/-- The SVN of a firmware image, its FW_VER and its size (R523). -/
def imageSvn (d : List Byte) : Nat := leAt d 8 4
def imageVer (d : List Byte) : Nat := leAt d 4 4
def imageSize (d : List Byte) : Nat := leAt d 12 4

/-- What measurement `i` is the digest of (R521). -/
def State.measured (s : State) (i : Nat) : List Byte :=
  match i with
  | 1 => Config.bootRom
  | 2 => s.mss.image
  | 3 => leBytes s.mss.fuseSvn 1 ++ leBytes (imageSvn s.mss.image) 1
  | 4 => leBytes s.host.trVer.toNat 4 ++ leBytes s.host.fwVer.toNat 4
  | 5 => (s.mss.remapCores.flatMap fun p => leBytes p 2)
    ++ s.mss.remapRods.flatMap fun (x : Nat × Nat) => leBytes x.1 2 ++ leBytes x.2 2
  | _ => s.mss.roots.flatten

/-- GET_MEASUREMENTS: the digests at the indices named. -/
def execGetMeasurements (t : Transport) (indices : List Nat) (s : State) : Host.Outcome State Fault Refusal :=
  accept (.getMeasurements t indices) (s.negotiated t (
    if indices.any fun i => i = 0 || 6 < i then s.spdmError t eInvalid
    else s.reply t tSpdm 0x60 (indices.flatMap fun i => leBytes i 1 ++ Config.sha512 (s.measured i))))

/-- KEY_EXCHANGE: a session's key is agreed; the exchange is signed. -/
def execKeyExchange (t : Transport) (exchange nonce : List Byte) (s : State) : Host.Outcome State Fault Refusal :=
  accept (.keyExchange t exchange nonce) (s.negotiated t (
    let (s, own) := s.random 512
    let d := exchange ++ nonce ++ own
    let sig := Config.deviceSign d
    (s.setSpdm { s.mss.spdm with
      session := true, final := false, key := Config.agree exchange own, transcript := d ++ sig }).reply t tSpdm 0x64
      (own ++ sig)))

/-- FINISH: the session is secured when the requester proves that it holds the key. -/
def execFinish (t : Transport) (verify : List Byte) (s : State) : Host.Outcome State Fault Refusal :=
  accept (.finish t verify) (s.negotiated t (
    let x := s.mss.spdm
    if !x.session || x.final then s.spdmError t eUnexpected
    else if verify ≠ Config.finishMac x.key x.transcript then
      (s.setSpdm { x with session := false, key := [], transcript := [] }).spdmError t eInvalid
    else (s.setSpdm { x with final := true }).reply t tSpdm 0x65 []))

/-- END_SESSION. -/
def execEndSession (t : Transport) (s : State) : Host.Outcome State Fault Refusal :=
  accept (.endSession t) (s.negotiated t (
    let x := s.mss.spdm
    if !x.final then s.spdmError t eUnexpected
    else (s.setSpdm { x with session := false, final := false, key := [], transcript := [] }).reply t tSpdm 0x6C []))

/-- IDE_KEY_MANAGEMENT: inside a secured session a key of the link is programmed. -/
def execIdeKeyManagement (t : Transport) (secured : Bool) (key : List Byte) (s : State) :
    Host.Outcome State Fault Refusal :=
  accept (.ideKeyManagement t secured key) (
    if !s.serves t then s
    else if !(secured && s.mss.spdm.final) then s.spdmError t eUnexpected
    else { s with host := { s.host with keys := [key] } }.reply t tSpdm 0x7E [])

/-! ### PLDM and MCTP control (R504) -/

/-- PLDM types that the device supports, as a map. -/
def pldmTypes : Nat := 2 ^ 0 + 2 ^ 2 + 2 ^ 5

/-- A PLDM Type 0 command: SetTID 1, GetTID 2, GetPLDMVersion 3, GetPLDMTypes 4, GetPLDMCommands 5. The spec gives no version and
lists no commands of the types: those bytes are free. -/
def execPldmBase (t : Transport) (cmd : Nat) (body : List Byte) (s : State) : Host.Outcome State Fault Refusal :=
  accept (.pldmBase t cmd body) (
    if !s.serves t || t = Transport.doe then s
    else
      match cmd with
      | 1 => { s with mss := { s.mss with tid := leAt body 0 1 } }.reply t tPldm 0x00 []
      | 2 => s.reply t tPldm 0x00 (leBytes s.mss.tid 1)
      | 3 => s.draw.reply t tPldm 0x00 (freeBytes s.freeCtr 0 4)
      | 4 => s.reply t tPldm 0x00 (leBytes pldmTypes 8)
      | 5 => s.draw.reply t tPldm 0x00 (freeBytes s.freeCtr 0 32)
      | _ => s.reply t tPldm 0x05 [])

/-- What a PLDM sensor reads: 0 to 163 temperatures, 164 to 185 rails, 186 package power, 187 the device state. -/
def State.pldmSensor (s : State) (n : Nat) : Option (List Byte) :=
  if n < 164 then some (leBytes (tget 0 s.mss.sensors n).toNat 4)
  else if n < 186 then some (leBytes (tget 0 s.mss.rails (n - 164)).toNat 8)
  else if n = 186 then some (leBytes s.mss.watts 2)
  else if n = 187 then some (leBytes s.host.state 1)
  else none

/-- PLDM_SENSOR_READ. The completion for a sensor that R504 does not list is a free value (DESIGN CHOICE: notes/assumptions/63.md). -/
def execPldmSensorRead (t : Transport) (sensor : Nat) (s : State) : Host.Outcome State Fault Refusal :=
  accept (.pldmSensorRead t sensor) (
    if !s.serves t || t = Transport.doe then s
    else
      match s.pldmSensor sensor with
      | some d => s.reply t tPldm 0x00 d
      | none => s.draw.reply t tPldm ((Config.free32 s.freeCtr).toNat % 256) [])

/-- MCTP_UNSUPPORTED: the protocol's "unsupported" completion. -/
def execMctpUnsupported (t : Transport) (msgType code : Nat) (s : State) : Host.Outcome State Fault Refusal :=
  accept (.mctpUnsupported t msgType code) (
    if !s.servesAny t then s
    else if msgType = tSpdm then s.reply t tSpdm 0x7F (leBytes eUnsupported 1 ++ leBytes code 1)
    else s.reply t msgType 0x05 [])

/-- ENDPOINT_ID_ASSIGNMENT: by the bus owner; 0 and 0xFF are no endpoint IDs. -/
def execEndpointIdAssignment (t : Transport) (eid : BitVec 8) (s : State) : Host.Outcome State Fault Refusal :=
  accept (.endpointIdAssignment t eid) (
    if !s.serves t || t = Transport.doe then s
    else if eid = 0 || eid = 0xFF then s.reply t tControl 0x02 []
    else { s with mss := { s.mss with eid := eid } }.reply t tControl 0x00 (leBytes 0 1 ++ leBytes eid.toNat 1 ++ leBytes 0 1))

/-! ### Firmware (R522 to R525) -/

/-- Whether a firmware image is malformed: magic, SVN 0 to 63, size. -/
def imageBad (d : List Byte) : Bool :=
  d.length < 64 || d.take 4 ≠ [0x47, 0x5A, 0x46, 0x57] || 63 < imageSvn d || imageSize d ≠ d.length

/-- Whether R523 accepts an image with its signature against a fuse SVN. -/
def imageGood (d sig : List Byte) (fuse : Nat) : Bool :=
  !imageBad d && sig.length = 512 && Config.rsaVerify Config.firmwareKey d sig && fuse ≤ imageSvn d

/-- The staging buffer, in the firmware reserve (08 R224). -/
def stageBase : Nat := 0x011F58000000

/-- A ledger entry of an update: step, SVN, status. -/
def State.ledgerUpdate (s : State) (step svn st : Nat) : State :=
  s.ledger 0x0009 (leBytes step 1 ++ leBytes svn 1 ++ leBytes st 1)

/-- An image that an interrupted write leaves: one that R523 does not accept. -/
def brokenImage : List Byte := [0]

/-- PLDM_FIRMWARE_UPDATE, its steps 1 to 3; `powerLost` says that power fails in step 3. In RECOVERY no staging buffer is used, and
the device returns to BOOT. -/
def execPldmFirmwareUpdate (t : Transport) (image sig : List Byte) (powerLost : Bool) (s : State) :
    Host.Outcome State Fault Refusal :=
  accept (.pldmFirmwareUpdate t image sig powerLost) (
    if !s.servesAny t || t = Transport.doe then s
    else if s.mss.update then s.reply t tPldm 0x81 []
    else
      let rec0 := decide (s.host.state = dRECOVERY)
      let svn := imageSvn image
      let s := if rec0 then s
        else { s with hbm := s.hbm.put stageBase (image ++ sig) false }.ledgerUpdate 1 svn 0
      if !imageGood image sig s.mss.fuseSvn then (s.ledgerUpdate 2 svn 1).reply t tPldm 0x01 []
      else
        let s := s.ledgerUpdate 2 svn 0
        if powerLost then { s with mss := { s.mss with image := brokenImage, update := true } }
        else
          let s := ({ s with mss := { s.mss with image := image ++ sig } }.ledgerUpdate 3 svn 0).reply t tPldm 0x00 []
          if rec0 then { s with host := { s.host with state := dBOOT } } else s)

end Sys2Proof.Machine
end

