-- ==== Sys2Proof/Machine/Mxe.lean ====
section
/-!
DEFINITION. The operations of the matrix engine (03; 06 R192, R193; 07 R205). A weight load, a stream or a raw row is taken
16 ccyc before its stamp, where its feed begins (03 R78; notes/assumptions/12.md).
-/

namespace Sys2Proof.Machine

open Sys2Proof

/-- An operation of the array enters: its line operands, its place in the feed, its event at the stamp. A feed that would leave
the scratchpad raises ADDR and does not take place (05 R138). -/
def Core.enterArray (c : Core) (env : Env) (l : LineOp) (sline : BitVec 17) (o : MxOp) (ev : Nat → PEv) : Core :=
  if c.rn.mode ≠ 1 then c
  else
    let (c, base, p) := c.lineBase env .mxe o.kvi l
    let c := if p then c.poisonUse .mxe o.kvi 1 1 l.areg.toNat 0 else c
    let o := { o with
      id := c.ids, stamp := c.tm.p + 16, line := lineAt base l.line, sline := lineAt base sline, ap := p, used := p }
    let far := o.line + o.lineN > lineCount || (o.mx && o.sline + o.scaleN > lineCount)
    if far then c.addrFault .mxe o.kvi scrBytes 3 0
    else
      let c := { c with ids := c.ids + 1, mx := { c.mx with ops := c.mx.ops ++ [o] } }
      let c := (c.later 4 (.feed o.id false 0)).later 16 (ev o.id)
      if o.mx then c.doFeed env o.id true 0 else c

/-- MLDW (03 R75, R78). -/
def execMldw (x : Issue) (l : LineOp) (fmt : BitVec 4) (mx : Bool) (sline : BitVec 17) (ecc : List EccObs) (s : State) :
    Host.Outcome State Fault Refusal :=
  accept (.mldw x l fmt mx sline ecc) (s.issueOn x .mxe true fun env c =>
    c.enterArray env l sline
      ⟨0, 0, 0, fmt.toNat, mx, 0, 0, 0, 0, false, 0, c.kvi .mxe x.word, [], [], 0, false, false, false, ecc, []⟩
      .loadBegin)

/-- MMUL (03 R80, R85). -/
def execMmul (x : Issue) (l : LineOp) (fmt : BitVec 4) (mx : Bool) (sline : BitVec 17) (nm1 : BitVec 9) (row : BitVec 9)
    (acc : Bool) (ecc : List EccObs) (rods : List RodError) (s : State) : Host.Outcome State Fault Refusal :=
  accept (.mmul x l fmt mx sline nm1 row acc ecc rods) (s.issueOn x .mxe true fun env c =>
    c.enterArray env l sline
      ⟨0, 1, 0, fmt.toNat, mx, 0, 0, nm1.toNat + 1, row.toNat, acc, 0, c.kvi .mxe x.word, [], [], 0, false, false, false,
        ecc, rods⟩
      fun id => .vector id 0)

/-- MRAW (03 R98). -/
def execMraw (x : Issue) (l : LineOp) (sa : BitVec 12) (row : BitVec 9) (ecc : List EccObs) (s : State) :
    Host.Outcome State Fault Refusal :=
  accept (.mraw x l sa row ecc) (s.issueOn x .mxe true fun env c =>
    c.enterArray env l 0
      ⟨0, 2, 0, 0, false, 0, 0, 1, row.toNat, true, sa.toInt, c.kvi .mxe x.word, [], [], 0, false, false, false, ecc, []⟩
      fun id => .vector id 0)

/-- A command that runs a beam operation: they issue in scheduled blocks only (03 R74). -/
def State.beamOn (s : State) (x : Issue) (f : Nat → Core → Core) : State :=
  s.issueOn x .mxe false fun _ c => if c.rn.mode = 1 then f (c.kvi .mxe x.word) c else c

/-- MCLR (03 R83): at the end of this ccyc. -/
def execMclr (x : Issue) (tile : BitVec 3) (s : State) : Host.Outcome State Fault Refusal :=
  accept (.mclr x tile) (s.beamOn x fun _ c => c.later 0 (.clear tile.toNat ⟨true, 0⟩))

/-- MANC (03 R83): at the end of this ccyc. -/
def execManc (x : Issue) (tile : BitVec 3) (anchor : BitVec 12) (s : State) : Host.Outcome State Fault Refusal :=
  accept (.manc x tile anchor) (s.beamOn x fun _ c => c.later 0 (.clear tile.toNat ⟨false, anchor.toInt⟩))

/-- A beam entry. -/
def Core.entry (c : Core) (row col : Nat) : Entry := tget Entry.zero c.mx.beam (128 * row + col)

/-- MOUT (03 R94 to R96): slot h of column j is lane 2 j + h mod 2 of register Vd + h / 2. -/
def execMout (x : Issue) (row : BitVec 9) (vd : BitVec 6) (ofmt : BitVec 2) (half : Bool) (s : State) :
    Host.Outcome State Fault Refusal :=
  accept (.mout x row vd ofmt half) (s.beamOn x fun kvi c =>
    let r := row.toNat
    let m := tileMode c r
    if ofmt = 2 then
      let lanes := fun (k : Nat) => (upFrom 0 128).flatMap fun j =>
        let en := c.entry r j
        [(2 * j, Lane.mk (outRaw m.fp32 en (2 * k)) en.poison), (2 * j + 1, Lane.mk (outRaw m.fp32 en (2 * k + 1)) en.poison)]
      let c := (c.post ⟨3, vd.toNat⟩ c.tm.p (c.tm.p + 4) .mxe kvi (.lanes (lanes 0))).1
      (c.post ⟨3, vd.toNat + 1⟩ c.tm.p (c.tm.p + 5) .mxe kvi (.lanes (lanes 1))).1
    else
      let lanes := (upFrom 0 128).map fun j =>
        let en := c.entry r j
        (2 * j + b2n half,
          Lane.mk (if ofmt = 0 then outF32 m.fp32 m.anchor en else outBf16 m.fp32 m.anchor en) en.poison)
      (c.post ⟨3, vd.toNat⟩ c.tm.p (c.tm.p + 4) .mxe kvi (.lanes lanes)).1)

/-- MFLG (03 R97): bit b of slot h of column j is the INEXACT flag of tile row 32 h + b. -/
def execMflg (x : Issue) (tile : BitVec 3) (vd : BitVec 6) (s : State) : Host.Outcome State Fault Refusal :=
  accept (.mflg x tile vd) (s.beamOn x fun kvi c =>
    let word := fun (j h : Nat) => (upFrom 0 32).foldl (fun acc b =>
      acc + fld (b2n (c.entry (64 * tile.toNat + 32 * h + b) j).inexact) b 1) 0
    let lanes := (upFrom 0 128).flatMap fun j =>
      [(2 * j, Lane.mk (BitVec.ofNat 32 (word j 0)) false), (2 * j + 1, Lane.mk (BitVec.ofNat 32 (word j 1)) false)]
    (c.post ⟨3, vd.toNat⟩ c.tm.p (c.tm.p + 4) .mxe kvi (.lanes lanes)).1)

end Sys2Proof.Machine
end

