-- ==== Sys2Proof/Machine/Reset.lean ====
section
/-!
DEFINITION. The compute reset: COMPUTE_RESET and AUTO, its phases, and the remap of cores and rods (16 R495 to R501; 03 R105; 05
R165; 08 R250; 09 R284; 10 R310; 11 R342; 12 R350, R375; 14 R452, R456).
-/

namespace Sys2Proof.Machine

open Sys2Proof

/-! ### The fence (R496) -/

/-- Whether an answer goes to a core of this device. -/
def Reply.isCore (r : Reply) : Bool :=
  match r with
  | .core .. => true
  | .queue .. => true
  | _ => false

/-- An answer that nobody of the C-die takes any more. -/
def Reply.unless (r : Reply) : Reply := if r.isCore then .none else r

/-- Whether the fence answers a message under way, or discards it. -/
def Msg.isFenced (m : Msg) : Bool :=
  match m with
  | .line .. => true
  | .remote .. => true
  | .queue _ => true
  | .answer .. => true
  | .qans .. => true
  | _ => false

/-- What the landing unit of a core owes to others: packets and requests held, and arrivals not yet acknowledged. -/
def Core.owed (c : Core) (k : Nat) : List Msg :=
  (c.lu.buf.map fun h => Msg.line k h.pkt) ++ (c.lu.remote.map fun r => Msg.remote k r.2)
    ++ (c.lu.atomW.toList.map fun w => Msg.reply w.reply .ok 0 0 0 [] false) ++ c.nev.filterMap fun x => match x.2 with
      | .arrive _ p => some (Msg.line k p)
      | .atomDone r _ _ => some (Msg.reply r .ok 0 0 0 [] false)
      | _ => none

/-! ### The stop (R495 phase 3; 08 R250; 09 R284) -/

/-- What a queue of a hub keeps of the C-die's requests: the writes. -/
def keepWrites (l : List Request) : List Request :=
  (l.filter fun r => !r.mine || match r.req with
    | .write .. => true
    | _ => false).map fun r => if r.mine then { r with reply := r.reply.unless } else r

/-- Requests of the C-die at the hubs: reads and atomics are discarded, writes performed without an answer. -/
def Hbm.dropDie (h : Hbm) : Hbm :=
  { h with
    resv := h.resv.map fun (x : Nat × Resv) =>
      (x.1, { x.2 with queues := (x.2.queues.map fun (q : Nat × List Request) => (q.1, keepWrites q.2)).filter fun q => !q.2.isEmpty })
    el := (h.el.map fun (x : Nat × ElQueue) =>
      (x.1, { x.2 with reqs := (x.2.reqs.filter fun e => !(keepWrites [e.req]).isEmpty).map fun (e : ElReq) =>
        if e.req.mine then { e with req := { e.req with reply := e.req.reply.unless } } else e })).filter fun x => x.2 ≠ ElQueue.empty
    egress := h.egress.filter fun x => !x.req.mine
    acks := h.acks.map fun (a : WrAck) => { a with reply := a.reply.unless } }

/-- Whether a message is one that a core of this device has sent, and that no unit has taken yet. -/
def Msg.fromDie (dev : Nat) (m : Msg) : Bool :=
  match m with
  | .hub r => r.mine
  | .queue q => q.dev = dev && q.reply.isCore
  | _ => false

/-- Phase 2: the hubs answer for the C-die, and discard its pending reads and atomics, and writes that have not reached them (08 R250). -/
def State.raiseFence (s : State) : State :=
  let s := (upFrom 0 4).foldl (fun (s : State) h => s.modHub h fun (x : Hub) => { x with cfence := true }) s
  let way := s.plane.filterMap fun (x : Nat × Option Msg) => x.2.filter Msg.isFenced
  let held := s.cores.flatMap fun (x : Nat × Core) => x.2.owed x.1
  let gone := fun (x : Nat × Option Msg) => match x.2 with
    | some m => m.isFenced
    | none => false
  let s := { s with plane := s.plane.filter fun x => !gone x }
  let s := (way ++ held).foldl State.fenceAnswer s
  let dev := s.fab.devId
  let s := { s with
    hbm := s.hbm.dropDie
    plane := s.plane.filter fun (x : Nat × Option Msg) => match x.2 with
      | some (.hub r) => !(Msg.hub r).fromDie dev
      | _ => true }
  { s with plane := s.plane.filter fun (x : Nat × Option Msg) => match x.2 with
    | some (.answer ..) => false
    | some (.qans ..) => false
    | _ => true }

/-- Connections that this device's cores hold, closed (11 R342). -/
def Queue.leaveDie (q : Queue) (dev : Nat) : Queue :=
  let mine := fun (c : Conn) => c.dev = dev && c.core < 128
  { q with
    conns := q.conns.filter fun c => !mine c
    recs := q.recs.map fun (x : PRec) => match x.conn with
      | some c => if mine c then { x with conn := none } else x
      | none => x }

/-- Commands that need the C-die (14 R452): those on jobs, and SET_OP. -/
def Cmd.needsDie (c : Cmd) : Bool :=
  (1 ≤ c.p.opcode && c.p.opcode ≤ 7) || c.p.opcode = 9 || c.p.opcode = 0x0A || c.p.opcode = 0x0D

/-- Queues that are read on the C-die become GONE (11 R342). -/
def State.queuesGone (s : State) : State :=
  ((s.queues.filter fun x => x.2.kind = 0 && x.2.state = 1).map (·.1)).foldl State.queueGone s

/-- Phase 7: run records, then every job slot EMPTY, with what it holds. -/
def State.emptyAll (s : State) : State :=
  let s := (upFrom 0 64).foldl (fun (s : State) k =>
    (s.job k).live.foldl (fun (s : State) r => s.runRecord r .eresetTarget 0xFFFF none) s) s
  let s := (s.host.exec.filter Cmd.needsDie).foldl (fun (s : State) c => s.noRecord c.id .eresetTarget) s
  let s := (upFrom 0 64).foldl (fun (s : State) k => if (s.job k).state = jEMPTY then s else s.emptyJob k) s
  let s := s.queuesGone
  let dev := s.fab.devId
  { s with
    mcg := [], mcgJob := [], qgrp := [], qgrpJob := []
    queues := (s.queues.map fun (x : Nat × Queue) => (x.1, x.2.leaveDie dev)).filter fun x => x.2 ≠ Queue.zero }

/-- Phase 3: the islands stop, and what the C-die had under way is abandoned; phase 7 begins. -/
def State.stopDie (s : State) : State :=
  let dev := s.fab.devId
  let s := s.gateClocks false
  -- while the cores still show which records their handlers hold
  let s := s.queuesGone
  let s := { s with
    jobs := s.jobs.map fun (x : Nat × Job) => (x.1, { x.2 with live := x.2.live.map fun (r : Run) => r.cut s.clk.stretch })
    cores := []
    plane := s.plane.filter fun (x : Nat × Option Msg) => match x.2 with
      | some m => !m.fromDie dev
      | none => true
    hbm := s.hbm.dropDie
    fab := { s.fab with out := s.fab.out.map fun (o : OutReq) => { o with reply := o.reply.unless } }
    fl := { s.fl with stops := [] }
    clk := { s.clk with stretch := 0, plNow := 0, plLast := none, change := none, joined := [], stopped := false } }
  s.emptyAll

/-! ### The remap (R500, R501; 03 R105) -/

/-- Columns disabled, row by row, of the field-remap record, and those that are disabled already (fused). -/
def addColumns (spare : SMap Nat) (l : List Nat) : SMap Nat :=
  l.foldl (fun (m : SMap Nat) p =>
    let v := tget 0 m (p / 17)
    if bitAt v (p % 17) then m else tput 0 m (p / 17) (v + 2 ^ (p % 17))) spare

/-- A physical core joins the field-remap record at once. -/
def State.failCore (s : State) (p : Nat) : State :=
  if s.mss.remapCores.contains p then s
  else
    { s with
      mss := { s.mss with remapCores := s.mss.remapCores ++ [p] }
      fl := { s.fl with spare := addColumns s.fl.spare [p] } }.ledger 0x0007 (leBytes p 2)

/-- A rod of a physical core joins it. -/
def State.failRod (s : State) (x : Nat × Nat) : State :=
  if s.mss.remapRods.contains x then s
  else
    { s with mss := { s.mss with remapRods := s.mss.remapRods ++ [x] } }.ledger 0x0007 (leBytes x.1 2 ++ leBytes x.2 2)

/-- Disabled rods of a physical core: by the fuses, and by the field-remap record (03 R104). -/
def MssState.rodsOf (m : MssState) (p : Nat) : List Nat := ((m.fuseRods ++ m.remapRods).filter fun x => x.1 = p).map (·.2)

/-- Marks take effect: cores and rods. A core whose disabled rods then outnumber its spares is marked for the next reset (R500, 03 R105). -/
def State.applyRemap (s : State) (cores : List Nat) (rods : List (Nat × Nat)) : State :=
  let s := rods.foldl State.failRod s
  let spent := (upFrom 0 136).filter fun p => spareRods < (s.mss.rodsOf p).length
  let s := cores.foldl State.failCore s
  { s with
    mss := { s.mss with pendRemapCores := [], pendRemapRods := [] }
    fl := { s.fl with pendCore := spent.filter fun p => !s.mss.remapCores.contains p, spare := addColumns s.fl.spare s.mss.remapCores } }

/-- Whether a row has fewer than 16 working cores. -/
def State.rowShort (s : State) : Bool := (upFrom 0 8).any fun r => 1 < s.failedIn r

/-! ### Initialisation and calibration (R495 phases 5 and 6; R350) -/

/-- Every core as initialised: cleared, with its disabled rods. -/
def State.freshCores (s : State) : State :=
  { s with cores := (upFrom 0 128).map fun k =>
    let rods := s.mss.rodsOf (s.phys k)
    (k, { Core.reset with
      lu := { Core.reset.lu with init := false }
      mx := { Core.reset.mx with rodFail := BitVec.ofNat 132 (rods.map fun r => 2 ^ r).sum } }) }

/-- The core islands whose calibration fails: each that holds a logical core is disabled, and its row's spare takes its place. -/
def State.failIslands (s : State) (xlat : List (Nat × Nat)) : State :=
  let bad := xlat.filter fun x => x.1 < 136 && 32 < x.2
  (bad ++ bad).foldl (fun (s : State) x =>
    if (s.logical x.1).isSome then
      let s := s.failCore x.1
      s.setIsland x.1 { Island.off with failed := true, xlat := x.2 % 256 }
    else s) s

/-- The crossings of the C-die are calibrated, those that `xlat` does not name within the limit; spare cores are not clocked. -/
def State.calibrateDie (s : State) (xlat : List (Nat × Nat)) (badPlane : Bool) : State :=
  let s := s.failIslands xlat
  let s := (upFrom 0 136).foldl (fun (s : State) p =>
    if (s.logical p).isSome then s.calibrate xlat 29 p
    else s.setIsland p { s.island p with present := false, clocked := false }) s
  let s := s.calibrate xlat 29 136
  if badPlane then s.setIsland 136 { s.island 136 with failed := true } else s

/-- Whether a crossing of PL or of a hub has failed. -/
def State.planeBad (s : State) : Bool := (136 :: upFrom 140 4).any fun i => (s.island i).failed

/-! ### The end (R495 phase 8, R499) -/

/-- A DEVICE record (R482): FCAUSE, and the island concerned or 0xFF. -/
def State.deviceRecord (s : State) (cause island : Nat) : State × Nat :=
  s.logUnit 3 0 140 0x0D true 0xFF 0 (fld cause 0 4 + fld island 4 8) 0

/-- The island that a failed reset names. -/
def State.badIsland (s : State) : Nat := ((136 :: upFrom 140 4).find? fun i => (s.island i).failed).getD 0xFF

/-- Phase 8. -/
def State.endReset (s : State) (micros : Nat) : State :=
  let cmds := s.fl.rsCmds
  let took := max micros ((s.clk.tbt.toNat - s.fl.rsT0) / 4000)
  let s := (upFrom 0 4).foldl (fun (s : State) h => s.modHub h fun (x : Hub) => { x with cfence := false }) s
  let s := { s with fl := { s.fl with
    rsBusy := 0, rsCmds := [], rsCount := s.fl.rsCount + 1, rsLast := BitVec.ofNat 32 took } }
  if s.rowShort || s.planeBad then
    let (s, i) := s.deviceRecord 4 s.badIsland
    cmds.foldl (fun (s : State) id => s.finish id .efault i) (s.deviceFault 4 (some i))
  else
    let drain := s.host.drain
    let s := { s with host := { s.host with state := dREADY, fcause := 0, drain := none } }
    let s := cmds.foldl (fun (s : State) id => s.finish id .ok 0) s
    (match drain with
      | some (id, _) => s.finish id .ok 0
      | none => s).nextChange

/-! ### The sequence (R495, R498) -/

/-- A phase begins, and does its work. -/
def State.resetPhase (s : State) (r : ResetRun) (n : Nat) : State :=
  let s := { s with fl := { s.fl with rsBusy := n } }
  match n with
  | 2 => s.raiseFence
  | 3 => s.stopDie
  | 4 => s.applyRemap s.fl.pendCore s.mss.pendRemapRods
  | 5 => (r.badCores.foldl (fun (s : State) p => if p < 136 then s.failCore p else s) s).freshCores
  | 6 => (s.calibrateDie r.xlat r.badPlane).freshCores
  | 8 => s.endReset r.micros
  | _ => s

/-- The phases follow one another, as far as `upTo`; the capture of phase 1 ends first. Before the islands stop the marks of rods are
noted, since the registers that hold them are cleared. -/
def State.advanceReset (s : State) (upTo : Nat) (r : ResetRun) : State :=
  (upFrom 2 7).foldl (fun (s : State) n =>
    if s.fl.rsBusy + 1 ≠ n || upTo < n || (n = 2 && s.fl.capB) then s
    else
      let s := if n = 3 then
          { s with mss := { s.mss with pendRemapRods := addNew s.mss.pendRemapRods s.pendRods } }
        else s
      s.resetPhase r n) s

/-- Phase 1: the device is RESETTING. -/
def State.beginReset (s : State) (capture : Bool) : State :=
  let s := { s with
    host := { s.host with state := dRESETTING }
    fl := { s.fl with rsBusy := 1, rsT0 := s.clk.tbt.toNat, autoAt := none } }
  if capture then s.beginCapture 3 (upFrom 0 128) none else s

/-- The command waits for the end of the reset. -/
def State.joinReset (s : State) (id : Nat) : State :=
  { s.await id with fl := { s.fl with rsCmds := s.fl.rsCmds ++ [id] } }

/-- COMPUTE_RESET: it begins the reset, joins it, or follows it on, as far as phase `upTo`; `r` holds what nature decides. -/
def execComputeReset (id upTo : Nat) (r : ResetRun) (s : State) : Host.Outcome State Fault Refusal :=
  accept (.computeReset id upTo r) (
    if 20000 < r.micros then s
    else
      match s.cmd id with
      | none => s
      | some c =>
        if c.acted then (if s.fl.rsCmds.contains id then s.advanceReset upTo r else s)
        else s.runCmd id 0x11 fun c =>
          if s.fl.rsBusy ≠ 0 then (s.joinReset id).advanceReset upTo r
          else if s.fl.capB then s
          else ((s.beginReset (c.p.p0.getLsbD 0)).joinReset id).advanceReset upTo r)

/-- AUTO_RESET: 1 ms after the device entered FAULTED; it begins a reset with capture, joins one, or follows it on. -/
def execAutoReset (upTo : Nat) (r : ResetRun) (s : State) : Host.Outcome State Fault Refusal :=
  accept (.autoReset upTo r) (
    let due := match s.fl.autoAt with
      | some t => t ≤ s.clk.tbt.toNat
      | none => false
    if 20000 < r.micros then s
    else if s.fl.rsBusy ≠ 0 then
      (if due then { s with fl := { s.fl with autoAt := none } } else s).advanceReset upTo r
    else if !due || s.host.state ≠ dFAULTED || s.fl.capB then s
    else (s.beginReset true).advanceReset upTo r)

end Sys2Proof.Machine
end

