-- ==== Sys2Proof/Machine/Package.lean ====
section
/-!
DEFINITION. Package reset and BOOT, brown-out, THERMTRIP, boundary scan (18 R535 to R540, R547, R549; 17 R522 to R525; 12 R375; 13
R410, R418; 08 R251; 14 R444, R456).
-/

namespace Sys2Proof.Machine

open Sys2Proof

/-! ### Package reset (R537, R539) -/

/-- What a package reset leaves of the MSS: flash and fuses (16 R502). Entries that wait in SRAM are lost. -/
def MssState.kept (m : MssState) : MssState :=
  { MssState.reset with
    ledger := m.ledger, ledNext := m.ledNext, ledSeq := m.ledSeq, draws := m.draws, roots := m.roots, chain := m.chain
    serial := m.serial, image := m.image, fuseSvn := m.fuseSvn, fuseRods := m.fuseRods, remapCores := m.remapCores, remapRods := m.remapRods
    pendRemapCores := m.pendRemapCores, pendRemapRods := m.pendRemapRods }

/-- The part in package reset. The model's own records go on: the queue of commands, what has left the part, the counters. -/
def State.packageReset (s : State) (pwrok perstN trip : Bool) : State :=
  { State.reset with
    pending := s.pending, out := s.out, nextId := s.nextId, freeCtr := s.freeCtr
    mss := s.mss.kept
    fl := { Faults.reset with spare := s.fl.spare }
    pins := { State.reset.pins with pwrok := pwrok, perstN := perstN, trip := trip } }

/-- PACKAGE_RESET: a pin has been low for 10 µs. While THERMTRIP_N is asserted PERST_N has no effect; the fall of PWROK ends it. -/
def execPackageReset (p : PinLevels) (s : State) : Host.Outcome State Fault Refusal :=
  accept (.packageReset p) (
    if (p.pwrok && p.perstN) || (s.pins.trip && p.pwrok) then s
    else s.packageReset p.pwrok p.perstN false)

/-- BROWN_OUT: a package reset, whatever the pins show. -/
def execBrownOut (r : WatchedRail) (s : State) : Host.Outcome State Fault Refusal :=
  accept (.brownOut r) (s.packageReset s.pins.pwrok s.pins.perstN (s.pins.trip && s.pins.pwrok))

/-! ### BOOT (R538, R540) -/

/-- The fabric role of MASTER_SEL (13 R410): the primary candidate has device ID 0 and epoch 1, a standalone device ID 0 and epoch 0. -/
def State.takeRole (s : State) (sel : Nat) : State :=
  let own := decide (sel = 1 || sel = 3)
  { s with
    fab := { s.fab with role := sel, idValid := own, epoch := if sel = 1 then 1 else 0 }
    clk := { s.clk with master := decide (sel = 1) } }

/-- BOOT: straps are latched, the count starts, crossings are calibrated under the remap record, ports train. A standalone device holds
its ports DOWN. Without its reference clock the device enters RECOVERY (R536). -/
def execBoot (p : PinLevels) (refPresent : Bool) (xlat : List (Nat × Nat)) (s : State) :
    Host.Outcome State Fault Refusal :=
  accept (.boot p refPresent xlat) (
    if s.host.state ≠ dBOOT || s.pins.latched || s.pins.trip || !p.pwrok || !p.perstN then s
    else
      let s := { s with
        pins := { s.pins with
          pwrok := true, perstN := true, latched := true
          straps := BitVec.ofNat 4 (p.masterSel.toNat + fld p.bootMode.toNat 2 2) }
        clk := { s.clk with run := true } }
      let s := (s.applyRemap s.mss.pendRemapCores s.mss.pendRemapRods).takeRole p.masterSel.toNat
      let s := s.calibrateDie xlat false
      let s := (upFrom 140 4 ++ upFrom 144 18).foldl (fun (s : State) i => s.calibrate xlat (if i < 144 then 29 else 252) i) s
      let s := if p.masterSel = 3 then s else (upFrom 0 16).foldl State.trainPort s
      if refPresent then s else { s with host := { s.host with state := dRECOVERY } })

/-- The image that the boot ROM reads: that of the flash; `image` and `sig` are what the flash held at manufacture. -/
def MssState.flashImage (m : MssState) (image sig : List Byte) : List Byte × List Byte :=
  if m.image.isEmpty then (image, sig) else (m.image.take (m.image.length - 512), m.image.drop (m.image.length - 512))

/-- The hubs after BOOT: every stack trained and cleared, calendars running. -/
def State.startHubs (s : State) : State :=
  (upFrom 0 4).foldl (fun (s : State) h => s.modHub h fun (x : Hub) =>
    { x with init := false, stackUp := 7, calRun := true, frame := BitVec.ofNat 64 (s.clk.tbt.toNat / 16384) }) s

/-- BOOT_IMAGE_VERIFIED: READY, or RECOVERY where R523 does not accept the image or the strap forces it. A crossing of PL or of a hub
that fails calibration, or a row short of cores, leaves the device FAULTED (12 R350; 16 R501). -/
def execBootImageVerified (image sig : List Byte) (micros : Nat) (s : State) : Host.Outcome State Fault Refusal :=
  accept (.bootImageVerified image sig micros) (
    if s.host.state ≠ dBOOT || !s.pins.latched || 1000000 < micros then s
    else
      let (d, g) := s.mss.flashImage image sig
      if s.pins.bootMode = 1 || !imageGood d g s.mss.fuseSvn then { s with host := { s.host with state := dRECOVERY } }
      else
        let s := { s with
          mss := { s.mss with up := true, image := d ++ g, fuseSvn := max s.mss.fuseSvn (imageSvn d) }
          host := { s.host with
            state := dREADY, fwrun := true, fwVer := BitVec.ofNat 32 (imageVer d), trVer := Config.translatorVersion d } }
        let s := s.startHubs.freshCores.ledgerBoot.bootStep
        if s.planeBad then
          let (s, i) := s.deviceRecord 1 s.badIsland
          s.deviceFault 1 (some i)
        else if s.rowShort then
          let (s, i) := s.deviceRecord 4 0xFF
          s.deviceFault 4 (some i)
        else s)

/-! ### THERMTRIP and JTAG (R547, R549) -/

/-- THERMTRIP: a comparator has tripped. The C-die clocks are gated, the SerDes idle, the stacks in self-refresh, until PWROK falls. -/
def execThermtrip (sensor : Nat) (s : State) : Host.Outcome State Fault Refusal :=
  accept (.thermtrip sensor) (
    if s.pins.trip then s
    else
      let s := (upFrom 0 16).foldl (fun (s : State) p => if (s.port p).state = pDOWN then s else s.closePort p pDOWN 1) s.linkDown
      let s := (upFrom 144 17).foldl (fun (s : State) i => s.setIsland i { s.island i with clocked := false }) (s.gateClocks false)
      let s := (upFrom 0 4).foldl (fun (s : State) h => s.modHub h fun (x : Hub) => { x with calRun := false }) s
      { s with pins := { s.pins with trip := true } })

/-- Bytes of device memory that change without a command: those of HBM and of the scratchpads. -/
def State.disturb (s : State) (l : List (Nat × Byte)) : State :=
  l.foldl (fun (s : State) x => match dpaPlace false x.1 with
    | .hbm a => { s with hbm := { s.hbm with mem := writeBytes s.hbm.mem a [x.2] } }
    | .scr c a => s.modCore c fun (k : Core) => { k with mem := writeBytes k.mem a [x.2] }
    | _ => s) s

/-- A job whose runs come to an end that no command asked for. -/
def State.disturbJob (s : State) (job : Nat) : State :=
  let j := s.job job
  s.setJob job { j with
    faulting := j.faulting || !j.live.isEmpty
    live := j.live.map fun (r : Run) => { r with fault := r.fault.orElse fun _ => some (s.clk.tbt.toNat, noCore, 0xFFFF, .efault) } }

/-- JTAG_EXTEST. While PERST_N is high its effect on any job, link or memory is unpredictable (R547, 00 R16): which bytes change, which
links are lost and which runs end are free values (notes/assumptions/69.md). -/
def execJtagExtest (levels : List (Nat × Bool)) (s : State) : Host.Outcome State Fault Refusal :=
  accept (.jtagExtest levels) (
    let t := { s with pins := { s.pins with scan := levels } }
    if !s.pins.perstN then t
    else
      let n := s.freeCtr
      let t := t.draw.disturb (Config.scanBytes n)
      let t := (upFrom 0 16).foldl (fun (t : State) p => if Config.scanLinks n p then (t.closePort p pDOWN 1).ledgerPort p else t) t
      let t := if Config.scanLinks n 16 then t.linkDown else t
      (upFrom 0 64).foldl (fun (t : State) j => if Config.scanJobs n j then t.disturbJob j else t) t)

end Sys2Proof.Machine
end

