-- ==== Sys2Proof/Machine/Seq.lean ====
section
/-!
DEFINITION. The operations of SEQ: scalar and address arithmetic, memory, atomics and branches (06 R180 to R191; 05 R138 to
R153).
-/

namespace Sys2Proof.Machine

open Sys2Proof

/-! ### Arithmetic (06 R188) -/

/-- S[D] = S[A] `op` src2, ready `lat` ccyc on; a poisoned operand poisons the result (00 R18). -/
def Core.arith (c : Core) (env : Env) (kvi : Nat) (f : Arith) (lat : Nat) (op : W64 → W64 → W64) : Core :=
  let (c, a) := c.readS env .seq kvi f.a.toNat
  let (c, b) := c.src2 env kvi f
  let c := c.usePoison .seq kvi 0 [(0, f.a.toNat, a.p), (0, f.b.toNat, b.p)]
  c.postS .seq kvi f.d.toNat lat (op a.v b.v) (a.p || b.p)

/-- A command that runs an arithmetic word. -/
def State.arithOn (s : State) (x : Issue) (f : Arith) (lat : Nat) (op : W64 → W64 → W64) : State :=
  s.issueOn x .seq false fun env c => c.arith env (c.kvi .seq x.word) f lat op

def execAdd (x : Issue) (f : Arith) (s : State) : Host.Outcome State Fault Refusal :=
  accept (.add x f) (s.arithOn x f 1 fun a b => a + b)
def execSub (x : Issue) (f : Arith) (s : State) : Host.Outcome State Fault Refusal :=
  accept (.sub x f) (s.arithOn x f 1 fun a b => a - b)
def execAnd (x : Issue) (f : Arith) (s : State) : Host.Outcome State Fault Refusal :=
  accept (.and x f) (s.arithOn x f 1 fun a b => a &&& b)
def execOr (x : Issue) (f : Arith) (s : State) : Host.Outcome State Fault Refusal :=
  accept (.or x f) (s.arithOn x f 1 fun a b => a ||| b)
def execXor (x : Issue) (f : Arith) (s : State) : Host.Outcome State Fault Refusal :=
  accept (.xor x f) (s.arithOn x f 1 fun a b => a ^^^ b)

/-- The amount of a shift: bits [5:0] of src2. -/
def shamt (b : W64) : Nat := (b.extractLsb' 0 6).toNat

def execShl (x : Issue) (f : Arith) (s : State) : Host.Outcome State Fault Refusal :=
  accept (.shl x f) (s.arithOn x f 1 fun a b => a <<< shamt b)
def execShr (x : Issue) (f : Arith) (s : State) : Host.Outcome State Fault Refusal :=
  accept (.shr x f) (s.arithOn x f 1 fun a b => a >>> shamt b)
def execSar (x : Issue) (f : Arith) (s : State) : Host.Outcome State Fault Refusal :=
  accept (.sar x f) (s.arithOn x f 1 fun a b => a.sshiftRight (shamt b))
def execMul (x : Issue) (f : Arith) (s : State) : Host.Outcome State Fault Refusal :=
  accept (.mul x f) (s.arithOn x f 4 fun a b => a * b)

def execMovi (x : Issue) (d : BitVec 6) (imm : W64) (s : State) : Host.Outcome State Fault Refusal :=
  accept (.movi x d imm) (s.issueOn x .seq false fun _ c => c.postS .seq (c.kvi .seq x.word) d.toNat 1 imm false)

def execCmp (x : Issue) (f : Arith) (fn : BitVec 5) (s : State) : Host.Outcome State Fault Refusal :=
  accept (.cmp x f fn) (s.issueOn x .seq false fun env c =>
    let kvi := c.kvi .seq x.word
    let (c, a) := c.readS env .seq kvi f.a.toNat
    let (c, b) := c.src2 env kvi f
    let c := c.usePoison .seq kvi 0 [(0, f.a.toNat, a.p), (0, f.b.toNat, b.p)]
    c.postP .seq kvi f.d.toNat 1 (cmpFn fn.toNat a.v b.v) (a.p || b.p))

def execPlog (x : Issue) (d a b : BitVec 6) (fn : BitVec 5) (s : State) : Host.Outcome State Fault Refusal :=
  accept (.plog x d a b fn) (s.issueOn x .seq false fun env c =>
    let kvi := c.kvi .seq x.word
    let (c, p) := c.readP env .seq kvi a.toNat
    let (c, q) := if fn = 4 then (c, PVal.mk false false) else c.readP env .seq kvi b.toNat
    let c := c.usePoison .seq kvi 0 [(2, a.toNat, p.p), (2, b.toNat, q.p)]
    c.postP .seq kvi d.toNat 1 (plogFn fn.toNat p.v q.v) (p.p || q.p))

def execSel (x : Issue) (f : Arith) (ps : BitVec 3) (s : State) : Host.Outcome State Fault Refusal :=
  accept (.sel x f ps) (s.issueOn x .seq false fun env c =>
    let kvi := c.kvi .seq x.word
    let (c, a) := c.readS env .seq kvi f.a.toNat
    let (c, b) := c.src2 env kvi f
    let (c, p) := c.readP env .seq kvi ps.toNat
    let c := c.usePoison .seq kvi 0 [(0, f.a.toNat, a.p), (0, f.b.toNat, b.p), (2, ps.toNat, p.p)]
    c.postS .seq kvi f.d.toNat 1 (if p.v then a.v else b.v) (a.p || b.p || p.p))

def execAadd (x : Issue) (f : Arith) (s : State) : Host.Outcome State Fault Refusal :=
  accept (.aadd x f) (s.issueOn x .seq false fun env c =>
    let kvi := c.kvi .seq x.word
    let (c, a) := c.readA env .seq kvi f.a.toNat
    let (c, b) := c.src2 env kvi f
    let c := c.usePoison .seq kvi 0 [(1, f.a.toNat, a.p), (0, f.b.toNat, b.p)]
    c.postA .seq kvi f.d.toNat 1 (a.v + b.v.truncate 48) (a.p || b.p))

def execAmov (x : Issue) (d a : BitVec 6) (s : State) : Host.Outcome State Fault Refusal :=
  accept (.amov x d a) (s.issueOn x .seq false fun env c =>
    let kvi := c.kvi .seq x.word
    let (c, v) := c.readS env .seq kvi a.toNat
    let c := c.usePoison .seq kvi 0 [(0, a.toNat, v.p)]
    c.postA .seq kvi d.toNat 1 (v.v.truncate 48) v.p)

def execSfroma (x : Issue) (d a : BitVec 6) (s : State) : Host.Outcome State Fault Refusal :=
  accept (.sfroma x d a) (s.issueOn x .seq false fun env c =>
    let kvi := c.kvi .seq x.word
    let (c, v) := c.readA env .seq kvi a.toNat
    let c := c.usePoison .seq kvi 0 [(1, a.toNat, v.p)]
    c.postS .seq kvi d.toNat 1 (v.v.setWidth 64) v.p)

def execMovia (x : Issue) (d : BitVec 6) (imm : W64) (s : State) : Host.Outcome State Fault Refusal :=
  accept (.movia x d imm)
    (s.issueOn x .seq false fun _ c => c.postA .seq (c.kvi .seq x.word) d.toNat 1 (imm.truncate 48) false)

/-! ### System values (06 R182) -/

/-- A system value by its code. -/
def sysValue (env : Env) (code : Nat) : W64 :=
  match code with
  | 0 => BitVec.ofNat 64 env.core
  | 1 => BitVec.ofNat 64 (env.dev % 4096)
  | 2 => BitVec.ofNat 64 env.runNo
  | 3 => env.seed
  | 4 => BitVec.ofNat 64 coreCap
  | 5 => BitVec.ofNat 64 scrSize
  | 6 => BitVec.ofNat 64 devCap0
  | _ => BitVec.ofNat 64 devCap1

def execRdsys (x : Issue) (d : BitVec 6) (imm : W64) (s : State) : Host.Outcome State Fault Refusal :=
  accept (.rdsys x d imm) (s.issueOn x .seq false fun env c =>
    c.postS .seq (c.kvi .seq x.word) d.toNat 1 (sysValue env imm.toNat) false)

/-! ### Memory (06 R189) -/

/-- A poisoned address register is a poisoned address (16 R482). -/
def Core.useAddr (c : Core) (kvi : Nat) (f : MemOp) (p : Bool) : Core :=
  if p then c.poisonUse .seq kvi 1 1 f.a.toNat 0 else c

/-- A read of `n` bytes of the core's own scratchpad by SEQ: the value, its mark, and the read latency; none where the
access raises ADDR (05 R138, R143). -/
def Core.memRead (c : Core) (env : Env) (kvi : Nat) (f : MemOp) (n kind : Nat) (ecc : List EccObs) :
    Core × Option (Nat × Nat × Bool × Bool × Nat) :=
  let (c, addr, ap) := c.memAddr env kvi f
  let c := c.useAddr kvi f ap
  match scrCause addr n with
  | some cause => (c.addrFault .seq kvi addr cause kind, none)
  | none =>
    let line := addr / 256
    let (c, vs) := c.readLines env .seq kvi none ecc 0 [line]
    let l := vs.getD 0 LineVal.zero
    (c, some (addr, bits l.v.toNat (8 * (addr % 256)) (8 * n), l.p, ap, readLat f.rl line))

def execLd (x : Issue) (f : MemOp) (ecc : List EccObs) (s : State) : Host.Outcome State Fault Refusal :=
  accept (.ld x f ecc) (s.issueOn x .seq false fun env c =>
    let kvi := c.kvi .seq x.word
    let n := sizeBytes f.size
    match c.memRead env kvi f n 0 ecc with
    | (c, none) => c
    | (c, some (_, v, p, ap, lat)) =>
      let v := if f.sx then wrapInt (sext v (8 * n)) 64 else v
      c.postS .seq kvi f.d.toNat (lat + 1) (BitVec.ofNat 64 v) (p || ap))

def execLda (x : Issue) (f : MemOp) (ecc : List EccObs) (s : State) : Host.Outcome State Fault Refusal :=
  accept (.lda x f ecc) (s.issueOn x .seq false fun env c =>
    let kvi := c.kvi .seq x.word
    match c.memRead env kvi f 8 0 ecc with
    | (c, none) => c
    | (c, some (_, v, p, ap, lat)) => c.postA .seq kvi f.d.toNat (lat + 1) (BitVec.ofNat 48 v) (p || ap))

/-- A write of `n` bytes by SEQ, seen at issue + 2 (05 R143, R151). -/
def Core.memWrite (c : Core) (env : Env) (kvi : Nat) (f : MemOp) (v : Nat) (n : Nat) (p : Bool) (ecc : List EccObs) :
    Core :=
  let (c, addr, ap) := c.memAddr env kvi f
  let c := c.useAddr kvi f ap
  match scrCause addr n with
  | some cause => c.addrFault .seq kvi addr cause 1
  | none =>
    let line := addr / 256
    let (c, a, d, q) := c.merged env 0 kvi addr (leBytes v n) (p || ap) ecc
    let (c, id) := c.post ⟨5, line⟩ c.tm.p (c.tm.p + 2) .seq kvi (.bytes (a % 256) d q)
    c.access c.tm.p .seq true line kvi (some id)

def execSt (x : Issue) (f : MemOp) (ecc : List EccObs) (s : State) : Host.Outcome State Fault Refusal :=
  accept (.st x f ecc) (s.issueOn x .seq false fun env c =>
    let kvi := c.kvi .seq x.word
    let (c, v) := c.readS env .seq kvi f.b.toNat
    c.memWrite env kvi f v.v.toNat (sizeBytes f.size) v.p ecc)

def execSta (x : Issue) (f : MemOp) (ecc : List EccObs) (s : State) : Host.Outcome State Fault Refusal :=
  accept (.sta x f ecc) (s.issueOn x .seq false fun env c =>
    let kvi := c.kvi .seq x.word
    let (c, v) := c.readA env .seq kvi f.b.toNat
    c.memWrite env kvi f v.v.toNat 8 v.p ecc)

/-- ATOM (06 R189, R190): read at issue, write at issue + L + 1, S[D] then, the line seen two ccyc later. An error that the write
of 4 bytes meets in the word it merges with (05 R151) has place 1 in the read order, after the read's. -/
def execAtom (x : Issue) (f : MemOp) (aop : BitVec 3) (sgn : Bool) (c : BitVec 6) (ecc : List EccObs) (s : State) :
    Host.Outcome State Fault Refusal :=
  accept (.atom x f aop sgn c ecc) (s.issueOn x .seq false fun env k =>
    let kvi := k.kvi .seq x.word
    let n := sizeBytes f.size
    let (k, b) := k.readS env .seq kvi f.b.toNat
    let (k, cv) := if aop = 4 then k.readS env .seq kvi c.toNat else (k, SVal.mk 0 false)
    match k.memRead env kvi f n 2 ecc with
    | (k, none) => k
    | (k, some (addr, old, p, ap, lat)) =>
      let k := if ap then k
        else if b.p || cv.p then k.usePoison .seq kvi 0 [(0, f.b.toNat, b.p), (0, c.toNat, cv.p)]
        else if p && aop ≠ 3 then k.poisonUse .seq kvi 0 5 (addr / 256) (scrDpa env.core addr)
        else k
      let bad := p || ap || b.p || cv.p
      let new := atomNew ⟨f.size = 3, aop, sgn, b.v, cv.v, bad⟩ (BitVec.ofNat 64 old)
      let (k, a, d, q) := k.merged env 0 kvi addr (leBytes new.toNat n) bad (ecc.filter fun o => o.line = 1)
      let k := k.postS .seq kvi f.d.toNat (lat + 1) (BitVec.ofNat 64 old) (p || ap)
      let (k, id) := k.post ⟨5, addr / 256⟩ k.tm.p (k.tm.p + lat + 3) .seq kvi (.bytes (a % 256) d q)
      k.access (k.tm.p + lat + 1) .seq true (addr / 256) kvi (some id))

/-! ### Branches (06 R191, 02 R63, R64) -/

/-- BR: the condition is settled at issue; the chosen block follows when the block ends. -/
def execBr (x : Issue) (cond : BitVec 2) (sr : BitVec 6) (pr : BitVec 3) (tgtT tgtF : BitVec 16) (s : State) :
    Host.Outcome State Fault Refusal :=
  accept (.br x cond sr pr tgtT tgtF) (s.issueOn x .seq false fun env c =>
    let kvi := c.kvi .seq x.word
    let (c, v) := if cond = 3 then (c, SVal.mk 0 false) else c.readS env .seq kvi sr.toNat
    let (c, p) := if cond = 3 then c.readP env .seq kvi pr.toNat else (c, PVal.mk false false)
    let c := c.usePoison .seq kvi 2 [(0, sr.toNat, v.p), (2, pr.toNat, p.p)]
    let t := if brCond cond v.v p.v then tgtT.toNat else tgtF.toNat
    { c with rn := { c.rn with succ := some t } })

end Sys2Proof.Machine
end

