-- ==== Sys2Proof/Machine/Steps.lean ====
section
/-!
DEFINITION. The steps of the timebase (12 R365): what is under way keeps its distance, and the frames after the step are numbered by
the new count.
-/

namespace Sys2Proof.Machine

open Sys2Proof

/-- A command keeps its distance from the instants that it waits for. -/
def Cmd.shift (mv : Nat → Nat) (c : Cmd) : Cmd := { c with bell := mv c.bell, admitAt := mv c.admitAt, begin0 := mv c.begin0 }

def Port.shift (mv : Nat → Nat) (x : Port) : Port :=
  let q := fun (l : List TxPkt) => l.map fun (y : TxPkt) => { y with at0 := mv y.at0 }
  { x with
    since := mv x.since, lastInj := mv x.lastInj, credAt := x.credAt.map mv, ueTbt := x.ueTbt.map mv, busy := mv x.busy
    txq := q x.txq, waitq := q x.waitq, replayQ := q x.replayQ, slotSeen := 0 }

/-- The instants from which times are measured move with the count (R365, R371; 13 R378): a step lengthens and shortens none. Instants that
software named stay as they are (notes/assumptions/67.md). -/
def State.shift (s : State) (mv : Nat → Nat) : State :=
  { s with
    clk := { s.clk with
      lastPps := s.clk.lastPps.map mv, timeAt := s.clk.timeAt.map mv, stopAt := mv s.clk.stopAt
      change := s.clk.change.map fun x => (x.1, x.2.1, mv x.2.2) }
    ports := (s.ports.map fun x => (x.1, x.2.shift mv)).filter fun x => x.2 ≠ Port.reset
    fab := { s.fab with heard := mv s.fab.heard, sent := mv s.fab.sent }
    host := { s.host with
      elastic := s.host.elastic.map (Cmd.shift mv), bulk := s.host.bulk.map (Cmd.shift mv), stalled := s.host.stalled.map (Cmd.shift mv)
      exec := s.host.exec.map (Cmd.shift mv), drain := s.host.drain.map fun x => (x.1, if x.2 = 0 then 0 else mv x.2)
      rings := (s.host.rings.map fun (x : Nat × Ring) => (x.1, { x.2 with bell := mv x.2.bell })).filter fun x => x.2 ≠ Ring.zero }
    fl := { s.fl with rsT0 := mv s.fl.rsT0, autoAt := s.fl.autoAt.map mv, stops := s.fl.stops.map fun x => (x.1, mv x.2) }
    mss := { s.mss with lastThr := s.mss.lastThr.map mv, lastBad := mv s.mss.lastBad }
    cores := (s.cores.map fun (x : Nat × Core) =>
      (x.1, { x.2 with rn := { x.2.rn with progress := mv x.2.rn.progress } })).filter fun x => x.2 ≠ Core.reset
    jobs := (s.jobs.map fun (x : Nat × Job) =>
      (x.1, { x.2 with live := x.2.live.map fun r => { r with start := mv r.start } })).filter fun x => x.2 ≠ Job.empty
    hubs := (s.hubs.map fun (x : Nat × Hub) =>
      (x.1, { x.2 with comb := x.2.comb.map fun (e : CombEntry) => { e with first := mv e.first } })).filter fun x => x.2 ≠ Hub.reset
    hbm := { s.hbm with
      egress := s.hbm.egress.map fun (y : Egress) => { y with tbt := mv y.tbt }
      acks := s.hbm.acks.map fun (y : WrAck) => { y with tbt := mv y.tbt } } }

/-- TIMEBASE_STEP: frames are numbered anew, and pending changes of memory and fabric calendars take effect at the boundary. -/
def execTimebaseStep (s : State) : Host.Outcome State Fault Refusal :=
  accept .timebaseStep (
    match pick (fun (x : Nat × Int) => x.1 ≤ s.clk.tbt.toNat) s.clk.steps with
    | none => s
    | some (x, rest) =>
      let d := 16384 * x.2
      let mv := fun (t : Nat) => ((t : Int) + d).toNat
      let t := s.clk.tbt + BitVec.ofInt 64 d
      let n := t.toNat / 16384
      let s := s.shift mv
      let s := ({ s with clk := { s.clk with tbt := t, steps := rest, stepped := true } }).fabricFrame n
      let s := (upFrom 0 4).foldl (fun (s : State) h =>
        s.modHub h fun (y : Hub) => { y with frame := BitVec.ofNat 64 n }) s
      let s := { s with hbm := s.hbm.handOn }
      { s with hbm := { s.hbm with
        cal := turnCalendar s.hbm.cal
        resv := s.hbm.resv.filter fun x => !x.2.gone
        last := [] } })

end Sys2Proof.Machine
end

