-- ==== Sys2Proof/Machine/Writes.lean ====
section
/-!
DEFINITION. REGISTER_WRITE: a host write to a BAR0 register, by its access codes (00 R11 to R15; 14 R422 to R434; 16 R488, R503; 17
R511, R526).
-/

namespace Sys2Proof.Machine

open Sys2Proof

/-- A 64-bit register with the half at offset `o` replaced. -/
def setHalf (x : W64) (o : Nat) (v : W32) : W64 :=
  if o % 8 = 0 then (x &&& 0xFFFFFFFF00000000) ||| v.setWidth 64 else (x &&& 0xFFFFFFFF) ||| (v.setWidth 64 <<< 32)

/-- A word of a ring's registers: the bases are stored while EN is 0. -/
def State.writeRingWord (s : State) (ring o : Nat) (v : W32) : State :=
  let r := s.ring ring
  match o with
  | 0x0 | 0x4 => if r.en then s else s.setRing ring { r with sqbase := setHalf r.sqbase o v }
  | 0x8 | 0xC => if r.en then s else s.setRing ring { r with cqbase := setHalf r.cqbase o v }
  | 0x10 => s.writeRingCtrl ring v
  | 0x1C => s.writeDefer ring v
  | _ => s

/-- A word of the command processor's block. -/
def State.writeCpWord (s : State) (o : Nat) (v : W32) : State :=
  if 0x2000 ≤ o && o < 0x6000 then s.writeRingWord ((o - 0x2000) / 64) (o % 64) v
  else
    match o with
    | 0x8000 => { s with host := { s.host with biasPage := setHalf s.host.biasPage o v } }
    | 0x8004 =>
      let (s, v) := s.defined 0xF v
      { s with host := { s.host with biasPage := setHalf s.host.biasPage o v } }
    | 0x8008 =>
      let (s, v) := s.defined 0x1FFFFFFF v
      { s with host := { s.host with biasN := v } }
    | 0x800C => s.writeBiasCmd v
    | _ => s

/-- A word of the doorbell pages. -/
def State.writeBell (s : State) (o : Nat) (v : W32) : State :=
  match o % 4096 with
  | 0x0 => s.writeSqTail (o / 4096) v
  | 0x4 => s.writeCqHead (o / 4096) v
  | _ => s

/-- A word of the MSS mailbox block. -/
def State.writeMgWord (s : State) (o : Nat) (v : W32) (same : Bool) : State :=
  if 0x1000 ≤ o && o < 0x2000 then
    { s with mss := { s.mss with mbReq := writeBytes s.mss.mbReq (o - 0x1000) (leBytes v.toNat 4) } }
  else
    match o with
    | 0x4 => s.writeAlert v same
    | 0x8 => s.writePcap v
    | 0x20 =>
      let (s, v) := s.defined 0x1FFF v
      { s with cfg := { s.cfg with mbLen := v.toNat % 2 ^ 13 } }
    | 0x24 => s.writeMbCtrl v
    | _ => s

/-- A word of the fault and capture block. -/
def State.writeFlWord (s : State) (o : Nat) (v : W32) (same : Bool) : State :=
  match o with
  | 0x20 => s.writeWdLimit v
  | 0x30 => s.writeCapStatus v same
  | 0x40 =>
    let (s, v) := s.defined 0x1 v
    { s with cfg := { s.cfg with rsAuto := v.getLsbD 0 } }
  | _ => s

/-- A word of the CXL component registers: HDMn_DPA. -/
def State.writeHdmWord (s : State) (o : Nat) (v : W32) : State :=
  let put := fun (n : Bool) =>
    let x := s.host.hdm n
    s.setHdm n { x with dpa := hdmDpa (setHalf x.dpa o v) }
  match o with
  | 0x800 | 0x804 => put false
  | 0x808 | 0x80C => put true
  | _ => s

/-- A write of the word at an offset of BAR0. Read-only registers ignore it, and so do offsets without a register.
DESIGN CHOICE (notes/assumptions/57.md): so do the reserved bits of read-only registers, written with 1 (R12), and a read-only or RC
register that a misaligned access reaches (R14). -/
def State.writeWord (s : State) (a : Nat) (v : W32) (same : Bool) : State :=
  match bar0Block a with
  | (.globals, 0x1C) => s.writeBar2Sel v
  | (.cp, o) => s.writeCpWord o v
  | (.bells, o) => s.writeBell o v
  | (.mss, o) => s.writeMgWord o v same
  | (.faults, o) => s.writeFlWord o v same
  | (.cxl, o) => s.writeHdmWord o v
  | _ => s

/-- A write of each half of a 64-bit access, the lower first, or of one of them: the halves of a 64-bit register come together (R15). -/
def State.writePair (s : State) (off : Nat) (v : W64) (same : Bool) (half : Half) : State :=
  let lo := fun (s : State) => s.writeWord off (v.truncate 32) same
  let hi := fun (s : State) => s.writeWord (off + 4) ((v >>> 32).truncate 32) same
  match half with
  | .whole => hi (lo s)
  | .low => if isWide off then hi (lo s) else lo s
  | .high => if isWide off then s else hi s

/-- REGISTER_WRITE: a misaligned access, or one of another width, gives the register at its offset a free value (R14). `same` says that the
events since the hubs' clock last ticked fall in its hcyc. -/
def execRegisterWrite (off : Nat) (x : Access0) (v : W64) (s : State) : Host.Outcome State Fault Refusal :=
  accept (.registerWrite off x v) (
    if 0x10000000 < off + x.width || x.width = 0 then s
    else if (x.width ≠ 4 && x.width ≠ 8) || off % x.width ≠ 0 then s.draw.writeWord (off / 4 * 4) (Config.free32 s.freeCtr) x.same
    else if x.width = 4 then s.writeWord off (v.truncate 32) x.same
    else s.writePair off v x.same x.half)

end Sys2Proof.Machine
end

