-- ==== Sys2Proof/Machine/Dispatch.lean ====
section
/-!
DEFINITION. The meaning of every command: one arm per row of spec/opcode_table.json.
-/

namespace Sys2Proof.Machine

open Sys2Proof

def exec (i : Instr) (s : State) : Host.Outcome State Fault Refusal :=
  match i with
  | .skip x e => Sys2Proof.Machine.execSkip x e s
  | .tinc x e t n => Sys2Proof.Machine.execTinc x e t n s
  | .tdec x e t n => Sys2Proof.Machine.execTdec x e t n s
  | .tset x t n => Sys2Proof.Machine.execTset x t n s
  | .twait x e t n tmo => Sys2Proof.Machine.execTwait x e t n tmo s
  | .fence x e k arg => Sys2Proof.Machine.execFence x e k arg s
  | .add x f => Sys2Proof.Machine.execAdd x f s
  | .sub x f => Sys2Proof.Machine.execSub x f s
  | .and x f => Sys2Proof.Machine.execAnd x f s
  | .or x f => Sys2Proof.Machine.execOr x f s
  | .xor x f => Sys2Proof.Machine.execXor x f s
  | .shl x f => Sys2Proof.Machine.execShl x f s
  | .shr x f => Sys2Proof.Machine.execShr x f s
  | .sar x f => Sys2Proof.Machine.execSar x f s
  | .mul x f => Sys2Proof.Machine.execMul x f s
  | .movi x d imm => Sys2Proof.Machine.execMovi x d imm s
  | .cmp x f fn => Sys2Proof.Machine.execCmp x f fn s
  | .plog x d a b fn => Sys2Proof.Machine.execPlog x d a b fn s
  | .sel x f ps => Sys2Proof.Machine.execSel x f ps s
  | .aadd x f => Sys2Proof.Machine.execAadd x f s
  | .amov x d a => Sys2Proof.Machine.execAmov x d a s
  | .sfroma x d a => Sys2Proof.Machine.execSfroma x d a s
  | .movia x d imm => Sys2Proof.Machine.execMovia x d imm s
  | .rdsys x d imm => Sys2Proof.Machine.execRdsys x d imm s
  | .ld x f ecc => Sys2Proof.Machine.execLd x f ecc s
  | .st x f ecc => Sys2Proof.Machine.execSt x f ecc s
  | .lda x f ecc => Sys2Proof.Machine.execLda x f ecc s
  | .sta x f ecc => Sys2Proof.Machine.execSta x f ecc s
  | .atom x f aop sgn c ecc => Sys2Proof.Machine.execAtom x f aop sgn c ecc s
  | .br x cond sr pr tgtT tgtF => Sys2Proof.Machine.execBr x cond sr pr tgtT tgtF s
  | .mldw x l fmt mx sline ecc => Sys2Proof.Machine.execMldw x l fmt mx sline ecc s
  | .mmul x l fmt mx sline nm1 row acc ecc rods => Sys2Proof.Machine.execMmul x l fmt mx sline nm1 row acc ecc rods s
  | .mclr x tile => Sys2Proof.Machine.execMclr x tile s
  | .manc x tile anchor => Sys2Proof.Machine.execManc x tile anchor s
  | .mout x row vd ofmt half => Sys2Proof.Machine.execMout x row vd ofmt half s
  | .mflg x tile vd => Sys2Proof.Machine.execMflg x tile vd s
  | .mraw x l sa row ecc => Sys2Proof.Machine.execMraw x l sa row ecc s
  | .vop x f => Sys2Proof.Machine.execVop x f s
  | .vld x v l col rl ecc => Sys2Proof.Machine.execVld x v l col rl ecc s
  | .vldStrided x d l stride w b0 rl ecc => Sys2Proof.Machine.execVldStrided x d l stride w b0 rl ecc s
  | .vldTranspose x v l tw tshape rl ecc => Sys2Proof.Machine.execVldTranspose x v l tw tshape rl ecc s
  | .vst x v l col => Sys2Proof.Machine.execVst x v l col s
  | .ocfill x entry l col rl ecc => Sys2Proof.Machine.execOcfill x entry l col rl ecc s
  | .ocput x v entry => Sys2Proof.Machine.execOcput x v entry s
  | .lutld x slo shi entry => Sys2Proof.Machine.execLutld x slo shi entry s
  | .dload x e slot tmpl => Sys2Proof.Machine.execDload x e slot tmpl s
  | .dbase x e slot dst sr add => Sys2Proof.Machine.execDbase x e slot dst sr add s
  | .dgo x e slot r inc => Sys2Proof.Machine.execDgo x e slot r inc s
  | .datom x f => Sys2Proof.Machine.execDatom x f s
  | .qopen x ctx cls r device qid => Sys2Proof.Machine.execQopen x ctx cls r device qid s
  | .qclose x ctx r => Sys2Proof.Machine.execQclose x ctx r s
  | .qsend x ctx r nwm1 sbase mc => Sys2Proof.Machine.execQsend x ctx r nwm1 sbase mc s
  | .qcsend x ctx r vk sv sk => Sys2Proof.Machine.execQcsend x ctx r vk sv sk s
  | .holdEnd c delta => Sys2Proof.Machine.execHoldEnd c delta s
  | .waitTimeout c delta e => Sys2Proof.Machine.execWaitTimeout c delta e s
  | .blockBoundary c delta => Sys2Proof.Machine.execBlockBoundary c delta s
  | .serviceBlockEnd c delta => Sys2Proof.Machine.execServiceBlockEnd c delta s
  | .handlerDispatch c delta => Sys2Proof.Machine.execHandlerDispatch c delta s
  | .handlerBudgetExpiry c delta => Sys2Proof.Machine.execHandlerBudgetExpiry c delta s
  | .frameTick job => Sys2Proof.Machine.execFrameTick job s
  | .startAtTbt job => Sys2Proof.Machine.execStartAtTbt job s
  | .runRetire job run => Sys2Proof.Machine.execRunRetire job run s
  | .dmaRequestIssue c delta e slot ecc => Sys2Proof.Machine.execDmaRequestIssue c delta e slot ecc s
  | .dmaRequestComplete c delta txn => Sys2Proof.Machine.execDmaRequestComplete c delta txn s
  | .fillComplete c delta e slot => Sys2Proof.Machine.execFillComplete c delta e slot s
  | .landingArrival c delta pkt => Sys2Proof.Machine.execLandingArrival c delta pkt s
  | .landingPlacement c delta ecc => Sys2Proof.Machine.execLandingPlacement c delta ecc s
  | .remoteReadServe c delta ecc => Sys2Proof.Machine.execRemoteReadServe c delta ecc s
  | .landingAtomic c delta ecc => Sys2Proof.Machine.execLandingAtomic c delta ecc s
  | .schedRequestArrival req => Sys2Proof.Machine.execSchedRequestArrival req s
  | .elasticRequestArrival req => Sys2Proof.Machine.execElasticRequestArrival req s
  | .runCutoff pc run ecc => Sys2Proof.Machine.execRunCutoff pc run ecc s
  | .hbmReadEgress pc slot => Sys2Proof.Machine.execHbmReadEgress pc slot s
  | .hbmWriteAck req => Sys2Proof.Machine.execHbmWriteAck req s
  | .hbmUePoisonStore pc => Sys2Proof.Machine.execHbmUePoisonStore pc s
  | .linkRetry pkt => Sys2Proof.Machine.execLinkRetry pkt s
  | .linkSlip pkt => Sys2Proof.Machine.execLinkSlip pkt s
  | .calendarFrameBoundary => Sys2Proof.Machine.execCalendarFrameBoundary s
  | .patrolScrub hub granule => Sys2Proof.Machine.execPatrolScrub hub granule s
  | .placerOpenRequest req => Sys2Proof.Machine.execPlacerOpenRequest req s
  | .placerSend req => Sys2Proof.Machine.execPlacerSend req s
  | .placerClose req => Sys2Proof.Machine.execPlacerClose req s
  | .queueAnswer c delta req => Sys2Proof.Machine.execQueueAnswer c delta req s
  | .groupAssign qid => Sys2Proof.Machine.execGroupAssign qid s
  | .combiningContribution req => Sys2Proof.Machine.execCombiningContribution req s
  | .combiningTimeout qid key => Sys2Proof.Machine.execCombiningTimeout qid key s
  | .droopNotice island delta => Sys2Proof.Machine.execDroopNotice island delta s
  | .dieEventGrant delta => Sys2Proof.Machine.execDieEventGrant delta s
  | .emergencyStretch island delta => Sys2Proof.Machine.execEmergencyStretch island delta s
  | .crossingSlip c toCore words pkts => Sys2Proof.Machine.execCrossingSlip c toCore words pkts s
  | .timebaseCopyCorrection island => Sys2Proof.Machine.execTimebaseCopyCorrection island s
  | .ppsInEdge => Sys2Proof.Machine.execPpsInEdge s
  | .timeMessageSend port => Sys2Proof.Machine.execTimeMessageSend port s
  | .ppsOutRise => Sys2Proof.Machine.execPpsOutRise s
  | .ppsOutFall => Sys2Proof.Machine.execPpsOutFall s
  | .referenceLoss r => Sys2Proof.Machine.execReferenceLoss r s
  | .holdoverEnd r => Sys2Proof.Machine.execHoldoverEnd r s
  | .timebaseStep => Sys2Proof.Machine.execTimebaseStep s
  | .opStopBegin => Sys2Proof.Machine.execOpStopBegin s
  | .opStopResume ticks => Sys2Proof.Machine.execOpStopResume ticks s
  | .setOpTimeout => Sys2Proof.Machine.execSetOpTimeout s
  | .portTrainingDone port lanes link => Sys2Proof.Machine.execPortTrainingDone port lanes link s
  | .portAuthDone port trusted signed enc serial => Sys2Proof.Machine.execPortAuthDone port trusted signed enc serial s
  | .portJoinDone port partner partnerPort serial routes => Sys2Proof.Machine.execPortJoinDone port partner partnerPort serial routes s
  | .portStateTimeout port => Sys2Proof.Machine.execPortStateTimeout port s
  | .partnerLost port => Sys2Proof.Machine.execPartnerLost port s
  | .fecWindow port errors => Sys2Proof.Machine.execFecWindow port errors s
  | .laneRetrainDone port => Sys2Proof.Machine.execLaneRetrainDone port s
  | .creditTimeout port vc => Sys2Proof.Machine.execCreditTimeout port vc s
  | .apertureDropWindow port => Sys2Proof.Machine.execApertureDropWindow port s
  | .pktWrite p => Sys2Proof.Machine.execPktWrite p s
  | .pktRead p => Sys2Proof.Machine.execPktRead p s
  | .pktRresp p => Sys2Proof.Machine.execPktRresp p s
  | .pktAtomic p => Sys2Proof.Machine.execPktAtomic p s
  | .pktAresp p => Sys2Proof.Machine.execPktAresp p s
  | .pktAck p => Sys2Proof.Machine.execPktAck p s
  | .pktQopen p => Sys2Proof.Machine.execPktQopen p s
  | .pktQsend p => Sys2Proof.Machine.execPktQsend p s
  | .pktQcsend p => Sys2Proof.Machine.execPktQcsend p s
  | .pktQclose p => Sys2Proof.Machine.execPktQclose p s
  | .pktQresp p => Sys2Proof.Machine.execPktQresp p s
  | .pktTime p b => Sys2Proof.Machine.execPktTime p b s
  | .pktMgmt p b => Sys2Proof.Machine.execPktMgmt p b s
  | .pktAuth p b => Sys2Proof.Machine.execPktAuth p b s
  | .pktTransit p => Sys2Proof.Machine.execPktTransit p s
  | .linkWord port w => Sys2Proof.Machine.execLinkWord port w s
  | .linkWordSend port => Sys2Proof.Machine.execLinkWordSend port s
  | .fabricSlot port => Sys2Proof.Machine.execFabricSlot port s
  | .fabricFrameBoundary => Sys2Proof.Machine.execFabricFrameBoundary s
  | .heartbeatSend => Sys2Proof.Machine.execHeartbeatSend s
  | .masterTakeover => Sys2Proof.Machine.execMasterTakeover s
  | .doorbellSqTail ring v => Sys2Proof.Machine.execDoorbellSqTail ring v s
  | .doorbellCqHead ring v => Sys2Proof.Machine.execDoorbellCqHead ring v s
  | .commandAdmission ring p => Sys2Proof.Machine.execCommandAdmission ring p s
  | .commandExecute => Sys2Proof.Machine.execCommandExecute s
  | .bulkDeferralExpiry id => Sys2Proof.Machine.execBulkDeferralExpiry id s
  | .completionRecordWrite ring => Sys2Proof.Machine.execCompletionRecordWrite ring s
  | .ringEnable ring v => Sys2Proof.Machine.execRingEnable ring v s
  | .ringDisable ring v => Sys2Proof.Machine.execRingDisable ring v s
  | .ringDeferWrite ring v => Sys2Proof.Machine.execRingDeferWrite ring v s
  | .biasFlipGo v => Sys2Proof.Machine.execBiasFlipGo v s
  | .biasFlipDone => Sys2Proof.Machine.execBiasFlipDone s
  | .hdmCommit n base size => Sys2Proof.Machine.execHdmCommit n base size s
  | .bar2SelWrite v => Sys2Proof.Machine.execBar2SelWrite v s
  | .hostCxlMemRead hpa len => Sys2Proof.Machine.execHostCxlMemRead hpa len s
  | .hostCxlMemWrite hpa data poison => Sys2Proof.Machine.execHostCxlMemWrite hpa data poison s
  | .bar2Read off len => Sys2Proof.Machine.execBar2Read off len s
  | .bar2Write off data poison => Sys2Proof.Machine.execBar2Write off data poison s
  | .hostLinkTrained width rate cxl => Sys2Proof.Machine.execHostLinkTrained width rate cxl s
  | .hostLinkReset => Sys2Proof.Machine.execHostLinkReset s
  | .load id image bindings placement => Sys2Proof.Machine.execLoad id image bindings placement s
  | .unload id => Sys2Proof.Machine.execUnload id s
  | .reserve id entries => Sys2Proof.Machine.execReserve id entries s
  | .arm id => Sys2Proof.Machine.execArm id s
  | .start id => Sys2Proof.Machine.execStart id s
  | .startPeriodic id => Sys2Proof.Machine.execStartPeriodic id s
  | .stop id => Sys2Proof.Machine.execStop id s
  | .drain id => Sys2Proof.Machine.execDrain id s
  | .openChannel id image => Sys2Proof.Machine.execOpenChannel id image s
  | .closeChannel id => Sys2Proof.Machine.execCloseChannel id s
  | .setCircuits id entries later => Sys2Proof.Machine.execSetCircuits id entries later s
  | .setApertures id table => Sys2Proof.Machine.execSetApertures id table s
  | .setOp id => Sys2Proof.Machine.execSetOp id s
  | .query id => Sys2Proof.Machine.execQuery id s
  | .faults id => Sys2Proof.Machine.execFaults id s
  | .captureTake id => Sys2Proof.Machine.execCaptureTake id s
  | .captureRead id => Sys2Proof.Machine.execCaptureRead id s
  | .computeReset id upTo r => Sys2Proof.Machine.execComputeReset id upTo r s
  | .portReset id => Sys2Proof.Machine.execPortReset id s
  | .portHoldDown id => Sys2Proof.Machine.execPortHoldDown id s
  | .portWriteCfg id => Sys2Proof.Machine.execPortWriteCfg id s
  | .loadClusterMap id map => Sys2Proof.Machine.execLoadClusterMap id map s
  | .timeCtrlStep id clusterBusy => Sys2Proof.Machine.execTimeCtrlStep id clusterBusy s
  | .timeCtrlRead id => Sys2Proof.Machine.execTimeCtrlRead id s
  | .mss id msg => Sys2Proof.Machine.execMss id msg s
  | .runHalt job => Sys2Proof.Machine.execRunHalt job s
  | .haltQuiesced job => Sys2Proof.Machine.execHaltQuiesced job s
  | .watchdogNoProgress c delta => Sys2Proof.Machine.execWatchdogNoProgress c delta s
  | .runDeadline job run => Sys2Proof.Machine.execRunDeadline job run s
  | .quiesceTimeout c => Sys2Proof.Machine.execQuiesceTimeout c s
  | .captureDone => Sys2Proof.Machine.execCaptureDone s
  | .autoReset upTo r => Sys2Proof.Machine.execAutoReset upTo r s
  | .sensorSample arg => Sys2Proof.Machine.execSensorSample arg s
  | .throttleReturn => Sys2Proof.Machine.execThrottleReturn s
  | .pcapApply => Sys2Proof.Machine.execPcapApply s
  | .ledgerFlush => Sys2Proof.Machine.execLedgerFlush s
  | .remapFlashCopy => Sys2Proof.Machine.execRemapFlashCopy s
  | .hashComplete idx => Sys2Proof.Machine.execHashComplete idx s
  | .digestSign idx => Sys2Proof.Machine.execDigestSign idx s
  | .mbGo v => Sys2Proof.Machine.execMbGo v s
  | .mgPcapWrite v => Sys2Proof.Machine.execMgPcapWrite v s
  | .mgAlertClear v => Sys2Proof.Machine.execMgAlertClear v s
  | .capLockRelease v => Sys2Proof.Machine.execCapLockRelease v s
  | .wdLimitWrite v => Sys2Proof.Machine.execWdLimitWrite v s
  | .tmTbtLowRead => Sys2Proof.Machine.execTmTbtLowRead s
  | .rcRegisterRead off x => Sys2Proof.Machine.execRcRegisterRead off x s
  | .registerWrite off x v => Sys2Proof.Machine.execRegisterWrite off x v s
  | .getStatus t => Sys2Proof.Machine.execGetStatus t s
  | .ledgerRead t first count => Sys2Proof.Machine.execLedgerRead t first count s
  | .mssRestart own t done => Sys2Proof.Machine.execMssRestart own t done s
  | .setRoots t secured certs => Sys2Proof.Machine.execSetRoots t secured certs s
  | .clearAlert t mask => Sys2Proof.Machine.execClearAlert t mask s
  | .getVersion t => Sys2Proof.Machine.execGetVersion t s
  | .getCapabilities t => Sys2Proof.Machine.execGetCapabilities t s
  | .negotiateAlgorithms t rsa4096 sha512 ffdhe4096 aes256 => Sys2Proof.Machine.execNegotiateAlgorithms t rsa4096 sha512 ffdhe4096 aes256 s
  | .getDigests t => Sys2Proof.Machine.execGetDigests t s
  | .getCertificate t slot off len => Sys2Proof.Machine.execGetCertificate t slot off len s
  | .challenge t slot nonce => Sys2Proof.Machine.execChallenge t slot nonce s
  | .getMeasurements t indices => Sys2Proof.Machine.execGetMeasurements t indices s
  | .keyExchange t exchange nonce => Sys2Proof.Machine.execKeyExchange t exchange nonce s
  | .finish t verify => Sys2Proof.Machine.execFinish t verify s
  | .endSession t => Sys2Proof.Machine.execEndSession t s
  | .pldmBase t cmd body => Sys2Proof.Machine.execPldmBase t cmd body s
  | .pldmSensorRead t sensor => Sys2Proof.Machine.execPldmSensorRead t sensor s
  | .pldmFirmwareUpdate t image sig powerLost => Sys2Proof.Machine.execPldmFirmwareUpdate t image sig powerLost s
  | .mctpUnsupported t msgType code => Sys2Proof.Machine.execMctpUnsupported t msgType code s
  | .packageReset p => Sys2Proof.Machine.execPackageReset p s
  | .boot p refPresent xlat => Sys2Proof.Machine.execBoot p refPresent xlat s
  | .bootImageVerified image sig micros => Sys2Proof.Machine.execBootImageVerified image sig micros s
  | .brownOut r => Sys2Proof.Machine.execBrownOut r s
  | .thermtrip sensor => Sys2Proof.Machine.execThermtrip sensor s
  | .jtagExtest levels => Sys2Proof.Machine.execJtagExtest levels s
  | .drainTimeout => Sys2Proof.Machine.execDrainTimeout s
  | .laneLossOfLock port lane => Sys2Proof.Machine.execLaneLossOfLock port lane s
  | .uncorrectableCodeword port => Sys2Proof.Machine.execUncorrectableCodeword port s
  | .snoop hpa => Sys2Proof.Machine.execSnoop hpa s
  | .endpointIdAssignment t eid => Sys2Proof.Machine.execEndpointIdAssignment t eid s
  | .ideKeyManagement t secured key => Sys2Proof.Machine.execIdeKeyManagement t secured key s

end Sys2Proof.Machine
end

