-- ==== Sys2Proof/Machine/Step.lean ====
section
/-!
DEFINITION. One step: the command at the front of the queue acts; on an empty queue the hubs' clock ticks
(notes/assumptions/4.md).
-/

namespace Sys2Proof.Machine

/-- The hub clock advances by one cycle: 2 ticks of 0.25 ns, while the timebase counts (12 R364). A new hcyc begins (00 R13). -/
def State.tick (s : State) : State :=
  let s := { s with hc := { s.hc.note s with alerts := 0, locks := false } }
  if s.clk.run then { s with clk := { s.clk with tbt := s.clk.tbt + 2 } } else s

/-- Takes the command at the front of the queue and answers what it does. -/
def step (s : State) : Host.Outcome State Fault Refusal :=
  match s.pending with
  | [] => .next s.tick
  | c :: rest => exec c { s with pending := rest }

/-- The state with the command that a word spells at the front of its queue. -/
def State.withFetchWord (s : State) (nbits w : Nat) : State :=
  match decodeTableWord nbits w with
  | some c => { s with pending := c :: s.pending }
  | none => s

end Sys2Proof.Machine
end

