-- ==== Sys2Proof/Safety.lean ====
section
/-!
DEFINITION. The terms that statements use: what counts as a safe step, the core in which a word issues or an event acts, and
what a command leaves as it was.
-/

namespace Sys2Proof.Safety

open Sys2Proof Sys2Proof.Machine

/-- The step answers a next state: the part neither stops nor refuses. -/
def goesOn (s : State) : Prop := ∃ t, step s = .next t

/-- The command is well formed, and the clock of the cores is not gated, by THERMTRIP_N (18 R549) or by a stop (12 R362). -/
def fit (i : Instr) (s : State) : Bool := i.wf && !s.gated

/-! ### The core that a command finds -/

/-- Core `n` as a command finds it. -/
def found (s : State) (n : Nat) : Core := { s.core n with fc := s.freeCtr }

/-- Core `n` in the ccyc in which an event acts, `delta` ccyc after its previous command. -/
def reached (s : State) (n delta : Nat) : Core := (found s n).comeTo (s.env n) delta

/-- The core in the ccyc in which a word comes to its engine. `lead` is for the words that act ahead of their stamp. -/
def arrived (s : State) (x : Issue) (e : Engine) (lead : Bool) : Core :=
  (found s x.core).comeToIssue (s.env x.core) x.delta e lead

/-- The engine has issued the word, and its guard has been read. -/
def guarded (s : State) (x : Issue) (e : Engine) (lead : Bool) : Core × Bool :=
  ((arrived s x e lead).markIssue (s.env x.core) e lead).guardOk (s.env x.core) e
    ((arrived s x e lead).kvi e x.word) (if lead then none else x.guard)

/-- The core on which the operation of a word acts. -/
def issuing (s : State) (x : Issue) (e : Engine) (lead : Bool) : Core := (guarded s x e lead).1

/-- The word issues, and its guard lets the operation act: the core runs, its engine is not held, and it is in a block. -/
def acts (i : Instr) (s : State) (x : Issue) (e : Engine) (lead : Bool) : Bool :=
  fit i s && (arrived s x e lead).canIssue (s.env x.core) e && (guarded s x e lead).2

/-! ### What a command leaves -/

/-- The core that stands after a command: its faults and messages have been handed over. -/
def settled (c : Core) : Core := { c with fc := 0, flt := [], tx := [] }

/-- Every core but `n`, HBM, the hubs, the clocks, the host interface, the configuration, the pins and the queue of commands
are as they were. -/
def othersKept (s t : State) (n : Nat) : Prop :=
  (∀ m, m ≠ n → t.core m = s.core m) ∧ t.hbm = s.hbm ∧ t.hubs = s.hubs ∧ t.clk = s.clk ∧ t.host = s.host
    ∧ t.cfg = s.cfg ∧ t.pins = s.pins ∧ t.pending = s.pending

/-- The command answers a next state in which core `n` stands as `c`, but for the faults and messages it hands over, and all
other state of `othersKept` is as it was. -/
def leaves (i : Instr) (s : State) (n : Nat) (c : Core) : Prop :=
  ∃ t, exec i s = .next t ∧ t.core n = settled c ∧ othersKept s t n

/-- The same, and the faults and messages that `c` hands over are those that leave core `n`. -/
def hands (i : Instr) (s : State) (n : Nat) (c : Core) : Prop :=
  leaves i s n c ∧ exec i s = .next (s.onCore n fun _ _ => c)

/-- The command answers exactly this state. -/
def yields (i : Instr) (s t : State) : Prop := exec i s = .next t

/-! ### Reads and writes of registers -/

/-- A read of the resource breaks no obligation of the schedule: the core is in service mode, or no write of the resource is
pending and the run is not audited (02 R35, R39, R61). -/
def clean (c : Core) (r : Res) : Bool := !c.checked || ((c.pending r).isNone && !c.rn.audit)

/-- What S, A and P registers hold. -/
def sVal (c : Core) (r : BitVec 6) : SVal := tget ⟨0, false⟩ c.regs.s r.toNat
def aVal (c : Core) (r : BitVec 6) : AVal := tget ⟨0, false⟩ c.regs.a r.toNat
def pVal (c : Core) (r : Nat) : PVal := tget ⟨false, false⟩ c.regs.p r

/-- src2 of 06 R188: IMM, or S[B]. -/
def srcVal (c : Core) (f : Arith) : SVal := if f.i then ⟨f.imm, false⟩ else sVal c f.b

/-- The core with one more write under way: register `r` takes `pay` in `lat` ccyc. -/
def writing (c : Core) (e : Engine) (kvi : Nat) (r : Res) (lat : Nat) (pay : Payload) : Core :=
  { c with pend := c.pend ++ [⟨c.ids, r, c.tm.p, c.tm.p + lat, e, kvi, pay, false⟩], ids := c.ids + 1 }

end Sys2Proof.Safety
end

