-- ==== Sys2Proof/Certificates/Slice0/Obligations.lean ====
section
/-!
DEFINITION. The statements about the part.
-/

open Sys2Proof Sys2Proof.Machine Sys2Proof.Safety

/-! ### The queue of commands -/

/-- One step takes the command at the front of the queue and is exactly what that command does to the state with the rest of
the queue. -/
def Obligations.StepRunsTheFrontCommand : Prop :=
  ∀ (c : Instr) (rest : List Instr) (s : State), step { s with pending := c :: rest } = exec c { s with pending := rest }

/-- On an empty queue the part goes on, the timebase counting two units of 0.25 ns while it runs (12 R364: the hub clock is
its source) and nothing else changing but the notes that the model keeps of the hcyc for 00 R13 (notes/assumptions/4.md). That an empty
queue stands for one hub cycle is the model's choice
(notes/assumptions/4.md). -/
def Sys2Proof.Claims.IdleStepCountsTheTimebase : Prop :=
  ∀ s : State, s.pending = [] → ∃ t, step s = .next t ∧ t.clk.tbt = (if s.clk.run then s.clk.tbt + 2 else s.clk.tbt)
    ∧ { t with clk := { t.clk with tbt := s.clk.tbt }, hc := s.hc } = s ∧ t.hc.alerts = 0 ∧ t.hc.locks = false

/-! ### Operations of any engine (06 R186) -/

/-- The value n of a tally operation: the field, or bits [31:0] of S[NSR]. -/
def Sys2Proof.Claims.nVal (c : Core) : NSrc → W32
  | .imm n => n
  | .reg r => (sVal c r).v.truncate 32

open Sys2Proof.Claims

/-- A read of the register that n is taken from breaks no obligation. -/
def Sys2Proof.Claims.nClean (c : Core) : NSrc → Bool
  | .imm _ => true
  | .reg r => clean c ⟨0, r.toNat⟩

/-- SKIP does nothing on any engine; TINC, TDEC and TSET hand their change, by n, to the tallies of the ccyc in which they
issue, and change nothing else. -/
def Sys2Proof.Claims.TallyOperationsRecordTheirChange : Prop :=
  ∀ (s : State) (x : Issue) (e : Engine) (t : TallyOp) (n : NSrc),
    (acts (.skip x e) s x e false = true → leaves (.skip x e) s x.core (issuing s x e false))
    ∧ (let k := issuing s x e false
      nClean k n = true →
        (acts (.tinc x e t n) s x e false = true →
          leaves (.tinc x e t n) s x.core
            { k with tl := { k.tl with chg := k.tl.chg ++ [⟨t.form, tallyIdx t, .inc, nVal k n, e, k.kvi e x.word⟩] } })
        ∧ (acts (.tdec x e t n) s x e false = true →
          leaves (.tdec x e t n) s x.core
            { k with tl := { k.tl with chg := k.tl.chg ++ [⟨t.form, tallyIdx t, .dec, nVal k n, e, k.kvi e x.word⟩] } }))
    ∧ (let k := issuing s x .seq false
      nClean k n = true → acts (.tset x t n) s x .seq false = true →
        leaves (.tset x t n) s x.core
          { k with tl := { k.tl with chg := k.tl.chg ++ [⟨t.form, tallyIdx t, .set, nVal k n, .seq, k.kvi .seq x.word⟩] } })

/-- The tally changes of one ccyc apply when it ends: a lone increment adds n and saturates at 0xFFFF_FFFF, with the sticky
mark of an overflow; a lone decrement that the value covers subtracts n; one that would go below zero is not applied, stops
the core and raises TALLY_UNDERFLOW; a lone replacement stores n. No other tally changes. -/
def Sys2Proof.Claims.TallyChangesApplyAtTheEndOfTheCcyc : Prop :=
  ∀ (c : Core) (x : TChange), c.tl.chg = [x] →
    let k := tallyKey x.arrival x.idx
    let v := tget 0 c.tl.t k
    (∀ j, j ≠ k → tget 0 c.talliesEnd.tl.t j = tget 0 c.tl.t j)
    ∧ c.talliesEnd.tl.chg = []
    ∧ (x.kind = .set → tget 0 c.talliesEnd.tl.t k = x.n)
    ∧ (x.kind = .inc → (tget 0 c.talliesEnd.tl.t k).toNat = min (v.toNat + x.n.toNat) 0xFFFFFFFF)
    ∧ (x.kind = .inc → x.arrival = false → 0xFFFFFFFF < v.toNat + x.n.toNat →
      c.talliesEnd.tl.ovf = true ∧ c.talliesEnd.tl.ovfIdx = x.idx)
    ∧ (x.kind = .dec → x.n.toNat ≤ v.toNat →
      (tget 0 c.talliesEnd.tl.t k).toNat = v.toNat - x.n.toNat ∧ c.talliesEnd.flt = c.flt
        ∧ c.talliesEnd.rn = c.rn)
    ∧ (x.kind = .dec → v.toNat < x.n.toNat →
      tget 0 c.talliesEnd.tl.t k = v ∧ (c.rn.stop = .no → c.talliesEnd.rn.stop = .own)
        ∧ ∃ f, c.talliesEnd.flt = c.flt ++ [f] ∧ f.cls = 0x02 ∧ f.stop = true ∧ f.eng = x.eng.code
          ∧ f.spec1 = BitVec.ofNat 64 x.n.toNat)

/-- Tally operations hand over their change, and the changes of a ccyc apply when it ends. -/
def Obligations.TalliesCount : Prop :=
  TallyOperationsRecordTheirChange ∧ TallyChangesApplyAtTheEndOfTheCcyc

/-- A TWAIT whose tally has reached n, and a FENCE whose condition holds, take only their issue slot: they change no register, no
memory, no tally and nothing else. -/
def Sys2Proof.Claims.WaitsWhoseConditionHoldsPass : Prop :=
  ∀ (s : State) (x : Issue) (e : Engine) (t : TallyOp) (n tmo : W32) (fk : FenceKind) (sc : Scope),
    let k := issuing s x e false
    (acts (.twait x e t n tmo) s x e false = true → n.toNat ≤ (k.seenTally t.form (tallyIdx t)).toNat →
      leaves (.twait x e t n tmo) s x.core k)
    ∧ (acts (.fence x e fk sc) s x e false = true → k.fenceOk (s.env x.core) e (fenceCode fk) (scopeCode sc) = true →
      leaves (.fence x e fk sc) s x.core k)

/-- A TWAIT that is below n and may wait, and a FENCE whose condition does not hold: in a scheduled block they begin a hold of the
core, which they share where another engine holds it already; in a service block the engine alone waits. -/
def Sys2Proof.Claims.WaitsWhoseConditionFailsHold : Prop :=
  ∀ (s : State) (x : Issue) (e : Engine) (t : TallyOp) (n tmo : W32) (fk : FenceKind) (sc : Scope),
    let k := issuing s x e false
    let waits := fun (i : Instr) (w : Await) =>
      ∃ u, exec i s = .next u ∧ othersKept s u x.core
        ∧ (u.core x.core).regs = k.regs ∧ (u.core x.core).mem = k.mem ∧ (u.core x.core).tl.t = k.tl.t
        ∧ ∃ y : Wait, y.eng = e ∧ y.start = k.tm.now ∧ y.what = w
          ∧ (k.rn.mode ≠ 2 ∧ k.rn.hold = none → (u.core x.core).rn.hold = some y ∧ (u.core x.core).rn.waits = k.rn.waits)
          ∧ (k.rn.mode = 2 ∨ k.rn.hold ≠ none → (u.core x.core).rn.hold = k.rn.hold ∧ (u.core x.core).rn.waits = k.rn.waits ++ [y])
    (acts (.twait x e t n tmo) s x e false = true → (k.seenTally t.form (tallyIdx t)).toNat < n.toNat →
      k.tmo (tmoOf tmo.toNat) ≠ some 0 → waits (.twait x e t n tmo) (.tally t.form (tallyIdx t) n))
    ∧ (acts (.fence x e fk sc) s x e false = true → (k.rn.mode = 1 → k.rn.det = false ∧ scopeCode sc < 2) →
      k.fenceOk (s.env x.core) e (fenceCode fk) (scopeCode sc) = false →
      waits (.fence x e fk sc) (.fence (fenceCode fk) (scopeCode sc)))

/-- A guarded word whose guard does not let it act is suppressed: it writes nothing and raises nothing, but for the guard's
own read. -/
def Sys2Proof.Claims.SuppressedWordsDoNothing : Prop :=
  ∀ (s : State) (x : Issue) (f : Arith) (m : MemOp) (ecc : List EccObs) (d : BitVec 6) (imm : W64)
    (t : TallyOp) (n : NSrc) (w tmo : W32),
    let quiet := fun (i : Instr) (e : Engine) =>
      fit i s = true → (arrived s x e false).canIssue (s.env x.core) e = true → (guarded s x e false).2 = false →
        leaves i s x.core (issuing s x e false)
    quiet (.add x f) .seq ∧ quiet (.movi x d imm) .seq ∧ quiet (.st x m ecc) .seq ∧ quiet (.ld x m ecc) .seq
      ∧ (∀ e, quiet (.tinc x e t n) e ∧ quiet (.twait x e t w tmo) e)
      ∧ (∀ e slot r inc, quiet (.dgo x e slot r inc) e.engine)
      ∧ ∀ ctx r nw sb mc, quiet (.qsend x ctx r nw sb mc) .mse

/-- TWAIT and FENCE whose condition holds pass; a word that its guard suppresses does nothing. -/
def Obligations.WaitsPassAndSuppressedWordsDoNothing : Prop :=
  WaitsWhoseConditionHoldsPass ∧ SuppressedWordsDoNothing

/-! ### SEQ (06 R188 to R191) -/

/-- A word that writes S[D] in `lat` ccyc from S[A] and src2: each operand's poison goes to the result (00 R18). -/
def Sys2Proof.Claims.arithRow (i : Instr) (s : State) (x : Issue) (f : Arith) (lat : Nat) (op : W64 → W64 → W64) : Prop :=
  let k := issuing s x .seq false
  let a := sVal k f.a
  let b := srcVal k f
  acts i s x .seq false = true → clean k ⟨0, f.a.toNat⟩ = true → (f.i = true ∨ clean k ⟨0, f.b.toNat⟩ = true) →
    leaves i s x.core (writing k .seq (k.kvi .seq x.word) ⟨0, f.d.toNat⟩ lat (.s (op a.v b.v) (a.p || b.p)))

/-- ADD, SUB, AND, OR, XOR, SHL, SHR, SAR and MOVI write S[D] at issue + 1, MUL at issue + 4, with the values of R188, and
change no other register, no tally and no memory. -/
def Sys2Proof.Claims.ScalarArithmeticWritesItsResult : Prop :=
  ∀ (s : State) (x : Issue) (f : Arith) (d : BitVec 6) (imm : W64),
    arithRow (.add x f) s x f 1 (fun a b => a + b) ∧ arithRow (.sub x f) s x f 1 (fun a b => a - b)
    ∧ arithRow (.and x f) s x f 1 (fun a b => a &&& b) ∧ arithRow (.or x f) s x f 1 (fun a b => a ||| b)
    ∧ arithRow (.xor x f) s x f 1 (fun a b => a ^^^ b)
    ∧ arithRow (.shl x f) s x f 1 (fun a b => a <<< (b.toNat % 64))
    ∧ arithRow (.shr x f) s x f 1 (fun a b => a >>> (b.toNat % 64))
    ∧ arithRow (.sar x f) s x f 1 (fun a b => a.sshiftRight (b.toNat % 64))
    ∧ arithRow (.mul x f) s x f 4 (fun a b => a * b)
    ∧ (acts (.movi x d imm) s x .seq false = true →
      let k := issuing s x .seq false
      leaves (.movi x d imm) s x.core (writing k .seq (k.kvi .seq x.word) ⟨0, d.toNat⟩ 1 (.s imm false)))

/-- What FN of CMP compares (06 R188). -/
def Sys2Proof.Claims.compares (fn : BitVec 5) (a b : W64) : Prop :=
  match fn.toNat with
  | 0 => a = b
  | 1 => a ≠ b
  | 2 => a.toInt < b.toInt
  | 3 => b.toInt ≤ a.toInt
  | 4 => a.toNat < b.toNat
  | _ => b.toNat ≤ a.toNat

/-- What FN of PLOG computes (06 R188). -/
def Sys2Proof.Claims.combines (fn : BitVec 5) (a b : Bool) : Prop :=
  match fn.toNat with
  | 0 => a = true ∧ b = true
  | 1 => a = true ∨ b = true
  | 2 => a ≠ b
  | 3 => a = true ∧ b = false
  | _ => a = false

/-- CMP and PLOG write P[D] at issue + 1, SEL writes S[D]; nothing else changes. PLOG's NOT reads P[A] alone. -/
def Sys2Proof.Claims.ComparisonsWritePredicates : Prop :=
  ∀ (s : State) (x : Issue) (f : Arith) (fn : BitVec 5) (d a b : BitVec 6) (ps : BitVec 3),
    let k := issuing s x .seq false
    let kvi := k.kvi .seq x.word
    (acts (.cmp x f fn) s x .seq false = true → clean k ⟨0, f.a.toNat⟩ = true →
      (f.i = true ∨ clean k ⟨0, f.b.toNat⟩ = true) →
      ∃ r, (r = true ↔ compares fn (sVal k f.a).v (srcVal k f).v)
        ∧ leaves (.cmp x f fn) s x.core
          (writing k .seq kvi ⟨2, f.d.toNat⟩ 1 (.pr r ((sVal k f.a).p || (srcVal k f).p))))
    ∧ (acts (.plog x d a b fn) s x .seq false = true → clean k ⟨2, a.toNat⟩ = true →
      (fn = 4 ∨ clean k ⟨2, b.toNat⟩ = true) →
      ∃ r, (r = true ↔ combines fn (pVal k a.toNat).v (pVal k b.toNat).v)
        ∧ leaves (.plog x d a b fn) s x.core
          (writing k .seq kvi ⟨2, d.toNat⟩ 1 (.pr r ((pVal k a.toNat).p || (fn ≠ 4 && (pVal k b.toNat).p)))))
    ∧ (acts (.sel x f ps) s x .seq false = true → clean k ⟨0, f.a.toNat⟩ = true →
      (f.i = true ∨ clean k ⟨0, f.b.toNat⟩ = true) → clean k ⟨2, ps.toNat⟩ = true →
      leaves (.sel x f ps) s x.core
        (writing k .seq kvi ⟨0, f.d.toNat⟩ 1
          (.s (if (pVal k ps.toNat).v then (sVal k f.a).v else (srcVal k f).v)
            ((sVal k f.a).p || (srcVal k f).p || (pVal k ps.toNat).p))))

/-- AADD, AMOV and MOVIA write A[D], SFROMA and RDSYS write S[D], at issue + 1: A registers hold 48 bits, and their sums
wrap modulo 2^48; a system value is that of R182. Nothing else changes. -/
def Sys2Proof.Claims.AddressArithmeticWritesItsResult : Prop :=
  ∀ (s : State) (x : Issue) (f : Arith) (d a : BitVec 6) (imm : W64),
    let k := issuing s x .seq false
    let kvi := k.kvi .seq x.word
    (acts (.aadd x f) s x .seq false = true → clean k ⟨1, f.a.toNat⟩ = true →
      (f.i = true ∨ clean k ⟨0, f.b.toNat⟩ = true) →
      ∃ v : W48, v.toNat = ((aVal k f.a).v.toNat + (srcVal k f).v.toNat) % 2 ^ 48
        ∧ leaves (.aadd x f) s x.core
          (writing k .seq kvi ⟨1, f.d.toNat⟩ 1 (.a v ((aVal k f.a).p || (srcVal k f).p))))
    ∧ (acts (.amov x d a) s x .seq false = true → clean k ⟨0, a.toNat⟩ = true →
      leaves (.amov x d a) s x.core
        (writing k .seq kvi ⟨1, d.toNat⟩ 1 (.a ((sVal k a).v.extractLsb' 0 48) (sVal k a).p)))
    ∧ (acts (.sfroma x d a) s x .seq false = true → clean k ⟨1, a.toNat⟩ = true →
      leaves (.sfroma x d a) s x.core
        (writing k .seq kvi ⟨0, d.toNat⟩ 1 (.s ((aVal k a).v.setWidth 64) (aVal k a).p)))
    ∧ (acts (.movia x d imm) s x .seq false = true →
      leaves (.movia x d imm) s x.core (writing k .seq kvi ⟨1, d.toNat⟩ 1 (.a (imm.extractLsb' 0 48) false)))
    ∧ (acts (.rdsys x d imm) s x .seq false = true →
      ∃ v : W64, (imm = 0 → v = BitVec.ofNat 64 x.core) ∧ (imm = 1 → v = BitVec.ofNat 64 (s.fab.devId % 4096))
        ∧ (imm = 2 → v = BitVec.ofNat 64 (s.core x.core).rn.run) ∧ (imm = 3 → v = (s.job (s.core x.core).rn.job).seed)
        ∧ (imm = 4 → v = BitVec.ofNat 64 coreCap) ∧ (imm = 5 → v = BitVec.ofNat 64 scrSize)
        ∧ (imm = 6 → v = BitVec.ofNat 64 devCap0) ∧ (imm = 7 → v = BitVec.ofNat 64 devCap1)
        ∧ leaves (.rdsys x d imm) s x.core (writing k .seq kvi ⟨0, d.toNat⟩ 1 (.s v false)))

/-- The local address A[A] + OFF of a memory operation, modulo 2^48. -/
def Sys2Proof.Claims.localAddr (c : Core) (f : MemOp) : Nat := ((aVal c f.a).v + f.off.signExtend 48).toNat

/-- The access lies in the scratchpad and is aligned (05 R138, R143). -/
def Sys2Proof.Claims.inScratchpad (addr n : Nat) : Prop := addr < 0x2000000 ∧ addr % n = 0

/-- The bytes at a local address, as the core sees them. -/
def Sys2Proof.Claims.bytesAt (c : Core) (addr n : Nat) : List Byte := readBytes c.mem addr n

/-- LD writes S[D], and LDA writes A[D], L + 1 ccyc after issue with the bytes at A[A] + OFF, zero- or sign-extended; they use
one read port of the line in the ccyc of issue, store nothing and change no other register. -/
def Sys2Proof.Claims.LoadsReadTheirBytes : Prop :=
  ∀ (s : State) (x : Issue) (f : MemOp),
    let k := issuing s x .seq false
    let kvi := k.kvi .seq x.word
    let addr := localAddr k f
    let n := 2 ^ f.size.toNat
    let line := addr / 256
    let read := { k with ck := { k.ck with acc := k.ck.acc ++ [⟨k.tm.p, .seq, false, line, kvi, none⟩] } }
    let bad := tget false k.pois line || (aVal k f.a).p
    clean k ⟨1, f.a.toNat⟩ = true → clean k ⟨5, line⟩ = true → inScratchpad addr n →
    (acts (.ld x f []) s x .seq false = true →
      ∃ v : W64, v = (if f.sx then BitVec.ofInt 64 (sext (leVal (bytesAt k addr n)) (8 * n))
          else BitVec.ofNat 64 (leVal (bytesAt k addr n)))
        ∧ leaves (.ld x f []) s x.core
          (writing read .seq kvi ⟨0, f.d.toNat⟩ (readLat f.rl line + 1) (.s v bad)))
    ∧ (acts (.lda x f []) s x .seq false = true →
      leaves (.lda x f []) s x.core
        (writing read .seq kvi ⟨1, f.d.toNat⟩ (readLat f.rl line + 1)
          (.a (BitVec.ofNat 48 (leVal (bytesAt k addr 8))) bad)))

/-- ST and STA write the low bytes of S[B], or A[B] zero-extended to 8 bytes, at A[A] + OFF: one write under way, seen two
ccyc after issue, with one write port of the line in the ccyc of issue. Nothing else changes. -/
def Sys2Proof.Claims.StoresWriteTheirBytes : Prop :=
  ∀ (s : State) (x : Issue) (f : MemOp),
    let k := issuing s x .seq false
    let kvi := k.kvi .seq x.word
    let addr := localAddr k f
    let n := 2 ^ f.size.toNat
    let line := addr / 256
    let put := fun (v : Nat) (p : Bool) =>
      let c := writing k .seq kvi ⟨5, line⟩ 2 (.bytes (addr % 256) (leBytes v n) (p || (aVal k f.a).p))
      { c with ck := { c.ck with acc := c.ck.acc ++ [⟨k.tm.p, .seq, true, line, kvi, some k.ids⟩] } }
    clean k ⟨1, f.a.toNat⟩ = true → inScratchpad addr n →
    (acts (.st x f []) s x .seq false = true → clean k ⟨0, f.b.toNat⟩ = true →
      leaves (.st x f []) s x.core (put (sVal k f.b).v.toNat (sVal k f.b).p))
    ∧ (acts (.sta x f []) s x .seq false = true → clean k ⟨1, f.b.toNat⟩ = true →
      leaves (.sta x f []) s x.core (put (aVal k f.b).v.toNat (aVal k f.b).p))

/-- The memory operations of SEQ on the scratchpad. -/
def Obligations.LoadsAndStoresReachTheScratchpad : Prop :=
  LoadsReadTheirBytes ∧ StoresWriteTheirBytes

/-- A write under way that takes effect changes its register, or its bytes of one line, and nothing else: every other
register of the file, every other file and every byte outside the stored ones read as before. -/
def Sys2Proof.Claims.WritesTakeEffectAlone : Prop :=
  ∀ (c : Core) (w : PWrite), c.rn.audit = false →
    (∀ v p, w.pay = .s v p →
      tget ⟨0, false⟩ (c.commit w).regs.s w.res.index = ⟨v, p⟩
      ∧ (∀ j, j ≠ w.res.index → tget ⟨0, false⟩ (c.commit w).regs.s j = tget ⟨0, false⟩ c.regs.s j)
      ∧ { c.commit w with regs := { (c.commit w).regs with s := c.regs.s } } = c)
    ∧ (∀ v p, w.pay = .a v p →
      tget ⟨0, false⟩ (c.commit w).regs.a w.res.index = ⟨v, p⟩
      ∧ (∀ j, j ≠ w.res.index → tget ⟨0, false⟩ (c.commit w).regs.a j = tget ⟨0, false⟩ c.regs.a j)
      ∧ { c.commit w with regs := { (c.commit w).regs with a := c.regs.a } } = c)
    ∧ (∀ v p, w.pay = .pr v p →
      tget ⟨false, false⟩ (c.commit w).regs.p w.res.index = ⟨v, p⟩
      ∧ (∀ j, j ≠ w.res.index → tget ⟨false, false⟩ (c.commit w).regs.p j = tget ⟨false, false⟩ c.regs.p j)
      ∧ { c.commit w with regs := { (c.commit w).regs with p := c.regs.p } } = c)
    ∧ (∀ off d p, w.pay = .bytes off d p → off < 256 → off + d.length ≤ 256 →
      let a := 256 * w.res.index + off
      bytesAt (c.commit w) a d.length = d
      ∧ (∀ j, j < a ∨ a + d.length ≤ j → tget 0 (c.commit w).mem j = tget 0 c.mem j)
      ∧ (∀ l, l ≠ w.res.index → tget false (c.commit w).pois l = tget false c.pois l)
      ∧ tget false (c.commit w).pois w.res.index =
        (if p then true else if d.length = 256 then false else tget false c.pois w.res.index)
      ∧ { c.commit w with mem := c.mem, pois := c.pois } = c)

/-- The value that an ATOM leaves (06 R189): the operation is on `8 n` bits. -/
def Sys2Proof.Claims.atomOf (aop : BitVec 3) (sgn : Bool) (n : Nat) (old b c : Nat) : Nat :=
  let below := fun (u v : Nat) => if sgn then sext u (8 * n) < sext v (8 * n) else u < v
  match aop.toNat with
  | 0 => (old + b) % 2 ^ (8 * n)
  | 1 => if below b old then b else old
  | 2 => if below old b then b else old
  | 3 => b
  | _ => if old = c then b else old

/-- ATOM writes S[D] with the old value at issue + L + 1 and the new one to its bytes, seen at issue + L + 3; it reads the line
at issue and writes it at issue + L + 1. -/
def Sys2Proof.Claims.AtomReadsAndWritesItsBytes : Prop :=
  ∀ (s : State) (x : Issue) (f : MemOp) (aop : BitVec 3) (sgn : Bool) (cr : BitVec 6),
    let k := issuing s x .seq false
    let kvi := k.kvi .seq x.word
    let addr := localAddr k f
    let n := 2 ^ f.size.toNat
    let line := addr / 256
    let lat := readLat f.rl line
    let old := leVal (bytesAt k addr n)
    let new := atomOf aop sgn n old ((sVal k f.b).v.toNat % 2 ^ (8 * n)) ((sVal k cr).v.toNat % 2 ^ (8 * n))
    let bad := tget false k.pois line || (aVal k f.a).p
    let badNew := bad || (sVal k f.b).p || (aop = 4 && (sVal k cr).p)
    acts (.atom x f aop sgn cr []) s x .seq false = true →
    clean k ⟨1, f.a.toNat⟩ = true → clean k ⟨0, f.b.toNat⟩ = true → (aop ≠ 4 ∨ clean k ⟨0, cr.toNat⟩ = true) →
    clean k ⟨5, line⟩ = true → inScratchpad addr n →
    ∃ u, exec (.atom x f aop sgn cr []) s = .next u ∧ othersKept s u x.core
      ∧ (u.core x.core).regs = k.regs ∧ (u.core x.core).mem = k.mem ∧ (u.core x.core).tl = k.tl
      ∧ (u.core x.core).pend = k.pend ++
        [⟨k.ids, ⟨0, f.d.toNat⟩, k.tm.p, k.tm.p + lat + 1, .seq, kvi, .s (BitVec.ofNat 64 old) bad, false⟩,
          ⟨k.ids + 1, ⟨5, line⟩, k.tm.p, k.tm.p + lat + 3, .seq, kvi, .bytes (addr % 256) (leBytes new n) badNew, false⟩]
      ∧ (u.core x.core).ck.acc = k.ck.acc ++
        [⟨k.tm.p, .seq, false, line, kvi, none⟩, ⟨k.tm.p + lat + 1, .seq, true, line, kvi, some (k.ids + 1)⟩]

/-- Writes under way, and ATOM. -/
def Obligations.WritesAndAtomsTakeEffect : Prop :=
  WritesTakeEffectAlone ∧ AtomReadsAndWritesItsBytes

/-- BR chooses the block that follows: TGT_T when its condition holds, TGT_F when not. It writes no register and no
memory. -/
def Sys2Proof.Claims.BranchChoosesItsTarget : Prop :=
  ∀ (s : State) (x : Issue) (cond : BitVec 2) (sr : BitVec 6) (pr : BitVec 3) (tgtT tgtF : BitVec 16),
    let k := issuing s x .seq false
    let holds := match cond.toNat with
      | 0 => (sVal k sr).v = 0
      | 1 => (sVal k sr).v ≠ 0
      | 2 => 2 ^ 63 ≤ (sVal k sr).v.toNat
      | _ => (pVal k pr.toNat).v = true
    acts (.br x cond sr pr tgtT tgtF) s x .seq false = true →
    (if cond = 3 then clean k ⟨2, pr.toNat⟩ = true else clean k ⟨0, sr.toNat⟩ = true) →
    (holds → leaves (.br x cond sr pr tgtT tgtF) s x.core { k with rn := { k.rn with succ := some tgtT.toNat } })
    ∧ (¬ holds → leaves (.br x cond sr pr tgtT tgtF) s x.core { k with rn := { k.rn with succ := some tgtF.toNat } })

/-- The scalar operations of SEQ on registers, and BR. -/
def Obligations.ScalarOperationsWriteTheirResults : Prop :=
  ScalarArithmeticWritesItsResult ∧ ComparisonsWritePredicates ∧ AddressArithmeticWritesItsResult ∧ BranchChoosesItsTarget

/-- A memory operation outside the scratchpad, or misaligned, stops the core with ADDR: cause 3 or 4; it reads and writes
nothing. -/
def Sys2Proof.Claims.BadLocalAddressStopsTheCore : Prop :=
  ∀ (s : State) (x : Issue) (f : MemOp) (ecc : List EccObs),
    let k := issuing s x .seq false
    let addr := localAddr k f
    let n := 2 ^ f.size.toNat
    let stops := fun (i : Instr) =>
      acts i s x .seq false = true → clean k ⟨1, f.a.toNat⟩ = true → k.rn.stop = .no → ¬ inScratchpad addr n →
        ∃ u, exec i s = .next u ∧ othersKept s u x.core ∧ (u.core x.core).rn.stop = .own
          ∧ (u.core x.core).regs = k.regs ∧ (u.core x.core).mem = k.mem
    stops (.ld x f ecc) ∧ stops (.lda x f ecc)
      ∧ (clean k ⟨0, f.b.toNat⟩ = true → stops (.st x f ecc)) ∧ (clean k ⟨1, f.b.toNat⟩ = true → stops (.sta x f ecc))

/-! ### MXE (03, 06 R192) -/

/-- The line number of a line operand (06 R183), and whether its A register is poisoned. -/
def Sys2Proof.Claims.lineOf (c : Core) (l : LineOp) (line : BitVec 17) : Nat :=
  ((if l.aen then (aVal c l.areg).v.toNat / 256 % 2 ^ 17 else 0) + line.toNat) % 131072

def Sys2Proof.Claims.lineMark (c : Core) (l : LineOp) : Bool := l.aen && (aVal c l.areg).p

def Sys2Proof.Claims.lineClean (c : Core) (l : LineOp) : Bool := !l.aen || clean c ⟨1, l.areg.toNat⟩

/-- An operation of the array enters 16 ccyc ahead of its stamp: it is under way, its first operand line is read four ccyc
on, and the event at its stamp is `ev`. -/
def Sys2Proof.Claims.entersArray (i : Instr) (s : State) (x : Issue) (l : LineOp) (line sline : BitVec 17) (kind fmt : Nat)
    (mx : Bool) (n row : Nat) (acc : Bool) (sa : Int) (lines scales : Nat) (ev : Nat → PEv) : Prop :=
  let k := issuing s x .mxe true
  let at0 := lineOf k l line
  let at1 := lineOf k l sline
  acts i s x .mxe true = true → k.rn.mode = 1 → lineClean k l = true → at0 + lines ≤ 131072 →
    (mx = true → at1 + scales ≤ 131072) →
    ∃ u, exec i s = .next u ∧ othersKept s u x.core
      ∧ (u.core x.core).mx.ops.length = k.mx.ops.length + 1
      ∧ (mx = false → ∃ o, (u.core x.core).mx.ops = k.mx.ops ++ [o]
        ∧ o.id = k.ids ∧ o.kind = kind ∧ o.stamp = k.tm.p + 16 ∧ o.fmt = fmt ∧ o.mx = false ∧ o.line = at0
        ∧ o.n = n ∧ o.row = row ∧ o.acc = acc ∧ o.sa = sa ∧ o.lines = [] ∧ o.bad = false
        ∧ (u.core x.core).pev = k.pev ++ [(k.tm.p + 4, .feed k.ids false 0), (k.tm.p + 16, ev k.ids)])
      ∧ (k.tm.p + 4, .feed k.ids false 0) ∈ (u.core x.core).pev ∧ (k.tm.p + 16, ev k.ids) ∈ (u.core x.core).pev
      ∧ (u.core x.core).regs = k.regs ∧ (u.core x.core).mem = k.mem ∧ (u.core x.core).mx.beam = k.mx.beam
      ∧ (u.core x.core).mx.tile = k.mx.tile ∧ (u.core x.core).tl.t = k.tl.t

/-- Weight rows in a line of a format (03 R73), and lines of an operand: 128 rows, or `n` vectors. -/
def Sys2Proof.Claims.perLine (fmt : Nat) : Nat := if fmt ≤ 2 ∨ fmt = 5 ∨ fmt = 6 then 2 else 1

/-- MLDW, MMUL and MRAW enter the array: their feed reads its first operand line at the stamp less 12, and their event comes
at the stamp. They change no register, no memory, no beam entry and no tally at that point. -/
def Obligations.ArrayOperationsEnterTheirFeed : Prop :=
  ∀ (s : State) (x : Issue) (l : LineOp) (fmt : BitVec 4) (sline : BitVec 17) (mx acc : Bool) (nm1 row : BitVec 9)
    (sa : BitVec 12) (rods : List RodError),
    (∀ wl, (wl = 128 / perLine fmt.toNat) →
      entersArray (.mldw x l fmt mx sline []) s x l l.line sline 0 fmt.toNat mx 0 0 false 0 wl
        (if fmt.toNat = 3 ∨ fmt.toNat = 4 ∨ fmt.toNat = 5 ∨ fmt.toNat = 6 then 4 else 2) .loadBegin)
    ∧ (∀ il, il = (nm1.toNat + perLine fmt.toNat) / perLine fmt.toNat →
      entersArray (.mmul x l fmt mx sline nm1 row acc [] rods) s x l l.line sline 1 fmt.toNat mx (nm1.toNat + 1) row.toNat acc 0
        il (if fmt.toNat = 3 ∨ fmt.toNat = 4 ∨ fmt.toNat = 5 ∨ fmt.toNat = 6 then (nm1.toNat + 32) / 32
          else (nm1.toNat + 64) / 64) fun id => .vector id 0)
    ∧ entersArray (.mraw x l sa row []) s x l l.line 0 2 0 false 1 row.toNat true sa.toInt 8 0 fun id => .vector id 0

/-- Input vector q of an operation that enters the array in ccyc p sends a whole row of results to beam row (r0 + q) mod 512
at p + 262, or p + 270 for the 16-bit class, and the next vector follows in 1 ccyc, or 4. -/
def Sys2Proof.Claims.InputVectorsReachTheBeam : Prop :=
  ∀ (c : Core) (o : MxOp) (q : Nat), c.mxOp o.id = some o → o.kind = 1 → q + 1 < o.n →
    let wide := o.fmt = 8 ∨ o.fmt = 9
    ∃ cols faults, (cols = [] ∨ cols.length = 128)
      ∧ (c.vector o.id q).pev = c.pev ++
        [(c.tm.p + (if wide then 270 else 262), .beam ((o.row + q) % 512) o.acc cols faults o.kvi),
          (c.tm.p + (if wide then 4 else 1), .vector o.id (q + 1))]
      ∧ (c.vector o.id q).mx.vecs = c.mx.vecs + 1 ∧ (c.vector o.id q).mx.beam = c.mx.beam

/-- A row of results that reaches the beam replaces each of its 128 entries in CLEAR mode, and in ACC mode adds to it: in an
FP32 tile by one binary32 addition, the poison marks combining by OR. No other entry changes. -/
def Sys2Proof.Claims.ResultsLandInTheirBeamRow : Prop :=
  ∀ (c : Core) (row kvi : Nat) (acc : Bool) (cols : List ColRes), cols.length = 128 → row < 512 →
    (tget TileMode.reset c.mx.modes (row / 64)).fp32 = true →
    let u := c.beamEvent (.beam row acc cols [] kvi)
    (∀ k, k / 128 ≠ row → tget Entry.zero u.mx.beam k = tget Entry.zero c.mx.beam k)
    ∧ ∀ (j : Nat) (hj : j < cols.length),
      let old := tget Entry.zero c.mx.beam (128 * row + j)
      let new := tget Entry.zero u.mx.beam (128 * row + j)
      new.x = (if acc then f32Add (old.x.truncate 32) cols[j].sum else cols[j].sum).setWidth 128
        ∧ new.poison = ((acc && old.poison) || cols[j].poison) ∧ new.inexact = false ∧ new.tag = .none

/-- What the array computes, and where its results land. -/
def Obligations.VectorsReachTheBeam : Prop :=
  InputVectorsReachTheBeam ∧ ResultsLandInTheirBeamRow

/-- MANC and MCLR take effect at the end of their issue ccyc: the tile is in exact mode with its anchor, or in FP32 mode, and
every entry of it is zero, without INEXACT, tag and poison; no other tile changes. At the start of a
run every tile is in FP32 mode and cleared. -/
def Obligations.TileClearsTakeEffect : Prop :=
  (∀ (s : State) (x : Issue) (tile : BitVec 3) (anchor : BitVec 12),
    let k := issuing s x .mxe false
    k.rn.mode = 1 →
    (acts (.mclr x tile) s x .mxe false = true →
      leaves (.mclr x tile) s x.core { k with pev := k.pev ++ [(k.tm.p, .clear tile.toNat ⟨true, 0⟩)] })
    ∧ (acts (.manc x tile anchor) s x .mxe false = true →
      leaves (.manc x tile anchor) s x.core
        { k with pev := k.pev ++ [(k.tm.p, .clear tile.toNat ⟨false, anchor.toInt⟩)] }))
  ∧ ∀ (c : Core) (tile : Nat) (m : TileMode), c.pev = [(c.tm.p, .clear tile m)] →
    (∀ k, k / 8192 = tile → tget Entry.zero c.beamEnd.mx.beam k = Entry.zero)
    ∧ (∀ k, k / 8192 ≠ tile → tget Entry.zero c.beamEnd.mx.beam k = tget Entry.zero c.mx.beam k)
    ∧ tget TileMode.reset c.beamEnd.mx.modes tile = m
    ∧ (∀ t, t ≠ tile → tget TileMode.reset c.beamEnd.mx.modes t = tget TileMode.reset c.mx.modes t)
    ∧ c.beamEnd.pev = [] ∧ c.beamEnd.regs = c.regs ∧ c.beamEnd.mem = c.mem
  ∧ ∀ (c : Core) (env : Env) (n gap : Nat),
    (∀ k, tget Entry.zero (c.enterRun env n gap).mx.beam k = Entry.zero)
    ∧ ∀ t, (tget TileMode.reset (c.enterRun env n gap).mx.modes t).fp32 = true

/-- MOUT writes its beam row to slot h of each column of Vd, ready at issue + 4 (FP32, BF16), or to all four slots of Vd and
Vd + 1, ready at issue + 4 and + 5 (RAW); an FP32 entry gives its own bits. MFLG writes the INEXACT flags of a tile to Vd,
ready at issue + 4. Nothing else changes. -/
def Obligations.BeamOutputsReachVRegisters : Prop :=
  ∀ (s : State) (x : Issue) (row : BitVec 9) (vd : BitVec 6) (ofmt : BitVec 2) (half : Bool) (tile : BitVec 3),
    let k := issuing s x .mxe false
    let kvi := k.kvi .mxe x.word
    let en := fun (j : Nat) => tget Entry.zero k.mx.beam (128 * row.toNat + j)
    let m := tget TileMode.reset k.mx.modes (row.toNat / 64)
    k.rn.mode = 1 →
    (acts (.mout x row vd ofmt half) s x .mxe false = true → ofmt ≠ 2 →
      ∃ lanes, leaves (.mout x row vd ofmt half) s x.core (writing k .mxe kvi ⟨3, vd.toNat⟩ 4 (.lanes lanes))
        ∧ lanes.length = 128
        ∧ ∀ j, j < 128 → ∃ v, (2 * j + (if half then 1 else 0), Lane.mk v (en j).poison) ∈ lanes
          ∧ (m.fp32 = true → ofmt = 0 → v = (en j).x.truncate 32)
          ∧ (ofmt = 0 → v = outF32 m.fp32 m.anchor (en j)) ∧ (ofmt = 1 → v = outBf16 m.fp32 m.anchor (en j)))
    ∧ (acts (.mout x row vd 2 half) s x .mxe false = true →
      ∃ l0 l1, leaves (.mout x row vd 2 half) s x.core
          (let c := writing k .mxe kvi ⟨3, vd.toNat⟩ 4 (.lanes l0)
           writing c .mxe kvi ⟨3, vd.toNat + 1⟩ 5 (.lanes l1))
        ∧ ∀ j w, j < 128 → w < 4 →
          ∃ v, (2 * j + w % 2, Lane.mk v (en j).poison) ∈ (if w < 2 then l0 else l1)
            ∧ (m.fp32 = true → v = if w = 0 then (en j).x.truncate 32 else 0)
            ∧ (m.fp32 = false → (en j).tag = .none → v = (en j).x.extractLsb' (32 * w) 32))
    ∧ (acts (.mflg x tile vd) s x .mxe false = true →
      ∃ lanes, leaves (.mflg x tile vd) s x.core (writing k .mxe kvi ⟨3, vd.toNat⟩ 4 (.lanes lanes))
        ∧ ∀ j h, j < 128 → h < 2 → ∃ v : W32, (2 * j + h, Lane.mk v false) ∈ lanes
          ∧ ∀ b, b < 32 → v.getLsbD b = (tget Entry.zero k.mx.beam (128 * (64 * tile.toNat + 32 * h + b) + j)).inexact)

/-! ### VXE (04, 05 R145 to R147, 06 R194 to R197) -/

/-- The core as a word of the VXE with a line operand finds it: the use of a poisoned A register is counted. -/
def Sys2Proof.Claims.vxBase (k : Core) (mark : Bool) : Core :=
  { k with vx := { k.vx with
    svc := k.rn.mode = 2, poisCnt := if mark then satAdd k.vx.poisCnt 1 else k.vx.poisCnt } }

/-- The core with reads of lines by the VXE in this ccyc, for the next write. -/
def Sys2Proof.Claims.vxReads (c : Core) (kvi : Nat) (ls : List Nat) : Core :=
  { c with ck := { c.ck with acc := c.ck.acc ++ ls.map fun l => ⟨c.tm.p, .vxe, false, l, kvi, some c.ids⟩ } }

/-- The core with a read of lines under way for register `r`: one write of the V register file in a ccyc is a VLD's (04 R132). -/
def Sys2Proof.Claims.loading (c : Core) (kvi : Nat) (r : Res) (lat : Nat) (l : List (Nat × Lane)) : Core :=
  { c with pend := c.pend ++ [⟨c.ids, r, c.tm.p, c.tm.p + lat, .vxe, kvi, .lanes l, r.kind == 3⟩], ids := c.ids + 1 }

/-- The four lines of the geometries ROW and COL (04 R109). -/
def Sys2Proof.Claims.fourFrom (n : Nat) (col : Bool) : List Nat :=
  if col then [n, n + 64, n + 128, n + 192] else [n, n + 1, n + 2, n + 3]

/-- The greatest read latency of four lines (05 R140). -/
def Sys2Proof.Claims.slowest (rl : Bool) (ls : List Nat) : Nat := ls.foldl (fun m l => max m (readLat rl l)) 0

/-- Byte j of what lanes write is `b`, in a lane marked `p`: lane j / 4 holds bytes 4 (j / 4) and on. -/
def Sys2Proof.Claims.laneByte (lanes : List (Nat × Lane)) (j : Nat) (b : Byte) (p : Bool) : Prop :=
  ∃ v : W32, (j / 4, Lane.mk v p) ∈ lanes ∧ v.extractLsb' (8 * (j % 4)) 8 = b

/-- VLD and OCFILL of a row or column read four lines at issue and write their bytes, in order, to a V register ready at issue
+ Lmax + 1, or to an operand-cache entry ready at issue + Lmax + 2; the strided form writes element 64 k + m of width w from
the bytes of line k at B0 + 4 m, and 0 beyond its 256 elements. Each lane has the marks of its lines and of the address.
Nothing else changes. In service mode, where a line may have to wait for its port (05 R144), 256 lanes are on their way to the
register. -/
def Sys2Proof.Claims.VectorLoadsReadTheirLines : Prop :=
  ∀ (s : State) (x : Issue) (v : BitVec 6) (e : BitVec 9) (l : LineOp) (col rl : Bool) (stride : BitVec 14) (w b0 : BitVec 2)
    (d : VDest),
    let k := issuing s x .vxe false
    let kvi := k.kvi .vxe x.word
    let n := lineOf k l l.line
    let mark := lineMark k l
    let loads := fun (i : Instr) (ls : List Nat) (r : Res) (extra : Nat) (byte : Nat → Byte)
        (bad : Nat → Bool) =>
      acts i s x .vxe false = true → lineClean k l = true →
        (k.rn.mode = 1 → (∀ y ∈ ls, clean k ⟨5, y⟩ = true) →
          ∃ lanes, leaves i s x.core (loading (vxReads (vxBase k mark) kvi ls) kvi r (slowest rl ls + extra) lanes)
            ∧ lanes.length = 256 ∧ ∀ j, j < 1024 → laneByte lanes j (byte j) (bad j))
        ∧ (k.rn.mode = 2 → ∃ u w lanes, exec i s = .next u ∧ othersKept s u x.core ∧ w ∈ (u.core x.core).pend
          ∧ w.res = r ∧ w.eng = .vxe ∧ w.pay = .lanes lanes ∧ lanes.length = 256)
    let ls := fourFrom n col
    let image := fun (j : Nat) => tget 0 k.mem (256 * ls.getD (j / 256) 0 + j % 256)
    let marks := fun (j : Nat) => tget false k.pois (ls.getD (j / 256) 0) || mark
    let sl := [n, ((n : Int) + stride.toInt).toNat, ((n : Int) + 2 * stride.toInt).toNat, ((n : Int) + 3 * stride.toInt).toNat]
    let wd := if w = 0 then 4 else if w = 1 then 2 else 1
    let strided := fun (j : Nat) =>
      if j < 256 * wd then
        let m := j / wd
        tget 0 k.mem (256 * sl.getD (m / 64) 0 + b0.toNat + 4 * (m % 64) + j % wd)
      else (0 : Byte)
    let smarks := fun (j : Nat) => j < 256 * wd && (tget false k.pois (sl.getD (j / wd / 64) 0) || mark)
    ((if col then n / 64 ≤ 2044 else n % 64 ≤ 60) →
      loads (.vld x v l col rl []) ls ⟨3, v.toNat⟩ 1 image marks
        ∧ loads (.ocfill x e l col rl []) ls ⟨4, e.toNat⟩ 2 image marks)
    ∧ (0 ≤ (n : Int) + stride.toInt → 0 ≤ (n : Int) + 3 * stride.toInt → (n : Int) + stride.toInt < 131072 →
      (n : Int) + 3 * stride.toInt < 131072 →
      loads (.vldStrided x d l stride w b0 rl []) sl (match d with | .v r => ⟨3, r.toNat⟩ | .oc e => ⟨4, e.toNat⟩)
        (match d with | .v _ => 1 | .oc _ => 2) strided smarks)

/-- The transposing form of VLD reads its first four lines at issue, and writes V registers Vd to Vd + 15, register Vd + k
ready at issue + 30 + k. With 32-bit elements the tile of 64 lines that it reads becomes its transpose: lane 64 u + i of
register k is element 4 k + u of line i. -/
def Sys2Proof.Claims.TransposingLoadWritesSixteenRegisters : Prop :=
  (∀ (s : State) (x : Issue) (v : BitVec 6) (l : LineOp) (tw : BitVec 2) (tshape rl : Bool),
    let k := issuing s x .vxe false
    let kvi := k.kvi .vxe x.word
    let n := lineOf k l l.line
    let ls := (List.range 64).map fun i => n + (if tshape then 64 * i else i)
    acts (.vldTranspose x v l tw tshape rl []) s x .vxe false = true → lineClean k l = true →
    (if tshape then n / 64 + 64 ≤ 2048 else n % 64 = 0) →
    ∃ u op, exec (.vldTranspose x v l tw tshape rl []) s = .next u ∧ othersKept s u x.core
      ∧ (u.core x.core).pend = k.pend ++ (List.range 16).map (fun j =>
        ⟨k.ids + j, ⟨3, v.toNat + j⟩, k.tm.p, k.tm.p + 30 + j, .vxe, kvi, .lanes [], true⟩)
      ∧ (u.core x.core).vx.tr.length = k.vx.tr.length + 1 ∧ op ∈ (u.core x.core).vx.tr
      ∧ op.dests = (List.range 16).map (fun j => k.ids + j) ∧ op.src = ls ∧ op.tw = tw.toNat
      ∧ (u.core x.core).regs = k.regs ∧ (u.core x.core).mem = k.mem ∧ (u.core x.core).tl.t = k.tl.t)
  ∧ ∀ (ls : List LineVal) (k u i : Nat), ls.length = 64 → k < 16 → u < 4 → i < 64 →
    ∃ p, (64 * u + i, Lane.mk ((ls.getD i LineVal.zero).v.extractLsb' (32 * (4 * k + u)) 32) p) ∈ transposedReg 0 k ls

/-- The loads of V registers and operand-cache entries. -/
def Obligations.VectorLoadsWriteTheirRegisters : Prop :=
  VectorLoadsReadTheirLines ∧ TransposingLoadWritesSixteenRegisters

/-- VST writes Vs, read at issue, to four lines: lines 0 and 1 at issue, lines 2 and 3 in the next ccyc, each seen two ccyc
after its write; a line is poisoned when one of its 64 lanes is. OCPUT copies Vs to an entry with its marks, ready at issue +
2. LUTLD makes the entry, with its bounds, the activation table in two ccyc. Nothing else changes. -/
def Obligations.VectorStoresAndTables : Prop :=
  ∀ (s : State) (x : Issue) (v : BitVec 6) (e : BitVec 9) (l : LineOp) (col : Bool) (slo shi : BitVec 6),
    let k := issuing s x .vxe false
    let kvi := k.kvi .vxe x.word
    let n := lineOf k l l.line
    let lane := fun (i : Nat) => tget Lane.zero k.regs.v (256 * v.toNat + i)
    let oc := fun (i : Nat) => tget Lane.zero k.regs.oc (256 * e.toNat + i)
    let line := fun (u : Nat) => (fourFrom n col).getD u 0
    let data := fun (u : Nat) => (List.range 64).flatMap fun i => leBytes (lane (64 * u + i)).v.toNat 4
    let marked := fun (u : Nat) => (List.range 64).any (fun i => (lane (64 * u + i)).p) || lineMark k l
    (acts (.vst x v l col) s x .vxe false = true → clean k ⟨3, v.toNat⟩ = true → lineClean k l = true →
      (if col then n / 64 ≤ 2044 else n % 64 ≤ 60) →
      ∃ u, exec (.vst x v l col) s = .next u ∧ othersKept s u x.core
        ∧ (u.core x.core).regs = k.regs ∧ (u.core x.core).mem = k.mem ∧ (u.core x.core).tl = k.tl
        ∧ (u.core x.core).pend = k.pend ++ (List.range 4).map (fun j =>
          ⟨k.ids + j, ⟨5, line j⟩, k.tm.p + j / 2, k.tm.p + j / 2 + 2, .vxe, kvi, .bytes 0 (data j) (marked j), false⟩)
        ∧ (u.core x.core).ck.acc = k.ck.acc ++ (List.range 4).map (fun j =>
          ⟨k.tm.p + j / 2, .vxe, true, line j, kvi, some (k.ids + j)⟩))
    ∧ (acts (.ocput x v e) s x .vxe false = true → clean k ⟨3, v.toNat⟩ = true →
      leaves (.ocput x v e) s x.core
        (writing (vxBase k false) .vxe kvi ⟨4, e.toNat⟩ 2 (.lanes ((List.range 256).map fun i => (i, lane i)))))
    ∧ (acts (.lutld x slo shi e) s x .vxe false = true → clean k ⟨0, slo.toNat⟩ = true → clean k ⟨0, shi.toNat⟩ = true →
      clean k ⟨4, e.toNat⟩ = true → (sVal k slo).p = false → (sVal k shi).p = false →
      ∃ t, leaves (.lutld x slo shi e) s x.core
          { vxBase k false with pev := k.pev ++ [(k.tm.p + 2, .lut t)] }
        ∧ t.lo = (sVal k slo).v.truncate 32 ∧ t.hi = (sVal k shi).v.truncate 32
        ∧ t.knots = (List.range 256).map oc)

/-- VOP takes its chain one ccyc ahead of its stamp: V[VD] is ready at the stamp + 2 + the sum of the stage latencies, and
S[SD], where RED names one, two ccyc later; the chain issues at its stamp. It changes no register and no memory before. -/
def Sys2Proof.Claims.ChainsAreTakenForTheirStamp : Prop :=
  ∀ (s : State) (x : Issue) (f : VopFields) (word : Nat),
    let k := issuing s x .vxe true
    let kvi := k.kvi .vxe x.word
    let ch := chainOf word
    let lat := (ch.stages.map fun st => [2, 3, 3, 1, 6, 2, 8, 3].getD st 3).sum
    acts (.vop x f) s x .vxe true = true → (s.env x.core).img.chains[f.chain.toNat]? = some word →
    ∃ u o pay, exec (.vop x f) s = .next u ∧ othersKept s u x.core
      ∧ (u.core x.core).regs = k.regs ∧ (u.core x.core).mem = k.mem ∧ (u.core x.core).tl = k.tl
      ∧ (u.core x.core).pend = k.pend
        ++ [⟨k.ids, ⟨3, f.vd.toNat⟩, k.tm.p + 1, k.tm.p + 1 + 2 + lat, .vxe, kvi, pay, false⟩]
        ++ (if f.sde ∧ 6 ∈ ch.stages then
          [⟨k.ids + 1, ⟨0, f.sd.toNat⟩, k.tm.p + 1, k.tm.p + 1 + 4 + lat, .vxe, kvi, .s 0 false, false⟩] else [])
      ∧ (u.core x.core).vx.ops = k.vx.ops ++ [o] ∧ o.stamp = k.tm.p + 1 ∧ o.chain = ch ∧ o.f = f ∧ o.guard = x.guard
      ∧ (k.tm.p + 1, .stage o.id 0) ∈ (u.core x.core).pev

/-- What stages compute, lane by lane: MUL, and ADD in its three forms, are one binary32 operation rounded to nearest even, a
result being poisoned when an operand is. -/
def Sys2Proof.Claims.StagesComputeLaneByLane : Prop :=
  ∀ (a b : List Lane) (form i : Nat), a.length = 256 → b.length = 256 → i < 256 →
    let va := a.getD i Lane.zero
    let vb := b.getD i Lane.zero
    (∃ f, (stageMul a b)[i]? = some (⟨f32Mul va.v vb.v, va.p || vb.p⟩, f))
    ∧ ∃ f, (stageAdd form a b)[i]? = some
      (⟨if form = 0 then f32Add va.v vb.v else if form = 1 then f32Sub va.v vb.v else f32Sub vb.v va.v, va.p || vb.p⟩, f)

/-- VOP takes its chain, whose stages compute lane by lane. -/
def Obligations.ChainsRunThroughTheirStages : Prop :=
  ChainsAreTakenForTheirStamp ∧ StagesComputeLaneByLane

/-- SHF writes to lane 16 g + k its input lane 16 g + π[k], mark and all, for each group g of 16 lanes; π[k] is bits
[4k+3:4k] of the pattern (04 R119). -/
def Obligations.ShufflesMoveLanesWithinGroups : Prop :=
  ∀ (a : List Lane) (pat : W64) (g k : Nat), a.length = 256 → g < 16 → k < 16 →
    ∃ f, (stageShf pat a)[16 * g + k]? = some (a.getD (16 * g + (pat.extractLsb' (4 * k) 4).toNat) Lane.zero, f)

/-! ### DMA0 and DMA1 (09, 06 R198, R199) -/

/-- The slots of both engines but one are as they were. -/
def Sys2Proof.Claims.slotsKept (c k : Core) (e : Dma) (slot : Nat) : Prop :=
  ∀ (e' : Dma) (j : Nat), j < 16 → (e' ≠ e ∨ j ≠ slot) → c.slot e' j = k.slot e' j

/-- Registers, memory, tallies, the beam and the message engine of a core are as they were. -/
def Sys2Proof.Claims.datapathKept (c k : Core) : Prop :=
  c.regs = k.regs ∧ c.mem = k.mem ∧ c.pois = k.pois ∧ c.tl = k.tl ∧ c.mx = k.mx ∧ c.vx = k.vx ∧ c.ms = k.ms ∧ c.lu = k.lu

/-- DLOAD fills an IDLE or LOADED slot with the run's copy of its template, and the slot is LOADED; DBASE replaces the start
address of one side of a LOADED slot by S, or adds S to it modulo 2^64; DGO makes a LOADED slot ACTIVE with nothing issued
yet. No other slot and no register, memory or tally changes. -/
def Sys2Proof.Claims.SlotOperationsChangeTheirSlot : Prop :=
  ∀ (s : State) (x : Issue) (e : Dma) (slot : BitVec 4) (tmpl : BitVec 16) (dst add : Bool) (sr : BitVec 6) (r : Raise) (inc : W32)
    (copies : List (List Byte)),
    let k := issuing s x e.engine false
    let sl := k.slot e slot.toNat
    let set := (s.env x.core).set
    (acts (.dload x e slot tmpl) s x e.engine false = true → (sl.state = 0 ∨ sl.state = 1) →
      (s.env x.core).img.descs[tmpl.toNat]? = some copies → set < copies.length →
      ∃ u, exec (.dload x e slot tmpl) s = .next u ∧ othersKept s u x.core ∧ datapathKept (u.core x.core) k
        ∧ ((u.core x.core).slot e slot.toNat).state = 1
        ∧ ((u.core x.core).slot e slot.toNat).desc = copies.getD set []
        ∧ slotsKept (u.core x.core) k e slot.toNat)
    ∧ (acts (.dbase x e slot dst sr add) s x e.engine false = true → sl.state = 1 → clean k ⟨0, sr.toNat⟩ = true →
      sl.desc.length = 128 →
      let old := leVal ((sl.desc.drop (if dst then 8 else 0)).take 8)
      let new := if add then (old + (sVal k sr).v.toNat) % 2 ^ 64 else (sVal k sr).v.toNat
      ∃ u, exec (.dbase x e slot dst sr add) s = .next u ∧ othersKept s u x.core ∧ datapathKept (u.core x.core) k
        ∧ (let d := ((u.core x.core).slot e slot.toNat).desc
          d.length = 128 ∧ leVal ((d.drop (if dst then 8 else 0)).take 8) = new
            ∧ d.take (if dst then 8 else 0) = sl.desc.take (if dst then 8 else 0)
            ∧ d.drop (if dst then 16 else 8) = sl.desc.drop (if dst then 16 else 8))
        ∧ ((u.core x.core).slot e slot.toNat).state = 1 ∧ slotsKept (u.core x.core) k e slot.toNat)
    ∧ (acts (.dgo x e slot r inc) s x e.engine false = true → sl.state = 1 →
      (dSched sl.desc = true → k.rn.mode = 1) → (dSched sl.desc = false → ¬ (k.rn.mode = 1 ∧ k.rn.det = true)) →
      ∃ u, exec (.dgo x e slot r inc) s = .next u ∧ othersKept s u x.core ∧ datapathKept (u.core x.core) k
        ∧ (let y := (u.core x.core).slot e slot.toNat
          y.state = 2 ∧ y.desc = sl.desc ∧ y.pos = 0 ∧ y.req = 0 ∧ y.head = 0 ∧ y.tail = 0 ∧ y.at0 = k.tm.p
            ∧ y.raise = r.ten ∧ y.tally = r.tally.toNat ∧ y.inc = inc ∧ y.rctx = k.rn.ctx)
        ∧ slotsKept (u.core x.core) k e slot.toNat)

/-- A DLOAD, DBASE or DGO of an ACTIVE slot, a DBASE or DGO of an IDLE one, and any of an ERROR slot stop the core with
DMA_ERR, causes SLOT_BUSY, SLOT_EMPTY and SLOT_ERROR; the slot and its transfer are unchanged. -/
def Sys2Proof.Claims.WrongSlotStateStopsTheCore : Prop :=
  ∀ (s : State) (x : Issue) (e : Dma) (slot : BitVec 4) (tmpl : BitVec 16) (dst add : Bool) (sr : BitVec 6) (r : Raise) (inc : W32),
    let k := issuing s x e.engine false
    let sl := k.slot e slot.toNat
    let faults := fun (i : Instr) (cause : Nat) =>
      acts i s x e.engine false = true → k.rn.stop = .no →
        ∃ c f, hands i s x.core c ∧ c.flt = k.flt ++ [f] ∧ f.cls = 0x09 ∧ f.stop = true
          ∧ f.spec0.toNat % 256 = cause ∧ c.rn.stop = .own ∧ (∀ e' j, c.slot e' j = k.slot e' j) ∧ c.dm.txns = k.dm.txns
    (sl.state = 2 → faults (.dload x e slot tmpl) 0x01 ∧ faults (.dbase x e slot dst sr add) 0x01 ∧ faults (.dgo x e slot r inc) 0x01)
    ∧ (sl.state = 0 → faults (.dbase x e slot dst sr add) 0x02 ∧ faults (.dgo x e slot r inc) 0x02)
    ∧ (sl.state = 3 → faults (.dload x e slot tmpl) 0x07 ∧ faults (.dbase x e slot dst sr add) 0x07 ∧ faults (.dgo x e slot r inc) 0x07)

/-- DATOM on an aligned HBM address at scope DEV or FAB leaves the core at once, when its share of elastic transactions has
room and no earlier request of DMA1 stands in its way: an atomic request of its operands goes to the hub, with a mark where one of
them is poisoned, and one transaction is opened. -/
def Sys2Proof.Claims.DatomLeavesForItsAddress : Prop :=
  ∀ (s : State) (x : Issue) (f : DatomFields) (dpa : Nat),
    let k := issuing s x .dma1 false
    let a := (sVal k f.sa).v.toNat
    let op : AtomOp := ⟨f.w8, f.aop, f.sgn, (sVal k f.sb).v, if f.aop = 4 then (sVal k f.sc).v else 0,
      (sVal k f.sa).p || (sVal k f.sb).p || (f.aop = 4 && (sVal k f.sc).p)⟩
    acts (.datom x f) s x .dma1 false = true →
    clean k ⟨0, f.sa.toNat⟩ = true → clean k ⟨0, f.sb.toNat⟩ = true → (f.aop ≠ 4 ∨ clean k ⟨0, f.sc.toNat⟩ = true) →
    (f.scope = .dev ∨ f.scope = .fab) → remotePlace (s.env x.core) a = .hbm dpa → a % (if f.w8 then 8 else 4) = 0 →
    k.elasOut < 512 → (∀ t ∈ k.dm.txns, t.sent = true ∧ ((t.out = true ∨ t.datom = true) → t.sched = false)) →
    ∃ c, hands (.datom x f) s x.core c ∧ datapathKept c k
      ∧ c.tx = k.tx ++ [.hub ⟨dpa, .atom op, false, none, 0, ⟨s.fab.devId, x.core, false⟩, [], .core x.core k.ids⟩]
      ∧ c.dm.txns.length = k.dm.txns.length + 1
      ∧ ∃ t ∈ c.dm.txns, t.id = k.ids ∧ t.datom = true ∧ t.addr = a ∧ t.lcl = 256 * f.rline.toNat ∧ t.raise = f.ten
        ∧ t.tally = f.tally.toNat

/-- The operations of the stream engines on their slots, and DATOM. -/
def Obligations.SlotsAndAtomicsAct : Prop :=
  SlotOperationsChangeTheirSlot ∧ DatomLeavesForItsAddress

/-- The core in the ccyc in which a stream engine issues a request. -/
def Sys2Proof.Claims.requesting (s : State) (n delta : Nat) (e : Dma) : Core :=
  (found s n).comeToKey (s.env n) delta (engKey e.engine false + 16)

/-- DMA_REQUEST_ISSUE, inbound from HBM: the next request of the walk leaves for the hub and is written off the slot's
position; it stays outstanding until its packets land here. A SCHED request issues in its own ccyc, outside holds; an ELASTIC
one when its share has room. -/
def Sys2Proof.Claims.InboundRequestsLeaveForTheHub : Prop :=
  ∀ (s : State) (n delta dpa ra la len : Nat) (slot : BitVec 4) (ecc : List EccObs),
    let i : Instr := .dmaRequestIssue n delta .inbound slot ecc
    let k := requesting s n delta .inbound
    let sl := k.slot .inbound slot.toNat
    let d := sl.desc
    fit i s = true → sl.state = 2 → sl.fault = false → sl.pos < dBytes d → k.rn.stop = .no →
    (sl.rix = 0 → k.gateOk d false (sl.pos / dFill d) = true) → dMcast d = false →
    nextRequest (s.env n) d false sl.pos = (.hbm dpa, ra, la, len) → la + len ≤ 0x2000000 →
    (if dSched d then k.held = false ∧ k.schedOut < 1536
        ∧ k.tm.p = sl.at0 + 4 + sl.pos / dFill d * dFpace d + sl.rix * dPace d
      else k.elasOut < 512 ∧ k.overlapped (s.env n) .inbound ra len = false) →
    ∃ c t, hands i s n c
      ∧ c.tx = k.tx ++ [.hub ⟨dpa, .read len, dSched d, if dSched d then some (dCslot d) else none, 0,
          ⟨s.fab.devId, n, false⟩, [⟨n, la, .dma⟩], .core n k.ids⟩]
      ∧ c.dm.txns = k.dm.txns ++ [t] ∧ t.id = k.ids ∧ t.out = false ∧ t.addr = ra ∧ t.lcl = la ∧ t.bytes = len
      ∧ t.left = blocks256 dpa len ∧ t.slot = slot.toNat ∧ t.fill = sl.pos / dFill d
      ∧ t.cslot = dCslot d
      ∧ (c.slot .inbound slot.toNat).pos = sl.pos + len ∧ (c.slot .inbound slot.toNat).req = sl.req + 1
      ∧ (c.slot .inbound slot.toNat).state = 2 ∧ slotsKept c k .inbound slot.toNat
      ∧ c.regs = k.regs ∧ c.mem = k.mem ∧ c.tl = k.tl

/-- DMA_REQUEST_COMPLETE: the acknowledgement of the last piece of an outbound request frees its transaction and counts its
bytes. FILL_COMPLETE: the oldest fill under way whose requests have all completed counts, its tally rises by INC, and the last
fill leaves the slot LOADED. -/
def Sys2Proof.Claims.TransfersComplete : Prop :=
  (∀ (s : State) (n delta txn id : Nat) (a : Answer) (t : Txn),
    let i : Instr := .dmaRequestComplete n delta txn
    let k := reached s n delta
    fit i s = true → findAnswer n txn s.plane = some (id, a) → a.status = .ok → k.txn txn = some t → t.id = txn → t.left = 1 →
    t.out = true → t.datom = false → (∀ y ∈ k.dm.txns, y.sent = true) →
    ∃ u, exec i s = .next u ∧ othersKept s u n ∧ datapathKept (u.core n) k
      ∧ (u.core n).dm.txns = k.dm.txns.filter (fun y => y.id ≠ txn)
      ∧ (u.core n).dm.bytesOut = k.dm.bytesOut + BitVec.ofNat 64 t.bytes ∧ (u.core n).dm.bytesIn = k.dm.bytesIn
      ∧ (u.core n).dm.slots = k.dm.slots)
  ∧ ∀ (s : State) (n delta : Nat) (e : Dma) (slot : BitVec 4),
    let i : Instr := .fillComplete n delta e slot
    let k := reached s n delta
    let sl := k.slot e slot.toNat
    fit i s = true → k.fillDone e slot.toNat = true →
    ∃ u, exec i s = .next u ∧ othersKept s u n ∧ slotsKept (u.core n) k e slot.toNat
      ∧ ((u.core n).slot e slot.toNat).tail = sl.tail + 1
      ∧ ((u.core n).slot e slot.toNat).state = (if sl.tail + 1 = dFills sl.desc then 1 else 2)
      ∧ (u.core n).tl.chg = k.tl.chg ++ (if sl.raise = true ∧ sl.fault = false then
          [⟨false, sl.tally, .inc, sl.inc, e.engine, 0xFFFFFFFF⟩] else [])
      ∧ (u.core n).regs = k.regs ∧ (u.core n).mem = k.mem ∧ (u.core n).dm.txns = k.dm.txns

/-- The requests of a transfer, and its completion. -/
def Obligations.TransfersAreServed : Prop :=
  InboundRequestsLeaveForTheHub ∧ TransfersComplete

/-! ### MSE (11, 06 R200, 07 R209) -/

/-- QOPEN of a CLOSED context makes it OPENING and sends its open; QCLOSE of an OPEN context with nothing unanswered makes it
CLOSING and sends its close. Other contexts, registers and memory are as they were. -/
def Sys2Proof.Claims.ContextsOpenAndClose : Prop :=
  ∀ (s : State) (x : Issue) (ctx : BitVec 12) (cls : BitVec 2) (r : Raise) (device : BitVec 12) (qid : BitVec 20),
    let k := issuing s x .mse false
    let q := ctx.toNat
    let h := device.toNat * 2 ^ 20 + qid.toNat
    let sc := k.sctx q
    let others := fun (c : Core) => (∀ j, j ≠ q → c.sctx j = k.sctx j) ∧ c.regs = k.regs ∧ c.mem = k.mem ∧ c.tl.t = k.tl.t
    (acts (.qopen x ctx cls r device qid) s x .mse false = true → sc.state = 0 →
      (cls.toNat % 2 = 1 → k.elasticSends < 256) →
      ∃ c o, hands (.qopen x ctx cls r device qid) s x.core c ∧ others c ∧ (c.sctx q).state = 1 ∧ (c.sctx q).cls = cls.toNat
        ∧ (c.sctx q).handle = h ∧ c.ms.outs = k.ms.outs ++ [o] ∧ o.ctx = q ∧ o.op = 0 ∧ o.raise = r.ten ∧ o.left = 1
        ∧ c.tx = k.tx ++ [toQueue (s.env x.core) h q 64 cls.toNat (.opn cls.toNat) (.queue x.core q 64 0 0)])
    ∧ (acts (.qclose x ctx r) s x .mse false = true → sc.state = 2 → sc.mcast = false → (∀ o ∈ k.ms.outs, o.ctx ≠ q) →
      ∃ c o, hands (.qclose x ctx r) s x.core c ∧ others c ∧ (c.sctx q).state = 3
        ∧ c.ms.outs = k.ms.outs ++ [o] ∧ o.ctx = q ∧ o.op = 1 ∧ o.raise = r.ten ∧ o.left = 1
        ∧ c.tx = k.tx ++ [toQueue (s.env x.core) sc.handle q 64 sc.cls .close (.queue x.core q 64 1 0)])

/-- QSEND on an OPEN context of its class sends the words of S[SBASE] and on with the context's next sequence number, one copy to
each member, and spends the record's size of each member's credit in CLASS 0; QCSEND sends its value, sign-extended, or the
128 bits of two S registers, with its key. A poisoned word is copied with its mark. Registers and memory are as they were. -/
def Sys2Proof.Claims.SendsLeaveWithTheirWords : Prop :=
  ∀ (s : State) (x : Issue) (ctx : BitVec 12) (r : Raise) (nwm1 : BitVec 3) (sbase : BitVec 6) (mc : Bool) (vk : BitVec 2)
    (sv sk : BitVec 6),
    let k := issuing s x .mse false
    let q := ctx.toNat
    let sc := k.sctx q
    let nw := nwm1.toNat + 1
    let reg := fun (j : Nat) => tget (⟨0, false⟩ : SVal) k.regs.s j
    let words := (List.range nw).map fun j => reg (sbase.toNat + j)
    let size := 16 * ((8 + 8 * nw + 15) / 16)
    let sent := fun (i : Instr) (op : QOp) (code spent : Nat) (c : Core) =>
      hands i s x.core c ∧ c.regs = k.regs ∧ c.mem = k.mem ∧ c.tl.t = k.tl.t
        ∧ (c.sctx q).seq = sc.seq + 1 ∧ (c.sctx q).state = 2
        ∧ (c.sctx q).members = sc.members.map (fun m => { m with credit := m.credit - spent })
        ∧ (∀ j, j ≠ q → c.sctx j = k.sctx j)
        ∧ (∃ o, c.ms.outs = k.ms.outs ++ [o] ∧ o.ctx = q ∧ o.op = code ∧ o.seq = sc.seq.toNat ∧ o.left = sc.members.length)
        ∧ c.tx = k.tx ++ sc.members.map fun m =>
          toQueue (s.env x.core) m.handle q m.idx sc.cls op (.queue x.core q m.idx code sc.seq.toNat)
    sc.state = 2 → sc.members ≠ [] → (sc.cls % 2 = 1 → k.elasticSends < 256) →
    (acts (.qsend x ctx r nwm1 sbase mc) s x .mse false = true → sc.cls < 2 → sc.mcast = mc →
      (∀ j, j < nw → clean k ⟨0, sbase.toNat + j⟩ = true) → (sc.cls = 0 → ∀ m ∈ sc.members, size ≤ m.credit) →
      ∃ c, sent (.qsend x ctx r nwm1 sbase mc) (.send sc.seq.toNat (words.map (·.v)) (words.any (·.p))) 2
        (if sc.cls = 0 then size else 0) c)
    ∧ (acts (.qcsend x ctx r vk sv sk) s x .mse false = true → 2 ≤ sc.cls → sc.mcast = false →
      clean k ⟨0, sv.toNat⟩ = true → (vk = 1 → clean k ⟨0, sv.toNat + 1⟩ = true) → clean k ⟨0, sk.toNat⟩ = true →
      let p := (reg sv.toNat).p || (vk = 1 && (reg (sv.toNat + 1)).p) || (reg sk.toNat).p
      ∃ c val, sent (.qcsend x ctx r vk sv sk) (.csend ((reg sk.toNat).v.truncate 32) (vk = 1) val p) 3 0 c
        ∧ (vk = 1 → val.toNat = (reg sv.toNat).v.toNat + 2 ^ 64 * (reg (sv.toNat + 1)).v.toNat)
        ∧ (vk ≠ 1 → val.toInt = (reg sv.toNat).v.toInt))

/-- The operations of the message engine. -/
def Obligations.ContextsOpenAndSend : Prop :=
  ContextsOpenAndClose ∧ SendsLeaveWithTheirWords

/-- QUEUE_ANSWER: the accepting answer of a send's last member frees the send, counts it where no member has refused, and raises its
tally; credit that comes back is added to its member's. -/
def Obligations.QueueAnswersReachTheirContext : Prop :=
  ∀ (s : State) (n delta req : Nat) (a : QAns),
    let i : Instr := .queueAnswer n delta req
    let k := reached s n delta
    let sc := k.sctx a.ctx
    fit i s = true → s.msg req = some (.qans a) → a.core = n →
    (a.op = 5 → sc.state ≠ 0 →
      ∃ u, exec i s = .next u ∧ othersKept s u n
        ∧ ((u.core n).sctx a.ctx).members = sc.members.map (fun m =>
          if m.idx = a.member then { m with credit := m.credit + a.credit } else m)
        ∧ ((u.core n).sctx a.ctx).state = sc.state ∧ (∀ j, j ≠ a.ctx → (u.core n).sctx j = k.sctx j)
        ∧ (u.core n).regs = k.regs ∧ (u.core n).mem = k.mem ∧ (u.core n).tl = k.tl ∧ (u.core n).ms.outs = k.ms.outs)
    ∧ ∀ o, k.ms.outs.find? (isFor a) = some o → 2 ≤ o.op → o.op < 4 → sc.state ≠ 3 → a.op ≠ 5 →
      a.status = .ok → o.left ≤ 1 → o.bad = false →
        ∃ u, exec i s = .next u ∧ othersKept s u n ∧ (u.core n).ms.sent = k.ms.sent + 1
          ∧ (u.core n).ms.outs = k.ms.outs.filter (fun y => !isFor a y) ∧ (u.core n).regs = k.regs ∧ (u.core n).mem = k.mem
          ∧ (u.core n).tl.chg = k.tl.chg ++ (if o.raise then [⟨false, o.tally, .inc, 1, .mse, 0xFFFFFFFF⟩] else [])

/-- A member's refusal of a send reaches the core with QUEUE_ANSWER: it stops the core with QUEUE, and the refusal's status is that of
the record. -/
def Sys2Proof.Claims.RefusedSendsStopTheCore : Prop :=
  ∀ (s : State) (n delta req : Nat) (a : QAns) (o : SendOut),
    let i : Instr := .queueAnswer n delta req
    let k := reached s n delta
    fit i s = true → s.msg req = some (.qans a) → a.core = n → a.op ≠ 5 →
    k.ms.outs.find? (isFor a) = some o → 2 ≤ o.op → o.op < 4 → (k.sctx a.ctx).state ≠ 3 → a.status ≠ .ok → k.rn.stop = .no →
      ∃ c f, (∃ t, exec i s = .next t ∧ t.core n = settled c ∧ othersKept s t n) ∧ c.flt = k.flt ++ [f] ∧ f.cls = 0x0A
        ∧ f.stop = true ∧ f.status = a.status ∧ c.rn.stop = .own ∧ c.regs = k.regs ∧ c.mem = k.mem

/-- What stops a core with a fault of its word, and what holds its engines. -/
def Obligations.WhatStopsOrHoldsACore : Prop :=
  WaitsWhoseConditionFailsHold ∧ BadLocalAddressStopsTheCore ∧ WrongSlotStateStopsTheCore ∧ RefusedSendsStopTheCore

/-! ### Holds, blocks and handlers (02 R48, R49; 06 R173, R177; 11 R328 to R331) -/

/-- HOLD_END ends a hold, which one engine alone has, whose tally has been seen to reach its value, and in service mode the wait of the
engine: the engines issue again from the next ccyc on. WAIT_TIMEOUT stops the core with WAIT_TIMEOUT once TMO ccyc have passed without it.
Registers, memory and tallies are as they were. -/
def Obligations.HoldsEndOrTimeOut : Prop :=
  ∀ (s : State) (n delta i : Nat) (a : Bool) (m : W32) (w : Wait),
    let k := reached s n delta
    let kept := fun (c : Core) => c.regs = k.regs ∧ c.mem = k.mem ∧ c.tl.t = k.tl.t ∧ c.tm = k.tm ∧ c.tx = k.tx
    w.what = .tally a i m →
    (fit (.holdEnd n delta) s = true → m.toNat ≤ (k.seenTally a i).toNat → w.live k.tm.now = true →
      (k.rn.hold = some w → k.rn.waits = [] → w.start < k.tm.now →
        ∃ c, hands (.holdEnd n delta) s n c ∧ kept c ∧ c.rn.hold = none ∧ c.flt = k.flt
          ∧ ∀ e : Engine, k.tm.now + 1 ≤ tget 0 c.ck.seen e.code)
      ∧ (k.rn.hold = none → k.rn.waits = [w] →
        ∃ c, hands (.holdEnd n delta) s n c ∧ kept c ∧ c.rn.waits = [] ∧ c.flt = k.flt
          ∧ k.tm.now + 1 ≤ tget 0 c.ck.seen w.eng.code))
    ∧ (∀ t, fit (.waitTimeout n delta w.eng) s = true → (k.seenTally a i).toNat < m.toNat → k.rn.hold = some w →
      w.tmo = some t → t ≤ k.tm.now - w.start → k.rn.stop = .no →
      ∃ c f, hands (.waitTimeout n delta w.eng) s n c ∧ kept c ∧ c.rn.stop = .own ∧ c.rn.hold = none
        ∧ c.tl.tmoCnt.toNat = min (k.tl.tmoCnt.toNat + 1) 0xFFFFFFFF ∧ c.flt = k.flt ++ [f] ∧ f.cls = 0x03 ∧ f.stop = true
        ∧ f.eng = w.eng.code ∧ f.kvi = w.kvi)

/-- Registers, memory and tallies of a core are as they were. -/
def Sys2Proof.Claims.dataKept (c k : Core) : Prop :=
  c.regs = k.regs ∧ c.mem = k.mem ∧ c.pois = k.pois ∧ c.tl = k.tl

/-- A scheduled block that reaches its length, and a service block whose operations have completed, hand over to the block
that NEXT or the branch names: a scheduled block follows a scheduled one without a gap and a service block by 16 ccyc, a
service block follows a service block in the next ccyc. END ends the run on the core. RETURN ends the handler. -/
def Sys2Proof.Claims.BlocksFollowOneAnother : Prop :=
  ∀ (s : State) (n delta b : Nat) (blk nx : Block),
    let k := reached s n delta
    let env := s.env n
    let next := if blk.next = 0xFFFD then k.rn.succ else some blk.next
    let retired := k.rn.mode = 2 ∧ k.rn.waits = [] ∧ k.pend = [] ∧ k.pev = [] ∧ k.rn.begin0 ≤ k.tm.p
    env.img.blocks[k.rn.block]? = some blk → next = some b → k.rn.stop = .no →
    let ends := fun (i : Instr) =>
      ∃ u, exec i s = .next u ∧ othersKept s u n ∧ dataKept (u.core n) k ∧ (u.core n).rn.mode = 0
        ∧ ((u.core n).ctx k.rn.ctx).done = true ∧ (u.core n).rn.succ = none
    let goes := fun (i : Instr) (t : Nat) =>
      ∃ u, exec i s = .next u ∧ othersKept s u n ∧ dataKept (u.core n) k ∧ (u.core n).rn.block = b
        ∧ (u.core n).rn.begin0 = t ∧ (u.core n).rn.mode = (if nx.mode % 2 = 0 then 1 else 2) ∧ (u.core n).rn.succ = none
        ∧ (u.core n).rn.ctx = k.rn.ctx
    (fit (.blockBoundary n delta) s = true → k.rn.mode = 1 → k.held = false → k.rn.begin0 + blk.length ≤ k.tm.p →
      (b = 0xFFFF → ends (.blockBoundary n delta))
      ∧ (b ≠ 0xFFFF → env.img.blocks[b]? = some nx → (nx.mode % 2 = 1 → env.opWait = false) →
        goes (.blockBoundary n delta) (k.rn.begin0 + blk.length)))
    ∧ (fit (.serviceBlockEnd n delta) s = true → retired → (s.core n).ms.handler = none → k.ms.handler = none →
      (b = 0xFFFF → ends (.serviceBlockEnd n delta))
      ∧ (b ≠ 0xFFFF → env.img.blocks[b]? = some nx → env.opWait = false → k.rn.hnext = none → k.rn.startCtx = none →
        (s.assignAt n).nextRecord n s.recNo = none →
        goes (.serviceBlockEnd n delta) (k.tm.p + if nx.mode % 2 = 1 then 1 else 16)))
    ∧ (∀ h, fit (.serviceBlockEnd n delta) s = true → retired → (s.core n).ms.handler = some h → k.ms.handler = some h →
      k.rn.startCtx = none → b = 0xFFFE → k.rn.after = none →
      ∃ u, exec (.serviceBlockEnd n delta) s = .next u ∧ dataKept (u.core n) k ∧ (u.core n).ms.handler = none
        ∧ (u.core n).rn.mode = 0 ∧ ∀ m, m ≠ n → u.core m = s.core m)

/-- HANDLER_DISPATCH at a dispatch point with a record that has landed and a valid handler: S55 is the header that lies in the ring,
S56 on the record's words and zeros, A31 its address; the handler's block begins in the next ccyc in service mode, and no other register
and no byte of memory
changes. HANDLER_BUDGET_EXPIRY stops the core with QUEUE and ETIMEOUT once the handler has run longer than its budget. -/
def Sys2Proof.Claims.HandlersRunOnTheirRecords : Prop :=
  ∀ (s : State) (n delta qid : Nat) (r : PRec) (e : HandlerEntry) (h : Handler),
    (let s1 := s.onCore n fun env k => k.comeTo env delta
     let k := s1.core n
     let s2 := s1.popFront qid
     let y := s2.ringRec n (s2.queue qid).hbm r
     let hx := if (s2.queue qid).hmode then (y.words.getD 0 0).toNat % 64 else (s2.queue qid).hidx
     fit (.handlerDispatch n delta) s = true → k.rn.mode = 0 → k.ms.handler = none → k.rn.stop = .no →
     k.rn.startCtx = none → s1.nextRecord n (s1.dispatchLimit n) = some (qid, r) → r.ready = true →
     (s1.env n).img.handlers[hx]? = some e → e.valid = true → s1.mayHandle k.rn.job e.budget = true →
     ∃ u, exec (.handlerDispatch n delta) s = .next u ∧ othersKept s u n
       ∧ (let c := u.core n
         sVal c 55 = ⟨y.hdr, false⟩
         ∧ (∀ j, j < 8 → tget ⟨0, false⟩ c.regs.s (56 + j) =
           ⟨y.words.getD j 0, y.p && decide (j < y.words.length)⟩)
         ∧ (∀ j, j < 55 → tget ⟨0, false⟩ c.regs.s j = tget ⟨0, false⟩ k.regs.s j)
         ∧ aVal c 31 = ⟨BitVec.ofNat 48 r.at0, false⟩
         ∧ (∀ j, j ≠ 31 → tget ⟨0, false⟩ c.regs.a j = tget ⟨0, false⟩ k.regs.a j)
         ∧ c.regs.p = k.regs.p ∧ c.regs.v = k.regs.v ∧ c.regs.oc = k.regs.oc ∧ c.mem = k.mem ∧ c.tl = k.tl
         ∧ c.rn.mode = 2 ∧ c.rn.block = e.block ∧ c.rn.begin0 = k.tm.p + 1
         ∧ c.ms.handler = some ⟨hx, qid, r.no, k.tm.now, e.budget⟩ ∧ c.ms.curHdr = y.hdr ∧ c.ms.disp = k.ms.disp + 1))
    ∧ (let k := reached s n delta
     fit (.handlerBudgetExpiry n delta) s = true → k.ms.handler = some h → h.budget ≠ 0 → h.budget < k.tm.now - h.at0 →
     k.rn.stop = .no →
     ∃ c f, hands (.handlerBudgetExpiry n delta) s n c ∧ dataKept c k ∧ c.rn.stop = .own ∧ c.flt = k.flt ++ [f] ∧ f.cls = 0x0A
       ∧ f.stop = true ∧ f.status = .etimeout)

/-- Blocks follow one another; handlers run on their records. -/
def Obligations.BlocksAndHandlersRun : Prop :=
  BlocksFollowOneAnother ∧ HandlersRunOnTheirRecords

/-! ### Runs of a job (09 R277; 12 R372, R373; 14 R443; 15 R470, R475) -/

/-- A run of `job` has started in `t`: it is the job's next run, with its start, set and deadline; each of the job's cores
that ran no handler begins block 0 in the next ccyc, or in that in which its copy of the timebase reaches the start, with registers and
memory as they were, and no other core changes. -/
def Sys2Proof.Claims.runStarted (s t : State) (job start set deadline : Nat) : Prop :=
  let j := s.job job
  (t.job job).runIdx = j.runIdx + 1 ∧ (t.job job).state = 4 ∧ (t.job job).live.length = j.live.length + 1
    ∧ (∃ r ∈ (t.job job).live, r.idx = j.runIdx ∧ r.start = start ∧ r.set = set ∧ r.deadline = deadline)
    ∧ (∀ k ∈ j.placement, (s.core k).ms.handler = none →
      let c := t.core k
      c.rn.block = 0 ∧ c.rn.begin0 = (s.core k).tm.p + 1 + s.shortOf k start ∧ c.rn.run = j.runIdx ∧ c.rn.runCcyc = 0
        ∧ c.ctx c.rn.ctx = ⟨true, job, j.runIdx, false⟩ ∧ c.regs = (s.core k).regs ∧ c.mem = (s.core k).mem)
    ∧ (∀ k, k ∉ j.placement → t.core k = s.core k) ∧ t.hbm = s.hbm ∧ t.clk = s.clk ∧ t.cfg = s.cfg

/-- FRAME_TICK starts the next run of a periodic job once a core's copy of TBT has reached its tick k at
EPOCH + k × DEN × 4,000,000,000 / NUM, on buffer set run mod NSETS; a tick that finds the job's runs still busy starts none and is a
missed deadline: it is logged and
counts. START_AT_TBT starts a pending run whose TBT has come, and its START completes. -/
def Sys2Proof.Claims.RunsStartWhenTheirTimeComes : Prop :=
  ∀ (s : State) (job k : Nat) (p : Periodic) (x : PendStart) (rest : List PendStart),
    let j := s.job job
    let at0 := p.epoch + p.tick * p.den * 4000000000 / p.num
    let busy := (∃ r ∈ j.live, r.toBegin ≠ [] ∨ r.toEnd ≠ []) ∨ 2 ≤ j.live.length
    s.pins.trip = false → s.clk.stopped = false →
    (fit (.frameTick job) s = true → j.per = some p → p.tick = k → 0 < p.num → p.stopped = false → j.state = 4 →
      s.reached job at0 = true →
      (¬ busy → ∃ t, exec (.frameTick job) s = .next t ∧ runStarted s t job at0 (j.runIdx % p.nsets) p.deadline
        ∧ ∃ p', (t.job job).per = some p' ∧ p'.tick = k + 1)
      ∧ (busy → ∃ t, exec (.frameTick job) s = .next t ∧ (t.job job).runIdx = j.runIdx ∧ (t.job job).live = j.live
        ∧ (∃ p', (t.job job).per = some p' ∧ p'.tick = k + 1) ∧ t.cores = s.cores ∧ t.hbm = s.hbm
        ∧ t.fl.seq = s.fl.seq + 1 ∧ ∃ f, tget none t.fl.log s.fl.head = some f ∧ f.cls = 0x0B))
    ∧ (fit (.startAtTbt job) s = true → j.starts = x :: rest → s.reached job x.tbt = true → ¬ busy →
      ∃ t, exec (.startAtTbt job) s = .next t ∧ runStarted s t job x.tbt x.set x.deadline ∧ (t.job job).starts = rest
        ∧ ∀ c ∈ t.host.exec, c.id ≠ x.cmd)

/-- RUN_RETIRE: a run that has reached END on every core, with everything it started complete, leaves the job; its run context
is free, the job counts it, and its record with its status waits for its ring, behind those that wait already. Cores keep their registers
and memory. -/
def Sys2Proof.Claims.RunsRetireWithTheirRecord : Prop :=
  ∀ (s : State) (job run : Nat) (r : Run),
    let j := s.job job
    fit (.runRetire job run) s = true → j.live.find? (fun y => y.idx = run) = some r → s.canRetire job r = true →
    ∃ t, exec (.runRetire job run) s = .next t
      ∧ (t.job job).live = j.live.filter (fun y => y.idx ≠ run) ∧ (t.job job).runs = j.runs + 1
      ∧ (t.job job).lastEnd = s.clk.tbt
      ∧ ((s.ring r.ring).en = true → (s.ring r.ring).full = false →
        ∃ y ∈ (t.ring r.ring).waiting, y.runrec = true ∧ y.tag = r.tag ∧ y.status = r.status.1
          ∧ y.start = BitVec.ofNat 64 r.start ∧ y.detail = BitVec.ofNat 32 r.detail)
      ∧ (∀ k ∈ j.placement, (s.core k).rn.c0.used = true → (s.core k).rn.c0.job = job → (s.core k).rn.c0.run = run →
        (t.core k).rn.c0.used = false)
      ∧ (∀ k, (t.core k).regs = (s.core k).regs ∧ (t.core k).mem = (s.core k).mem ∧ (t.core k).tl = (s.core k).tl)
      ∧ t.hbm = s.hbm ∧ t.queues = s.queues ∧ t.clk = s.clk

/-- Runs start when they are due, and retire with their record. -/
def Obligations.RunsStartAndRetire : Prop :=
  RunsStartWhenTheirTimeComes ∧ RunsRetireWithTheirRecord

/-! ### The landing unit (05 R154 to R163; 10 R304, R305) -/

/-- LANDING_ARRIVAL: a packet whose turn has come and that needs no window, or whose bytes lie in one open window that admits its
source, enters the
landing buffer behind those before it; any other is rejected: counted, and its sender answered EAPERTURE. Nothing is stored yet. -/
def Sys2Proof.Claims.PacketsEnterTheLandingBuffer : Prop :=
  ∀ (s : State) (n delta pkt : Nat) (p : LinePkt),
    let i : Instr := .landingArrival n delta pkt
    let k := reached s n delta
    let goes := fun (c : Core) => exec i s = .next ((s.take pkt).onCore n fun _ _ => c) ∧ dataKept c k
    fit i s = true → s.msg pkt = some (.line n p) → s.inTurn pkt (.line n p) = true → s.fenced = false → p.data ≠ [] →
    (p.sched = true ∨ k.lu.level + (splitLines p.addr p.data).length ≤ 256) →
    (∀ w, (w = none ∧ (p.kind = .dma ∨ p.kind = .datom ∨ p.kind = .host)
        ∨ ∃ m, w = some m ∧ (p.kind = .write ∨ ∃ q, p.kind = .record q)
          ∧ k.lu.check p.addr p.data.length p.src.fabric = .ok m) →
      ∃ c, goes c ∧ c.lu.buf = k.lu.buf ++ [⟨k.lu.arrNo, p, splitLines p.addr p.data, w⟩] ∧ c.lu.rejCnt = k.lu.rejCnt ∧ c.tx = k.tx
        ∧ c.flt = k.flt)
    ∧ ∀ cause, p.kind = .write → k.lu.check p.addr p.data.length p.src.fabric = .error cause →
      ∃ c, goes c ∧ c.lu.buf = k.lu.buf ∧ c.lu.rejCnt.toNat = min (k.lu.rejCnt.toNat + 1) 0xFFFFFFFF
        ∧ c.lu.rejSrc = BitVec.ofNat 32 (p.src.dev % 4096 + 4096 * (p.src.core % 256)
          + (if p.src.fabric then 2 ^ 20 else 0) + 2 ^ 21 * (cause % 8))
        ∧ c.tx = k.tx ++ [.reply p.reply .eaperture 4 0 0 [] false] ∧ c.flt = k.flt

/-- What the landing unit does at the end of a ccyc changes no register, no byte of memory, no mark and no tally, and raises nothing. -/
def Sys2Proof.Claims.landKept (u c : Core) : Prop := dataKept u c ∧ u.flt = c.flt ∧ ∀ x ∈ c.nev, x ∈ u.nev

/-- LANDING_PLACEMENT has the landing unit place lines at the end of the ccyc: the first line of the buffer, scheduled packets first, where
nothing that came before still waits for its line, no ATOM stands between the read and the write of it, and a write port and its bank are
idle; at most two lines in one ccyc. A placed line is visible two ccyc later: then its bytes and no others change, and a write raises the
arrival tally of its window by 1 and is answered. -/
def Sys2Proof.Claims.LandedLinesBecomeVisible : Prop :=
  (∀ (s : State) (n delta : Nat) (ecc : List EccObs),
    let k := reached s n delta
    fit (.landingPlacement n delta ecc) s = true →
      leaves (.landingPlacement n delta ecc) s n { k with lu := { k.lu with place := some ecc } })
  ∧ (∀ (c : Core) (env : Env) (h : Held) (addr : Nat) (d : List Byte),
    c.lu.place = some [] → c.lu.serve = none → c.lu.atom = none → c.lu.atomW = none → c.lu.order.head? = some (h, addr, d) →
    h.pkt.walk = none → c.lu.earlier h.no (addr / 256) = false → c.atomOn (addr / 256) = false →
    c.portFree true (addr / 256) = true →
    let u := c.landEnd env
    landKept u c ∧ u.tx = c.tx ∧ (c.tm.now + 2, .place addr d h.pkt.poison) ∈ u.nev
      ∧ (u.lu.lines = c.lu.lines + 1 ∨ u.lu.lines = c.lu.lines + 2) ∧ u.lu.place = none)
  ∧ ∀ (c : Core) (addr m : Nat) (d : List Byte) (p : Bool) (pkt : LinePkt),
    (let u := c.landed (.place addr d p)
     bytesAt u addr d.length = d ∧ (∀ j, j < addr ∨ addr + d.length ≤ j → tget 0 u.mem j = tget 0 c.mem j)
       ∧ { u with mem := c.mem, pois := c.pois } = c)
    ∧ (pkt.kind = .write →
      let u := c.landed (.arrive (some m) pkt)
      u.tl.chg = c.tl.chg ++ [⟨true, m, .inc, 1, .dma0, 0xFFFFFFFF⟩] ∧ u.mem = c.mem ∧ u.regs = c.regs
        ∧ u.tx = c.tx ++ [.reply pkt.reply .ok 0 0 0 [] false])

/-- REMOTE_READ_SERVE and LANDING_ATOMIC have the landing unit serve a read, and begin an atomic, at the end of the ccyc, in ports and
banks that are idle. A read of one line is answered with the bytes as the core sees them. An atomic reads its line once nothing before it
waits for that line; in a later ccyc the new value is written, visible two ccyc on, when the old one is answered. None of this changes a
register or a tally. -/
def Sys2Proof.Claims.RemoteReadsAndAtomicsAreAnswered : Prop :=
  (∀ (s : State) (n delta : Nat) (ecc : List EccObs),
    let k := reached s n delta
    (fit (.remoteReadServe n delta ecc) s = true →
      leaves (.remoteReadServe n delta ecc) s n { k with lu := { k.lu with serve := some ecc } })
    ∧ (fit (.landingAtomic n delta ecc) s = true →
      leaves (.landingAtomic n delta ecc) s n { k with lu := { k.lu with atom := some ecc } }))
  ∧ (∀ (c : Core) (env : Env) (no : Nat) (r : Request),
    let addr := r.dpa % 0x2000000
    let u := c.landEnd env
    let p := tget false c.pois (addr / 256)
    c.lu.remote = [(no, r)] → c.lu.place = none → c.lu.atomW = none → c.portFree false (addr / 256) = true →
    (∀ len, c.lu.serve = some [] → c.lu.atom = none → r.req = .read len → 0 < len → addr % 256 + len ≤ 256 →
      landKept u c ∧ u.lu.remote = [] ∧ u.lu.serve = none
        ∧ u.tx = c.tx ++ [.reply r.reply .ok 0 0 0 (bytesAt c addr len) p])
    ∧ (∀ op, let w := if op.w8 then 8 else 4
      c.lu.serve = none → c.lu.atom = some [] → r.req = .atom op → addr % w = 0 → c.landingOn (addr / 256) = false →
      c.lu.earlier no (addr / 256) = false →
      let old := leVal (bytesAt c addr w)
      let new := atomOf op.aop op.sgn w old (op.b.toNat % 2 ^ (8 * w)) (op.c.toNat % 2 ^ (8 * w))
      landKept u c ∧ u.lu.remote = [] ∧ u.lu.atom = none ∧ u.tx = c.tx
        ∧ u.lu.atomW = some ⟨addr, leBytes new w, p || op.p, r.reply, leBytes old 8, p⟩))
  ∧ (∀ (c : Core) (env : Env) (w : AtomW),
    c.lu.atomW = some w → c.portFree true (w.addr / 256) = true → c.lu.place = none → c.lu.serve = none → c.lu.atom = none →
    let u := c.landEnd env
    landKept u c ∧ u.lu.atomW = none ∧ u.tx = c.tx
      ∧ u.nev = c.nev ++ [(c.tm.now + 2, .place w.addr w.data w.p), (c.tm.now + 2, .atomDone w.reply w.old w.oldP)])
  ∧ ∀ (c : Core) (r : Reply) (old : List Byte) (p : Bool),
    c.landed (.atomDone r old p) = { c with tx := c.tx ++ [.reply r .ok 0 0 0 old p] }

/-- The landing unit takes packets, whose lines become visible, and answers remote reads and atomics. -/
def Obligations.TheLandingUnitServes : Prop :=
  PacketsEnterTheLandingBuffer ∧ LandedLinesBecomeVisible ∧ RemoteReadsAndAtomicsAreAnswered

/-! ### HBM and its calendars (08) -/

/-- A request for a hub whose turn has come arrives with room for it: a scheduled one of a RESERVED entry's reservation that admits it,
within one
granule, joins that reservation's queue for its pseudo-channel; an elastic one joins the pseudo-channel's elastic queue. A
scheduled request that matches no such entry is refused and counted as a mismatch, one that finds eight before it as an overrun. No
byte of HBM changes. -/
def Sys2Proof.Claims.RequestsJoinTheirQueues : Prop :=
  ∀ (s : State) (req : Nat) (r : Request),
    let pc := r.dpa / 2048 % 768
    let hub := pc % 12 / 3
    let kept := fun (t : State) => t.msg req = none ∧ t.cores = s.cores ∧ t.jobs = s.jobs ∧ t.hbm.mem = s.hbm.mem
      ∧ t.hbm.pois = s.hbm.pois ∧ t.hbm.cal = s.hbm.cal
    s.msg req = some (.hub r) → s.inTurn req (.hub r) = true → ((s.hub hub).cfence = false ∨ r.mine = false) →
    (∀ slot, r.resv = some slot → (Instr.schedRequestArrival req).wf = true →
      let e := s.hbm.entry pc (slot / 8)
      let v := s.hbm.res e.res
      let fits := slot < 512 ∧ e.kind = 1 ∧ v.admits r.req = true ∧ r.dpa % 2048 + r.req.len ≤ 2048
      (fits → (tget [] v.queues pc).length < 8 →
        ∃ t, exec (.schedRequestArrival req) s = .next t ∧ kept t ∧ tget [] (t.hbm.res e.res).queues pc = tget [] v.queues pc ++ [r]
          ∧ (∀ p, p ≠ pc → tget [] (t.hbm.res e.res).queues p = tget [] v.queues p)
          ∧ (∀ y, y ≠ e.res → t.hbm.res y = s.hbm.res y) ∧ t.hbm.el = s.hbm.el ∧ t.hubs = s.hubs)
      ∧ (r.reply = .none → ¬ fits →
        ∃ t, exec (.schedRequestArrival req) s = .next t ∧ kept t ∧ t.hbm = s.hbm
          ∧ (t.hub hub).misCnt.toNat = min ((s.hub hub).misCnt.toNat + 1) 0xFFFFFFFF)
      ∧ (r.reply = .none → fits → 8 ≤ (tget [] v.queues pc).length →
        ∃ t, exec (.schedRequestArrival req) s = .next t ∧ kept t ∧ t.hbm = s.hbm
          ∧ (t.hub hub).ovrCnt.toNat = min ((s.hub hub).ovrCnt.toNat + 1) 0xFFFFFFFF))
    ∧ (r.resv = none → (Instr.elasticRequestArrival req).wf = true → (s.hbm.queueOf pc).reqs.length < 64 →
      ∃ t, exec (.elasticRequestArrival req) s = .next t ∧ kept t
        ∧ (t.hbm.queueOf pc).reqs = (s.hbm.queueOf pc).reqs ++ [⟨r.source, r⟩]
        ∧ (∀ p, p ≠ pc → t.hbm.queueOf p = s.hbm.queueOf p) ∧ t.hbm.resv = s.hbm.resv)

/-- A request has been performed on HBM in run `n` from TBT 0: a write stores its bytes and no others, and is acknowledged 32
hcyc after its last slot began; a read of what a user holds stores nothing and its line leaves; an atomic stores its new value, and its
old one leaves; a scrub stores
nothing, and the corrections of its granule count anew. -/
def Sys2Proof.Claims.performed (s t : State) (n : Nat) (r : Request) : Prop :=
  let outside := fun (w : Nat) => ∀ a, a < r.dpa ∨ r.dpa + w ≤ a → tget 0 t.hbm.mem a = tget 0 s.hbm.mem a
  match r.req with
  | .write d _ => d ≠ [] →
    readBytes t.hbm.mem r.dpa d.length = d ∧ outside d.length ∧ t.hbm.egress = s.hbm.egress
      ∧ ∃ x, t.hbm.acks = s.hbm.acks ++ [x] ∧ x.reply = r.reply ∧ x.tbt = 256 * n + 32 * ((r.dpa + d.length - 1) % 2048 / 256) + 64
  | .read len => 0 < len → r.dpa % 2048 + len ≤ 2048 → r.dpa < 0x011E00000000 → r.dests = [] →
    t.hbm.mem = s.hbm.mem ∧ t.hbm.pois = s.hbm.pois ∧ t.hbm.acks = s.hbm.acks
      ∧ ∃ x, t.hbm.egress = s.hbm.egress ++ [x] ∧ x.data = readBytes s.hbm.mem r.dpa len ∧ x.req = r
        ∧ x.tbt = 256 * n + 32 * ((r.dpa + len - 1) % 2048 / 256)
  | .atom op =>
    let w := if op.w8 then 8 else 4
    let old := leVal (readBytes s.hbm.mem r.dpa w)
    let new := atomOf op.aop op.sgn w old (op.b.toNat % 2 ^ (8 * w)) (op.c.toNat % 2 ^ (8 * w))
    readBytes t.hbm.mem r.dpa w = leBytes new w ∧ outside w ∧ t.hbm.acks = s.hbm.acks
      ∧ ∃ x, t.hbm.egress = s.hbm.egress ++ [x] ∧ x.data = leBytes old 8 ∧ x.req.reply = r.reply
  | .scrub => t.hbm.mem = s.hbm.mem ∧ t.hbm.pois = s.hbm.pois ∧ t.hbm.egress = s.hbm.egress ∧ t.hbm.acks = s.hbm.acks
      ∧ ∀ b, tget 0 t.hbm.fixed b = if b / 32 = r.dpa / 2048 then 0 else tget 0 s.hbm.fixed b

/-- RUN_CUTOFF at the cut-off of a run: a RESERVED run performs the oldest request of its reservation; an ELASTIC run performs
the request whose turn it is. The queue loses it, and a second cut-off of the run does nothing. -/
def Sys2Proof.Claims.RunsPerformTheirRequests : Prop :=
  ∀ (s : State) (pc run n : Nat) (r : Request),
    let i : Instr := .runCutoff pc run []
    let e := s.hbm.entryAt pc run
    i.wf = true → s.clk.run = true → (s.clk.tbt.toNat + 128) / 2 % 128 = 0 → n = (s.clk.tbt.toNat + 128) / 256 → n % 64 = run →
    tget 0 s.hbm.last pc ≤ n → (s.hub (pc % 12 / 3)).calRun = true →
    (∀ rest, e.kind = 1 → tget [] (s.hbm.res e.res).queues pc = r :: rest →
      ∃ t, exec i s = .next t ∧ performed s t n r ∧ tget [] (t.hbm.res e.res).queues pc = rest ∧ t.hbm.el = s.hbm.el
        ∧ (∀ y, y ≠ e.res → t.hbm.res y = s.hbm.res y) ∧ tget 0 t.hbm.last pc = n + 1 ∧ exec i t = .next t ∧ t.cores = s.cores)
    ∧ (∀ src, e.kind = 0 → s.hbm.queueOf pc = ⟨[⟨src, r⟩], src⟩ → src < 4 →
      ∃ t, exec i s = .next t ∧ performed s t n r ∧ (t.hbm.queueOf pc).reqs = [] ∧ t.hbm.resv = s.hbm.resv
        ∧ (∀ p, p ≠ pc → t.hbm.queueOf p = s.hbm.queueOf p) ∧ tget 0 t.hbm.last pc = n + 1 ∧ exec i t = .next t
        ∧ t.cores = s.cores)

/-- Requests of HBM join their queues, and the runs of the pseudo-channels perform them. -/
def Obligations.RequestsAreQueuedAndPerformed : Prop :=
  RequestsJoinTheirQueues ∧ RunsPerformTheirRequests

/-- What leaves a hub leaves at its time: HBM_READ_EGRESS sends the line of a slot 360 hcyc after the slot began; HBM_WRITE_ACK
answers a write; HBM_UE_POISON_STORE marks a burst in an elastic run; LINK_RETRY changes nothing; LINK_SLIP of a scheduled line
poisons it, is counted, marks the core's run and is logged as SLIP. -/
def Sys2Proof.Claims.LinesLeaveTheHub : Prop :=
  ∀ (s : State) (pc slot c txn pkt b : Nat) (x : Egress) (a : WrAck) (d : Dest) (xs : List Egress) (as : List WrAck) (p : LinePkt)
    (bs : List (Nat × Nat)) (y : Txn),
    ((Instr.hbmReadEgress pc slot).wf = true → s.hbm.egress = x :: xs → x.pc = pc → x.slot = slot →
      x.tbt + 720 ≤ s.clk.tbt.toNat → x.req.dests = [d] →
      ∃ t, exec (.hbmReadEgress pc slot) s = .next t ∧ t.hbm = { s.hbm with egress := xs } ∧ t.cores = s.cores
        ∧ t.msg s.nextId = some (.line d.core ⟨d.addr + x.off, x.data, x.pois, x.req.sched, x.req.src, d.kind, x.req.reply,
          some (pc, slot), s.walkOf x.req.reply⟩)
        ∧ ∀ m, m ≠ s.nextId → t.msg m = s.msg m)
    ∧ ((Instr.hbmWriteAck a.id).wf = true → s.hbm.acks = a :: as → a.tbt ≤ s.clk.tbt.toNat → a.reply = .core c txn →
      (s.core c).txn txn = some y →
      ∃ t, exec (.hbmWriteAck a.id) s = .next t ∧ t.hbm = { s.hbm with acks := as } ∧ t.cores = s.cores
        ∧ t.msg s.nextId = some (.answer c ⟨txn, .ok, 0, a.pc, a.slot⟩) ∧ ∀ m, m ≠ s.nextId → t.msg m = s.msg m)
    ∧ ((Instr.hbmUePoisonStore pc).wf = true → s.hbm.store = (pc, b) :: bs →
      (s.hbm.entry pc (s.clk.tbt.toNat / 256 % 64)).kind = 0 →
      ∃ t, exec (.hbmUePoisonStore pc) s = .next t ∧ tget false t.hbm.pois b = true
        ∧ (∀ b', b' ≠ b → tget false t.hbm.pois b' = tget false s.hbm.pois b') ∧ t.hbm.store = bs ∧ t.hbm.mem = s.hbm.mem
        ∧ t.cores = s.cores)
    ∧ ((Instr.linkRetry pkt).wf = true → yields (.linkRetry pkt) s s)
    ∧ ((Instr.linkSlip pkt).wf = true → s.msg pkt = some (.line c p) → p.sched = true → p.cal = some (pc, slot) →
      s.fl.mutes = false →
      ∃ t f, exec (.linkSlip pkt) s = .next t
        ∧ (∃ q, t.msg pkt = some (.line c q) ∧ q.poison = true ∧ q.addr = p.addr ∧ q.data.length = p.data.length ∧ q.reply = p.reply)
        ∧ (t.hub (pc % 12 / 3)).slipCnt.toNat = min ((s.hub (pc % 12 / 3)).slipCnt.toNat + 1) 0xFFFFFFFF
        ∧ (t.core c).rn.slip = true ∧ tget none t.fl.log s.fl.head = some f ∧ f.cls = 0x08 ∧ f.stop = false
        ∧ t.hbm = s.hbm ∧ ∀ m, m ≠ c → t.core m = s.core m)

/-- CALENDAR_FRAME_BOUNDARY, once TBT / 16,384 passes the frame count: every pending change of a calendar takes effect, released
reservations go, the hubs count the frame. PATROL_SCRUB puts a request of the hub for its granule at the end of the elastic queue of its
pseudo-channel, where it has room; no byte and no mark changes. -/
def Sys2Proof.Claims.FramesAndScrubs : Prop :=
  ∀ (s : State) (granule : Nat),
    let n := s.clk.tbt.toNat / 16384
    (Instr.calendarFrameBoundary.wf = true → s.clk.run = true → (s.hub 0).frame.toNat < n → twf CalEntry.elastic s.hbm.cal = true →
      ∃ t, exec .calendarFrameBoundary s = .next t
        ∧ (∀ p r, r < 64 → t.hbm.entry p r =
          (let e := s.hbm.entry p r
           if e.pend then ⟨e.kind2, e.res2, false, 0, 0⟩ else e))
        ∧ t.hbm.resv = s.hbm.resv.filter (fun x => !x.2.gone) ∧ (∀ h, h < 4 → (t.hub h).frame.toNat = n)
        ∧ t.hbm.mem = s.hbm.mem ∧ t.cores = s.cores
        ∧ ((∀ x ∈ s.hbm.resv, x.2.gone = true → x.2.queues = []) → t.hbm.el = s.hbm.el))
    ∧ (let pc := granule % 768
      (Instr.patrolScrub (hubOf pc) granule).wf = true → 2048 * granule < 0x012000000000 →
      (s.hbm.queueOf pc).reqs.length < 64 →
      ∃ t x, exec (.patrolScrub (hubOf pc) granule) s = .next t ∧ (t.hbm.queueOf pc).reqs = (s.hbm.queueOf pc).reqs ++ [x]
        ∧ x.src = 3 ∧ x.req.dpa = 2048 * granule ∧ x.req.req = .scrub
        ∧ (∀ p, p ≠ pc → t.hbm.queueOf p = s.hbm.queueOf p) ∧ t.hbm.mem = s.hbm.mem ∧ t.hbm.pois = s.hbm.pois
        ∧ t.hbm.fixed = s.hbm.fixed ∧ t.cores = s.cores)

/-- What leaves a hub, frame boundaries, and patrol scrub. -/
def Obligations.LinesLeaveAndFramesTurn : Prop :=
  LinesLeaveTheHub ∧ FramesAndScrubs

/-! ### The placers of queues (11 R313 to R339) -/

/-- A request that a placer takes leaves the planes; no core's registers or memory change. -/
def Sys2Proof.Claims.placerKept (s t : State) : Prop :=
  (∀ k, (t.core k).regs = (s.core k).regs ∧ (t.core k).mem = (s.core k).mem) ∧ t.clk = s.clk ∧ t.host = s.host ∧ t.cfg = s.cfg

/-- PLACER_OPEN_REQUEST opens a connection where R314 admits it, and every member on this device would, its class that of the request,
or of the hub that sends
totals; one on a queue that is not OPEN is refused EPEER_GONE and counted. PLACER_CLOSE ends the connection, and its records
keep no credit. Other queues are as they were. -/
def Sys2Proof.Claims.PlacersOpenAndClose : Prop :=
  ∀ (s : State) (req cls core ctx member op seq : Nat) (r : QReq),
    let qid := r.handle % 2 ^ 20
    let q := s.queue qid
    let c := if r.core = 0xFF then (if q.scred ≠ 0 then 0 else 1) else cls
    let others := fun (t : State) => placerKept s t ∧ t.hbm = s.hbm ∧ ∀ y, y ≠ qid → t.queue y = s.queue y
    s.queueReq req = some r → r.reply = .queue core ctx member op seq → s.forDie r = false →
    (r.op = .opn cls → (Instr.placerOpenRequest req).wf = true →
      (q.state = 1 → ((s.job q.job).state ≠ 2 ∨ r.core = 0xFF) → r.dev = s.fab.devId → (c < 2 ↔ q.kind ≠ 1) → q.conns.length < q.maxconn →
        s.readerFree q qid = true → (c = 0 → q.scred ≠ 0 ∧ q.reserved + q.scred + 64 ≤ 2 ^ q.rlog / 2) →
        s.memberCause q r c = none →
        ∃ t a, exec (.placerOpenRequest req) s = .next t ∧ others t
          ∧ t.queue qid = { q with conns := q.conns ++ [⟨r.dev, r.core, r.ctx, r.member, c⟩] }
          ∧ t.msg s.nextId = some (.qans a) ∧ a.core = core ∧ a.ctx = ctx ∧ a.status = .ok
          ∧ (q.kind = 0 → a.credit = (if c = 0 then q.scred else 0) % 2 ^ 32 ∧ a.mcast = none))
      ∧ (q.state ≠ 1 →
        ∃ t a, exec (.placerOpenRequest req) s = .next t ∧ others t ∧ (t.queue qid).conns = q.conns
          ∧ (t.queue qid).refused.toNat = min (q.refused.toNat + 1) 0xFFFFFFFF
          ∧ t.msg s.nextId = some (.qans a) ∧ a.core = core ∧ a.ctx = ctx ∧ a.status = .epeerGone))
    ∧ (r.op = .close → (Instr.placerClose req).wf = true →
      ∃ t a, exec (.placerClose req) s = .next t ∧ others t
        ∧ (t.queue qid).conns = q.conns.filter (fun y => !y.isOf r)
        ∧ (∀ x ∈ (t.queue qid).recs, ∀ y, x.conn = some y → y.isOf r = false)
        ∧ (t.queue qid).tail = q.tail ∧ (t.queue qid).head = q.head
        ∧ t.msg s.nextId = some (.qans a) ∧ a.core = core ∧ a.ctx = ctx ∧ a.status = .ok)

/-- A record has been placed at the tail of the main ring, without a pad: the tail passes it, the queue lists it unreleased, and
its bytes are in HBM, or on their way to the reader core's landing unit. -/
def Sys2Proof.Claims.placedAt (s t : State) (qid : Nat) (n : NewRec) : Prop :=
  let q := s.queue qid
  let at0 := q.rbase + q.tail % 2 ^ q.rlog
  let size := 16 * ((8 + 8 * n.words.length + 15) / 16)
  ∃ x, (t.queue qid).recs = q.recs ++ [x] ∧ (t.queue qid).tail = q.tail + size ∧ (t.queue qid).head = q.head
    ∧ x.words = n.words ∧ x.size = size ∧ x.at0 = at0 ∧ x.done = false ∧ x.spill = false ∧ t.recNo = s.recNo + 2
    ∧ x.hdr.toNat = n.type % 4 + (if q.tail / 2 ^ q.rlog % 2 = 0 then 4 else 0) + (if n.poison then 8 else 0)
      + 16 * (n.words.length % 16) + 2 ^ 8 * (n.dev % 2 ^ 12) + 2 ^ 20 * (n.core % 2 ^ 8) + (if n.sat then 2 ^ 28 else 0)
      + (if n.partl then 2 ^ 29 else 0) + 2 ^ 32 * (n.seq % 2 ^ 32)
    ∧ (let d := leBytes x.hdr.toNat 8 ++ n.words.flatMap fun w => leBytes w.toNat 8
      let d := d ++ List.replicate (size - d.length) 0
      (q.hbm = true → readBytes t.hbm.mem at0 size = d
        ∧ ∀ a, a < at0 ∨ at0 + size ≤ a → tget 0 t.hbm.mem a = tget 0 s.hbm.mem a)
      ∧ (q.hbm = false → t.hbm = s.hbm ∧ ∃ p, t.msg s.nextId = some (.line q.reader p) ∧ p.addr = at0 ∧ p.data = d
        ∧ p.kind = .record qid ∧ p.poison = n.poison))

/-- PLACER_SEND places a record that comes first of its cycle, of a connection within its credit, in a PLAIN queue that is OPEN and has
room; without room, an
elastic send is refused (policy REFUSE), or dropped and counted (policy DROP). GROUP_ASSIGN gives the first record of a group that
no core has to a member: the first that is idle and holds none (balanced), or the one that sender and sequence name. -/
def Sys2Proof.Claims.PlacersPlaceRecords : Prop :=
  ∀ (s : State) (req k seq : Nat) (r : QReq) (c : Conn) (ws : List W64) (p : Bool) (x : PRec),
    let qid := r.handle % 2 ^ 20
    let q := s.queue qid
    let size := 16 * ((8 + 8 * ws.length + 15) / 16)
    let i : Instr := .placerSend req
    (i.wf = true → s.queueReq req = some r → s.forDie r = false → s.firstOfCycle r = true → r.op = .send seq ws p → q.conn r = some c → q.state = 1 →
      q.kind = 0 → q.tail % 2 ^ q.rlog + size ≤ 2 ^ q.rlog →
      let new : NewRec := ⟨1, ws, p, r.dev, r.core, seq, false, false⟩
      (c.cls = 0 → q.spent c + size ≤ q.scred → size ≤ 2 ^ q.rlog - (q.tail - q.head) →
        ∃ t, exec i s = .next t ∧ placerKept s t ∧ placedAt s t qid new)
      ∧ (c.cls ≠ 0 → size + q.unused ≤ 2 ^ q.rlog - (q.tail - q.head) → q.shead = q.stail →
        ∃ t, exec i s = .next t ∧ placerKept s t ∧ placedAt s t qid new)
      ∧ (c.cls ≠ 0 → 2 ^ q.rlog - (q.tail - q.head) < size + q.unused → q.policy = 0 →
        ∃ t, exec i s = .next t ∧ placerKept s t ∧ t.hbm = s.hbm ∧ (t.queue qid).recs = q.recs ∧ (t.queue qid).tail = q.tail
          ∧ (t.queue qid).refused.toNat = min (q.refused.toNat + 1) 0xFFFFFFFF)
      ∧ (c.cls ≠ 0 → 2 ^ q.rlog - (q.tail - q.head) < size + q.unused → q.policy = 1 →
        ∃ t, exec i s = .next t ∧ placerKept s t ∧ t.hbm = s.hbm ∧ (t.queue qid).recs = q.recs ∧ (t.queue qid).tail = q.tail
          ∧ (t.queue qid).drops.toNat = min (q.drops.toNat + 1) 0xFFFFFFFF))
    ∧ (let q := s.queue req
      let ms := (List.range 128).filter fun m => (tget 0 s.qgrp q.reader).getLsbD m
      (Instr.groupAssign req).wf = true → q.group = true →
      q.recs.find? (fun y => y.core = none && !y.pad && !y.done) = some x →
      (q.bal = true → ms.find? (fun m => (s.core m).atDispatch && !s.hasAssigned m) = some k) →
      (q.bal = false → ms[(x.hdr.toNat / 2 ^ 20 % 256 + x.hdr.toNat / 2 ^ 32) % ms.length]? = some k) →
      ∃ t, exec (.groupAssign req) s = .next t ∧ { t with queues := s.queues } = s
        ∧ (∀ y, y ≠ req → t.queue y = s.queue y)
        ∧ t.queue req = { q with recs := q.recs.map fun y => if y.no = x.no ∧ y.pad = false then { y with core := some k } else y })

/-- Placers open and close connections and place records. -/
def Obligations.PlacersServeTheirQueues : Prop :=
  PlacersOpenAndClose ∧ PlacersPlaceRecords

/-- COMBINING_CONTRIBUTION, of an entry whose time has not passed before it arrived, adds a value to the entry of its queue and key,
exactly, and counts it; the first of a key takes an
entry. The contribution that makes EXPECT ends the entry, as COMBINING_TIMEOUT ends one that has waited CTMO µs, no contribution of its
hcyc being left: its total goes to
DQ, with PARTIAL after a timeout. Other entries are as they were. -/
def Obligations.ContributionsCombine : Prop :=
  ∀ (s : State) (req qid key : Nat) (r : QReq) (c : Conn) (k32 : W32) (x : W128) (p : Bool) (e : CombEntry),
    let q := s.queue qid
    let hub := s.hub q.home
    let others := fun (t : State) => t.cores = s.cores ∧ t.hbm = s.hbm ∧ t.jobs = s.jobs ∧ (∀ y, y ≠ q.home → t.hub y = s.hub y)
      ∧ (∀ y, y ≠ qid → t.queue y = s.queue y)
      ∧ ∀ y : CombEntry, ¬ (y.qid = qid ∧ y.key = key) → (y ∈ (t.hub q.home).comb ↔ y ∈ hub.comb)
    let totals := fun (t : State) (sum : Int) (count : Nat) (poison partl : Bool) =>
      (∀ y ∈ (t.hub q.home).comb, ¬ (y.qid = qid ∧ y.key = key)) ∧ (t.hub q.home).combDel = hub.combDel + 1
        ∧ (t.queue qid).totals = q.totals + 1
        ∧ (q.dq / 2 ^ 20 = s.fab.devId → q.exact = false → -2 ^ 63 ≤ sum → sum < 2 ^ 63 →
          ∃ id y w, t.msg id = some (.queue y) ∧ y.handle = q.dq ∧ y.core = 0xFF
            ∧ y.op = .total (q.totals % 2 ^ 32) false partl [BitVec.ofNat 64 key, BitVec.ofInt 64 sum, w, BitVec.ofNat 64 count] poison)
    (s.queueReq req = some r → r.handle % 2 ^ 20 = qid → r.op = .csend k32 false x p → k32.toNat = key → q.conn r = some c →
      q.state = 1 → q.kind = 1 → (Instr.combiningContribution req).wf = true →
      let old := hub.comb.find? fun y => y.qid = qid && y.key = key
      (old = some e ∨ old = none ∧ e = ⟨qid, key, 0, 0, .none, false, s.clk.tbt.toNat, false⟩ ∧ c.cls = 3
          ∧ (hub.comb.filter fun y => !y.resv).length < 65536 - hub.combRes) →
      (q.ctmo = 0 ∨ r.at0 / 2 ≤ (e.first + 4000 * q.ctmo) / 2) →
      (e.count + 1 < q.expect →
        ∃ t, exec (.combiningContribution req) s = .next t ∧ others t ∧ t.queue qid = q
          ∧ { e with sum := e.sum + x.toInt, count := e.count + 1, poison := e.poison || p } ∈ (t.hub q.home).comb)
      ∧ (q.expect ≤ e.count + 1 →
        ∃ t, exec (.combiningContribution req) s = .next t ∧ others t
          ∧ totals t (e.sum + x.toInt) (e.count + 1) (e.poison || p) false))
    ∧ ((Instr.combiningTimeout qid key).wf = true → hub.comb.find? (fun y => y.qid = qid && y.key = key) = some e →
      q.ctmo ≠ 0 → e.first + 4000 * q.ctmo ≤ s.clk.tbt.toNat → s.contribWaits qid key (e.first + 4000 * q.ctmo) = false →
      ∃ t, exec (.combiningTimeout qid key) s = .next t ∧ others t ∧ totals t e.sum e.count e.poison true
        ∧ (t.hub q.home).combPar.toNat = min (hub.combPar.toNat + 1) 0xFFFFFFFF)
/-! ### Clock islands and the timebase (12) -/

/-- The ccyc of an island when `delta` of its ccyc have passed. -/
def Sys2Proof.Claims.islandAt (s : State) (island delta d : Nat) : Prop :=
  island = 136 ∧ d = s.clk.plNow + delta
    ∨ island ≠ 136 ∧ ∃ k, s.logical island = some k ∧ d = (reached s k delta).tm.now

/-- An island is as it was, but that a slip episode of it may have ended. -/
def Sys2Proof.Claims.islandKept (x y : Island) : Prop := { y with slipped := x.slipped } = x

/-- DROOP_NOTICE of a rested island stretches its next ccyc and gives PL a notice; EMERGENCY_STRETCH, within 16 ccyc of a stretch and
not within 4 of an independent one, stretches the next ccyc and leaves one pending; DIE_EVENT_GRANT, at least 16 PL ccyc after
the last, clears each notice, takes one from each pending stretch, stretches every other running island once, and counts one die
event; CROSSING_SLIP with a difference above 8 ccyc counts its words, poisons the message that crosses, and raises SLIP once for each
episode. -/
def Sys2Proof.Claims.StretchesAndSlips : Prop :=
  ∀ (s : State) (i delta d : Nat),
    let x := s.island i
    let others := fun (t : State) => (∀ j, j ≠ i → islandKept (s.island j) (t.island j)) ∧ t.hbm = s.hbm ∧ t.clk.tbt = s.clk.tbt
      ∧ t.clk.stretch = s.clk.stretch ∧ t.host = s.host
    twf Island.off s.clk.isl = true →
    (fit (.droopNotice i delta) s = true → islandAt s i delta d → x.runs = true → x.rested d = true →
      ∃ t, exec (.droopNotice i delta) s = .next t ∧ others t
        ∧ islandKept { x with last := some (d + 1), taken := x.taken + 1, notice := true } (t.island i))
    ∧ (fit (.emergencyStretch i delta) s = true → islandAt s i delta d → x.runs = true → x.rested d = false →
      (∀ l, x.indep = some l → l + 4 ≤ d + 1) →
      ∃ t, exec (.emergencyStretch i delta) s = .next t ∧ others t
        ∧ islandKept { x with last := some (d + 1), indep := some (d + 1), taken := x.taken + 1, pend := x.pend + 1 } (t.island i)
        ∧ t.clk.indepCnt.toNat = min (s.clk.indepCnt.toNat + 1) 0xFFFFFFFF)
    ∧ (fit (.dieEventGrant delta) s = true → i ≤ 136 → x.runs = true → (x.notice = true ∨ x.pend ≠ 0) →
      (∀ l, s.clk.plLast = some l → l + 16 ≤ s.clk.plNow + delta) →
      ∃ t, exec (.dieEventGrant delta) s = .next t ∧ t.clk.stretch = s.clk.stretch + 1 ∧ t.clk.plNow = s.clk.plNow + delta
        ∧ t.clk.plLast = some (s.clk.plNow + delta) ∧ t.cores = s.cores ∧ t.hbm = s.hbm ∧ t.clk.tbt = s.clk.tbt
        ∧ ∀ j, j ≤ 136 →
          let a := s.island j
          let b := t.island j
          (a.runs = true → b.notice = false) ∧ (a.runs = false → b.notice = a.notice)
          ∧ (a.runs = true → a.notice = true → b.taken = a.taken ∧ b.pend = a.pend)
          ∧ (a.runs = true → a.notice = false → a.pend ≠ 0 → b.taken = a.taken ∧ b.pend = a.pend - 1)
          ∧ (a.runs = true → a.notice = false → a.pend = 0 → b.taken = a.taken + 1 ∧ b.pend = 0)
          ∧ (a.runs = false → b.taken = a.taken ∧ b.pend = a.pend))
    ∧ ∀ (c words pkt : Nat) (toCore : Bool) (p : LinePkt) (k : Nat),
      let y := s.island (s.phys c)
      let i : Instr := .crossingSlip c toCore words [pkt]
      fit i s = true → 8 < s.clk.slack (s.phys c) → s.msg pkt = some (.line k p) →
      (Msg.line k p).crosses s.fab.devId c toCore = true → s.fl.mutes = false →
      ∃ t, exec i s = .next t
        ∧ t.clk.slipCnt.toNat = min (s.clk.slipCnt.toNat + max words 1) 0xFFFFFFFF
        ∧ (∃ q, t.msg pkt = some (.line k q) ∧ q.poison = true ∧ q.addr = p.addr ∧ q.data.length = p.data.length)
        ∧ (∀ m, m ≠ c → t.core m = s.core m) ∧ (t.core c).regs = (s.core c).regs ∧ (t.core c).mem = (s.core c).mem
        ∧ (y.slipped = true → t.fl = s.fl ∧ t.cores = s.cores)
        ∧ (y.slipped = false → (t.island (s.phys c)).slipped = true ∧ (t.core c).rn.slip = true
          ∧ ∃ f, tget none t.fl.log s.fl.head = some f ∧ f.cls = 0x08 ∧ f.stop = false)

/-- PPS_IN_EDGE on the master latches TBT and the offset from the nearest multiple of 4,000,000,000, judges it against 8 ticks, and
steers against it by no more than 20 ppm; an edge that is not due is counted. PPS_OUT_RISE and PPS_OUT_FALL drive PPS_OUT;
TIME_MESSAGE_SEND queues a time request at a port that is not upstream; TIMEBASE_COPY_CORRECTION gives one island's copy a new offset, still
within 8 ticks. -/
def Sys2Proof.Claims.TheTimebaseIsKept : Prop :=
  ∀ (s : State) (i port m : Nat) (e : Int),
    let t := s.clk.tbt.toNat
    (Instr.ppsInEdge.wf = true → s.clk.aligned = true → s.clk.lost = [] → (t : Int) = m * 4000000000 + e → -2000000000 ≤ e → e < 2000000000 →
      (s.clk.master = false → yields .ppsInEdge s s)
      ∧ (s.clk.master = true → (s.clk.lastPps = none ∨ s.clk.lastPps = some (t - 4000000000) ∧ 4000000000 ≤ t) →
        ∃ u, exec .ppsInEdge s = .next u ∧ u.clk.ppsTbt = s.clk.tbt ∧ u.clk.ppsErr = BitVec.ofInt 32 e ∧ u.clk.lastPps = some t
          ∧ u.clk.valid = (if -8 ≤ e ∧ e ≤ 8 then s.clk.valid + 1 else 0)
          ∧ (u.clk.locked = true ↔ (-8 ≤ e ∧ e ≤ 8) ∧ (s.clk.locked = true ∨ 4 ≤ s.clk.valid + 1))
          ∧ (e = 0 → u.clk.steer = 0) ∧ (0 < e → -20000 ≤ u.clk.steer.toInt ∧ u.clk.steer.toInt ≤ 0)
          ∧ (e < 0 → 0 ≤ u.clk.steer.toInt ∧ u.clk.steer.toInt ≤ 20000)
          ∧ u.clk.tbt = s.clk.tbt ∧ { u with clk := s.clk } = s)
      ∧ (∀ l, s.clk.master = true → s.clk.lastPps = some l → t < l + 3996000000 →
        ∃ u, exec .ppsInEdge s = .next u ∧ u.clk.ppsBad.toNat = min (s.clk.ppsBad.toNat + 1) 0xFFFFFFFF
          ∧ { u with clk := { u.clk with ppsBad := s.clk.ppsBad } } = s))
    ∧ (Instr.ppsOutRise.wf = true → s.clk.run = true → t % 4000000000 < 8 →
      yields .ppsOutRise s { s with clk := { s.clk with ppsOut := true } })
    ∧ (Instr.ppsOutFall.wf = true → 400000000 ≤ t % 4000000000 →
      yields .ppsOutFall s { s with clk := { s.clk with ppsOut := false } })
    ∧ ((Instr.timeMessageSend port).wf = true → (s.port port).state = 4 →
      (s.clk.master = true ∨ s.clk.upstream.getLsbD 31 = false ∨ s.clk.upstream.toNat % 16 ≠ port) →
      ∃ u y, exec (.timeMessageSend port) s = .next u ∧ (u.port port).txq = (s.port port).txq ++ [y]
        ∧ y.own = some (.time (.request s.clk.locked)) ∧ y.via = none ∧ (u.port port).tDep = none ∧ (u.port port).tArr = none
        ∧ (∀ p, p ≠ port → u.port p = s.port p) ∧ { u with ports := s.ports } = s)
    ∧ (fit (.timebaseCopyCorrection i) s = true → (s.island i).runs = true → i ≤ 136 →
      ∃ u, exec (.timebaseCopyCorrection i) s = .next u ∧ (∀ j, j ≠ i → u.copyTbt j = s.copyTbt j)
        ∧ (u.copyTbt i - s.clk.tbt).toInt ≤ 8 ∧ -8 ≤ (u.copyTbt i - s.clk.tbt).toInt ∧ u.clk.tbt = s.clk.tbt ∧ u.cores = s.cores
        ∧ u.hbm = s.hbm)

/-- TIMEBASE_STEP moves the count by whole frames, and with it the instants that are measured from; pending calendar changes take effect.
REFERENCE_LOSS of a monitored reference begins
holdover with its TBT, clears LOCKED for PPS_IN, alerts and is entered in the ledger; HOLDOVER_END ends it with the last reference that
was lost. -/
def Sys2Proof.Claims.StepsAndHoldover : Prop :=
  ∀ (s : State) (t0 : Nat) (m : Int) (rest : List (Nat × Int)) (r : Reference),
    (Instr.timebaseStep.wf = true → s.clk.steps = (t0, m) :: rest → t0 ≤ s.clk.tbt.toNat → twf CalEntry.elastic s.hbm.cal = true →
      twf Core.reset s.cores = true →
      ∃ u, exec .timebaseStep s = .next u ∧ u.clk.tbt = s.clk.tbt + BitVec.ofInt 64 (16384 * m) ∧ u.clk.steps = rest
        ∧ u.clk.stepped = true ∧ (∀ h, h < 4 → (u.hub h).frame.toNat = u.clk.tbt.toNat / 16384)
        ∧ (∀ p q, q < 64 → (s.hbm.entry p q).pend = true →
          u.hbm.entry p q = ⟨(s.hbm.entry p q).kind2, (s.hbm.entry p q).res2, false, 0, 0⟩)
        ∧ (∀ p q, q < 64 → (s.hbm.entry p q).pend = false → u.hbm.entry p q = s.hbm.entry p q)
        ∧ u.clk.stopAt = ((s.clk.stopAt : Int) + 16384 * m).toNat ∧ u.clk.lastPps = s.clk.lastPps.map (fun x => ((x : Int) + 16384 * m).toNat)
        ∧ u.hbm.mem = s.hbm.mem ∧ u.queues = s.queues
        ∧ ∀ k, (u.core k).regs = (s.core k).regs ∧ (u.core k).mem = (s.core k).mem ∧ (u.core k).tm = (s.core k).tm)
    ∧ ((Instr.referenceLoss r).wf = true → (r = .pps → s.clk.master = true) → (r = .upstream → s.clk.master = false) →
      s.clk.silent r = true → r ∉ s.clk.lost →
      ∃ u, exec (.referenceLoss r) s = .next u ∧ u.clk.holdover = true ∧ u.clk.lost = s.clk.lost ++ [r]
        ∧ u.clk.holdTbt = (if s.clk.holdover then s.clk.holdTbt else s.clk.tbt) ∧ u.clk.tbt = s.clk.tbt
        ∧ (r = .pps → u.clk.locked = false) ∧ (r ≠ .pps → u.clk.locked = s.clk.locked) ∧ u.mss.alert.getLsbD 0 = true
        ∧ (s.mss.ledBuf.length < 256 → ∃ x, u.mss.ledBuf = s.mss.ledBuf ++ [x] ∧ x.type = 3 ∧ x.seq = s.mss.ledSeq)
        ∧ (r ≠ .cxlclk → { u with clk := s.clk, mss := s.mss, hc := s.hc } = s) ∧ (r = .cxlclk → u.host.width = 0))
    ∧ ((Instr.holdoverEnd r).wf = true → r ∈ s.clk.lost → (r = .pps → s.clk.locked = true) →
      (r = .upstream → s.clk.silent .upstream = false) →
      ∃ u, exec (.holdoverEnd r) s = .next u ∧ r ∉ u.clk.lost ∧ (u.clk.holdover = true ↔ ∃ y ∈ s.clk.lost, y ≠ r)
        ∧ (∀ y, y ≠ r → (y ∈ u.clk.lost ↔ y ∈ s.clk.lost)) ∧ u.clk.tbt = s.clk.tbt ∧ u.clk.locked = s.clk.locked
        ∧ { u with clk := s.clk, mss := s.mss, hc := s.hc } = s)

/-- The timebase: its count while the queue is empty (the model's choice, notes/assumptions/4.md), its references, steps and holdover. -/
def Obligations.TheTimebaseIsKeptAndStepped : Prop :=
  IdleStepCountsTheTimebase ∧ TheTimebaseIsKept ∧ StepsAndHoldover

/-- OP_STOP_BEGIN gates the clocks of the C-die once every core is at a stop point; OP_STOP_RESUME restarts them at the new
point; SET_OP_TIMEOUT ends the command with ETIMEOUT and the point stays. -/
def Sys2Proof.Claims.StopsChangeTheOperatingPoint : Prop :=
  ∀ (s : State) (ticks point id t0 : Nat) (c : Cmd),
    (Instr.opStopBegin.wf = true → s.clk.change.isSome = true → s.clk.stopped = false → s.mayStop = true →
      twf Island.off s.clk.isl = true →
      ∃ t, exec .opStopBegin s = .next t ∧ t.clk.stopped = true ∧ t.clk.stopAt = s.clk.tbt.toNat ∧ t.clk.op = s.clk.op
        ∧ (∀ i, i ≤ 136 → (s.island i).present = true → (t.island i).clocked = false) ∧ (∀ i, 136 < i → t.island i = s.island i)
        ∧ { t with clk := s.clk } = s)
    ∧ ((Instr.opStopResume ticks).wf = true → s.clk.change = some (point, some id, t0) → s.clk.stopped = true → 19600 ≤ ticks → ticks ≤ 20000 →
      s.clk.stopAt + ticks ≤ s.clk.tbt.toNat → s.cmd id = some c → twf Island.off s.clk.isl = true →
      ∃ t, exec (.opStopResume ticks) s = .next t ∧ t.clk.stopped = false ∧ t.clk.op = point ∧ t.clk.hostOp = c.p.p0.toNat % 8
        ∧ t.clk.lastStop = BitVec.ofNat 32 ticks ∧ t.clk.opChg = s.clk.opChg + 1
        ∧ (∀ i, i ≤ 136 → (s.island i).present = true → (t.island i).clocked = true) ∧ (∀ y ∈ t.host.exec, y.id ≠ id)
        ∧ t.hbm = s.hbm ∧ t.clk.tbt = s.clk.tbt)
    ∧ (Instr.setOpTimeout.wf = true → s.clk.change = some (point, some id, t0) → s.clk.stopped = false →
      t0 + 400000000 ≤ s.clk.tbt.toNat → s.cmd id = some c → c.mute = false →
      ∃ t, exec .setOpTimeout s = .next t ∧ t.clk.op = s.clk.op ∧ t.clk.stopped = false ∧ (∀ y ∈ t.host.exec, y.id ≠ id)
        ∧ (∃ y ∈ (t.ring c.ring).waiting, y.tag = c.p.tag.toNat ∧ y.status = .etimeout) ∧ t.hbm = s.hbm ∧ t.clk.isl = s.clk.isl)

/-- Stretches, slips and stops of the clocks. -/
def Obligations.ClocksStretchSlipAndStop : Prop :=
  StretchesAndSlips ∧ StopsChangeTheOperatingPoint

/-! ### NDX ports and packets (13) -/

/-- Cores, hubs, HBM, jobs, clocks, the host interface, registers of the host and pins are as they were. -/
def Sys2Proof.Claims.unitsKept (s t : State) : Prop :=
  t.cores = s.cores ∧ t.hubs = s.hubs ∧ t.hbm = s.hbm ∧ t.jobs = s.jobs ∧ t.clk = s.clk ∧ t.host = s.host ∧ t.cfg = s.cfg
    ∧ t.pins = s.pins ∧ t.pending = s.pending

/-- Lane `k` of a port has failed: a spare lane takes the place of an active one; without one the port goes on with half its
lanes after 20 µs. -/
def Sys2Proof.Claims.laneFailed (s t : State) (port k : Nat) : Prop :=
  let x := s.port port
  let y := t.port port
  (x.active.getLsbD k = false → y.state = x.state ∧ y.active = x.active ∧ y.width = x.width ∧ y.failed.getLsbD k = true)
    ∧ (x.active.getLsbD k = true → x.width = 4 → x.active.getLsbD 4 = false → x.failed.getLsbD 4 = false →
      y.state = x.state ∧ y.width = 4 ∧ y.spare = true ∧ y.failed.getLsbD k = true
        ∧ ∀ i, i < 5 → (y.active.getLsbD i = true ↔ i = 4 ∨ i ≠ k ∧ x.active.getLsbD i = true))
    ∧ (x.active.getLsbD k = true → x.width = 4 ∨ x.width = 2 → (x.active.getLsbD 4 = true ∨ x.failed.getLsbD 4 = true) →
      y.state = x.state ∧ y.width = x.width / 2 ∧ y.retrain = true ∧ y.busy = s.clk.tbt.toNat + 80000 ∧ y.active.getLsbD k = false)

/-- PORT_TRAINING_DONE, of a port in TRAINING, enters AUTH at the width that its lanes give, with the link's delay and asymmetry as
measured; the port sends its certificate chain with its number, and a nonce. PORT_AUTH_DONE, where authentication succeeds, enters JOIN;
PORT_JOIN_DONE, with an ID that the master gives, makes the port UP, with its partner and the routes that come with it. -/
def Sys2Proof.Claims.PortsComeUp : Prop :=
  ∀ (s : State) (port : Nat) (lanes failed : BitVec 5) (dly : Nat) (asym : Int) (enc : Bool) (serial : List Byte) (d : Nat)
    (partner : BitVec 12) (pport : BitVec 4) (rs : List (Nat × W32)) (e : W32),
    let x := s.port port
    let now := s.clk.tbt.toNat
    let n := ((List.range 5).filter fun i => lanes.getLsbD i).length
    let others := fun (t : State) => unitsKept s t ∧ ∀ p, p ≠ port → t.port p = s.port p
    (let i : Instr := .portTrainingDone port ⟨lanes, failed⟩ ⟨dly, asym⟩;
      i.wf = true → x.state = 1 → 1 ≤ n →
      ∃ t a b, exec i s = .next t ∧ others t ∧ (t.port port).state = 2 ∧ (t.port port).since = now
        ∧ (t.port port).width = (if 4 ≤ n then 4 else if 2 ≤ n then 2 else 1) ∧ (t.port port).failed = failed
        ∧ (t.port port).dly = dly % 65536 ∧ (t.port port).asym = asym ∧ (t.port port).txq = x.txq ++ [a, b]
        ∧ a.own = some (.auth (.chain s.mss.chain (BitVec.ofNat 4 port))) ∧ b.own = some (.auth (.nonce (t.port port).nonces)))
    ∧ (let i : Instr := .portAuthDone port true true enc serial;
      i.wf = true → x.state = 2 → (enc = true ∨ x.cfg.getLsbD 1 = false) →
      ∃ t, exec i s = .next t ∧ others t
        ∧ t.port port = { x with state := 3, since := now, authOk := true, enc := enc, encCount := 0 })
    ∧ (let i : Instr := .portJoinDone port partner pport serial (rs ++ [(d, e)]);
      i.wf = true → x.state = 3 → s.fab.idValid = true → (s.fab.role = 1 → s.fab.idFor serial = some partner.toNat) → d < 4096 →
      ∃ t, exec i s = .next t ∧ others t ∧ (t.port port).state = 4 ∧ (t.port port).since = now
        ∧ (t.port port).peer = BitVec.ofNat 32 (partner.toNat + 2 ^ 12 * pport.toNat + 2 ^ 16) ∧ tget 0 t.fab.rt d = e
        ∧ t.fab.devId = s.fab.devId)

/-- LANE_LOSS_OF_LOCK, and FEC_WINDOW on the third window in a row above the limit, fail a lane; a window within the limit keeps every
lane and counts anew. UNCORRECTABLE_CODEWORD, but for the fifth within a second, is counted; LANE_RETRAIN_DONE ends a retrain; at
APERTURE_DROP_WINDOW, where the drops do not pass the threshold, they are counted anew. -/
def Sys2Proof.Claims.LanesFailAndRecover : Prop :=
  ∀ (s : State) (port k : Nat) (errors : List Nat),
    let x := s.port port
    let now := s.clk.tbt.toNat
    let others := fun (t : State) => unitsKept s t ∧ ∀ p, p ≠ port → t.port p = s.port p
    ((Instr.laneLossOfLock port k).wf = true → x.state ≠ 0 → x.failed.getLsbD k = false →
      (x.active.getLsbD k = false ∨ x.width = 4 ∨ x.width = 2) →
      ∃ t, exec (.laneLossOfLock port k) s = .next t ∧ unitsKept s t ∧ laneFailed s t port k)
    ∧ ((Instr.fecWindow port errors).wf = true → x.bad.length = 5 → errors.length = 5 →
      ((∀ i, i < 5 → errors.getD i 0 ≤ 10000) →
        ∃ t, exec (.fecWindow port errors) s = .next t ∧ others t
          ∧ t.port port = { x with bad := [0, 0, 0, 0, 0], counts := errors })
      ∧ (x.state ≠ 0 → x.failed.getLsbD k = false → k < 5 → x.bad.getD k 0 = 2 → 10000 < errors.getD k 0 →
        (∀ i, i ≠ k → errors.getD i 0 ≤ 10000) → (x.active.getLsbD k = false ∨ x.width = 4 ∨ x.width = 2) →
        ∃ t, exec (.fecWindow port errors) s = .next t ∧ unitsKept s t ∧ laneFailed s t port k ∧ (t.port port).bad.getD k 0 = 0))
    ∧ ((Instr.uncorrectableCodeword port).wf = true → (x.ueTbt.filter fun u => now < u + 4000000000).length < 4 →
      ∃ t, exec (.uncorrectableCodeword port) s = .next t ∧ others t ∧ (t.port port).fecUe.toNat = min (x.fecUe.toNat + 1) 0xFFFFFFFF
        ∧ (t.port port).ueTbt = x.ueTbt.filter (fun u => now < u + 4000000000) ++ [now] ∧ { t with ports := s.ports } = s)
    ∧ ((Instr.laneRetrainDone port).wf = true → x.retrain = true → x.busy ≤ now →
      yields (.laneRetrainDone port) s (s.setPort port { x with retrain := false }))
    ∧ ((Instr.apertureDropWindow port).wf = true → (x.cfg.toNat / 2 ^ 18 % 256 = 0 ∨ x.drops ≤ x.cfg.toNat / 2 ^ 18 % 256) →
      yields (.apertureDropWindow port) s (s.setPort port { x with drops := 0 }))

/-- Ports come up; their lanes fail and recover. -/
def Obligations.PortsComeUpAndKeepTheirLanes : Prop :=
  PortsComeUp ∧ LanesFailAndRecover

/-- PORT_STATE_TIMEOUT, of a state that has lasted too long, PARTNER_LOST, and CREDIT_TIMEOUT of a packet that has waited 200 µs for
credit: the first two take the port DOWN with the cause of R378, the last FENCEs it and alerts. -/
def Sys2Proof.Claims.PortsTimeOut : Prop :=
  ∀ (s : State) (port vc : Nat),
    let x := s.port port
    let now := s.clk.tbt.toNat
    let down := fun (i : Instr) (cause : Nat) => ∃ t, exec i s = .next t ∧ unitsKept s t ∧ (t.port port).state = 0
      ∧ (t.port port).cause = cause ∧ (t.port port).since = now
    ((Instr.portStateTimeout port).wf = true →
      (x.state = 1 ∧ x.since + 2000000000 ≤ now → down (.portStateTimeout port) 1)
      ∧ (x.state = 2 ∧ x.since + 400000000 ≤ now → down (.portStateTimeout port) 2)
      ∧ (x.state = 3 ∧ x.since + 200000000 ≤ now → down (.portStateTimeout port) 3))
    ∧ ((Instr.partnerLost port).wf = true → x.state ≠ 0 → down (.partnerLost port) 1)
    ∧ ((Instr.creditTimeout port vc).wf = true → x.state = 4 → x.credit.getD vc 0 = 0 → x.credAt.getD vc 0 + 800000 ≤ now →
      (∃ y ∈ x.txq ++ x.waitq, y.hdr.vc.toNat = vc ∧ y.at0 + 800000 ≤ now) →
      ∃ t, exec (.creditTimeout port vc) s = .next t ∧ unitsKept s t ∧ (t.port port).state = 5 ∧ (t.port port).cause = 4
        ∧ t.mss.alert.getLsbD 1 = true)

/-- What fails takes the port with it: authentication that does not succeed, in the trust, in the signature or for want of the
encryption that
NX_CFG asks for, and the loss of the last lane, take it DOWN; more aperture
drops in a millisecond than the threshold FENCE it. -/
def Sys2Proof.Claims.PortsFailWithTheirCause : Prop :=
  ∀ (s : State) (port k : Nat) (trusted signed enc : Bool) (serial : List Byte),
    let x := s.port port
    let now := s.clk.tbt.toNat
    let th := x.cfg.toNat / 2 ^ 18 % 256
    let down := fun (i : Instr) (cause : Nat) => ∃ t, exec i s = .next t ∧ unitsKept s t ∧ (t.port port).state = 0
      ∧ (t.port port).cause = cause ∧ (t.port port).since = now
    ((Instr.portAuthDone port trusted signed enc serial).wf = true → x.state = 2 →
      (trusted && signed && (enc || !x.cfg.getLsbD 1)) = false → down (.portAuthDone port trusted signed enc serial) 2)
    ∧ ((Instr.laneLossOfLock port k).wf = true → x.state ≠ 0 → x.failed.getLsbD k = false → x.active.getLsbD k = true → x.width = 1 →
      down (.laneLossOfLock port k) 5)
    ∧ ((Instr.apertureDropWindow port).wf = true → th ≠ 0 → th < x.drops → x.state ≠ 0 → x.state ≠ 5 →
      ∃ t, exec (.apertureDropWindow port) s = .next t ∧ unitsKept s t ∧ (t.port port).state = 5 ∧ (t.port port).cause = 6
        ∧ t.mss.alert.getLsbD 1 = true)

/-- Ports go DOWN, or are FENCED, with their cause. -/
def Obligations.PortsGoDownWithTheirCause : Prop :=
  PortsTimeOut ∧ PortsFailWithTheirCause

/-- The packet reaches a port that is UP in its turn, good, of its type on a permitted VC, from a device that the route table
expects there, and it is for this device. -/
def Sys2Proof.Claims.accepted (s : State) (x : PktIn) (type : Nat) : Prop :=
  let p := s.port x.port
  x.hdr.type.toNat = type ∧ p.state = 4 ∧ x.hdr.seq.toNat = p.seqRx ∧ x.stomp = false ∧ PktGood x p.enc = true
    ∧ typeOk type x.hdr.vc.toNat = true ∧ x.hdr.hops ≠ 15 ∧ fabDev x.hdr.addr.toNat = s.fab.devId
    ∧ s.sourceOk x.port x.hdr = true

/-- Packets that go on to a unit of the device leave the rest as it was. -/
def Sys2Proof.Claims.handed (i : Instr) (s : State) (m : Msg) : Prop :=
  ∃ t, exec i s = .next t ∧ t.msg s.nextId = some m ∧ (∀ id, id ≠ s.nextId → t.msg id = s.msg id) ∧ unitsKept s t
    ∧ t.queues = s.queues

/-- An accepted request that an aperture admits goes to its hub whole, where it lies in one granule or is scheduled, to its core or to its
placer: a WRITE late for its budget is written
poisoned; an answer goes to whoever waits for its tag, and the tag is free again; returned credit goes to its context. -/
def Obligations.PacketsReachTheirUnit : Prop :=
  ∀ (s : State) (x : PktIn) (core txn : Nat) (o : OutReq) (y : Txn),
    let h := x.hdr
    let dpa := h.addr.toNat % 2 ^ 48
    let n := max 1 h.len.toNat
    let admitted := fun (k : ApKind) =>
      (s.port x.port).admits h.srcDev.toNat dpa (dpa + n - 1) k (h.vc = 0) = true
    let late := h.budget ≠ 0 && decide (h.budget.toNat < (s.ns32 - h.depart).toNat)
    let src : Source := ⟨h.srcDev.toNat, h.srcAg.toNat, true⟩
    let slot := h.vc = 0 ∧ h.tsen = true
    let toHub := fun (i : Instr) (req : MemReq) (r : Reply) =>
      dpa < 0x011E00000000 → (slot ∨ dpa % 2048 + req.len ≤ 2048) → handed i s
        (.hub ⟨dpa, req, slot, if slot then some h.tslot.toNat else none, x.port, src, [], r⟩)
    let toQ := fun (i : Instr) (op : QOp) => ∃ cls, handed i s
      (.queue ⟨s.fab.devId * 2 ^ 20 + dpa % 2 ^ 20, h.srcDev.toNat, h.srcAg.toNat, dpa / 2 ^ 20 % 2 ^ 20,
        h.addr.toNat / 2 ^ 40 % 2 ^ 7, cls, op, requester h x.port 0 0, s.clk.tbt.toNat⟩)
    let qAdmitted := (s.queue (dpa % 2 ^ 20)).kind = 0 ∧ (s.queue (dpa % 2 ^ 20)).state = 1
      ∧ (s.port x.port).admits h.srcDev.toNat (s.queue (dpa % 2 ^ 20)).ring.1 (s.queue (dpa % 2 ^ 20)).ring.2 .queue (h.vc = 0) = true
    let outstanding := fun (t agent tag : Nat) =>
      s.outReply agent tag = some o ∧ o.type = t ∧ o.reply = .core core txn ∧ (s.core core).txn txn = some y ∧ s.fab.moved = []
    let me := addrAgent h.addr.toNat
    let freed := fun (t : State) (agent tag : Nat) => ∀ z ∈ t.fab.out, ¬ (z.tag = tag ∧ z.agent = agent)
    (accepted s x 1 → admitted .wr → x.data ≠ [] → (Instr.pktWrite x).wf = true →
      toHub (.pktWrite x) (.write x.data (List.replicate x.data.length (h.poison || late))) (requester h x.port 0 0)
      ∧ (0x100000000000 ≤ dpa → dpa < 0x100100000000 → s.fenced = false →
        handed (.pktWrite x) s (.line ((dpa - 0x100000000000) / 0x2000000)
          ⟨(dpa - 0x100000000000) % 0x2000000, x.data, h.poison || late, h.vc = 0, src, .write, requester h x.port 0 0, none, none⟩)))
    ∧ (accepted s x 2 → admitted .rd → h.len ≠ 0 → (Instr.pktRead x).wf = true →
      ∃ r, toHub (.pktRead x) (.read h.len.toNat) r)
    ∧ (accepted s x 4 → admitted .atom → (Instr.pktAtomic x).wf = true →
      toHub (.pktAtomic x) (.atom ⟨h.w8, h.aop, h.sgn, BitVec.ofNat 64 (leAt x.data 0 8), BitVec.ofNat 64 (leAt x.data 8 8), h.poison⟩)
        (requester h x.port 0 0))
    ∧ (accepted s x 8 → qAdmitted → (Instr.pktQopen x).wf = true → toQ (.pktQopen x) (.opn (leAt x.data 3 1 % 4)))
    ∧ (accepted s x 9 → qAdmitted → (Instr.pktQsend x).wf = true → leAt x.data 0 8 % 4 = 1 →
      toQ (.pktQsend x) (.send (leAt x.data 0 8 / 2 ^ 32)
        ((List.range (leAt x.data 0 8 / 16 % 16)).map fun j => BitVec.ofNat 64 (leAt x.data (8 + 8 * j) 8))
        ((leAt x.data 0 8).testBit 3 || h.poison)))
    ∧ (accepted s x 10 → qAdmitted → (Instr.pktQcsend x).wf = true →
      toQ (.pktQcsend x) (.csend (BitVec.ofNat 32 (leAt x.data 0 4)) ((leAt x.data 4 4).testBit 0) (BitVec.ofNat 128 (leAt x.data 8 16))
        h.poison))
    ∧ (accepted s x 11 → qAdmitted → (Instr.pktQclose x).wf = true → toQ (.pktQclose x) .close)
    ∧ (accepted s x 3 → outstanding 2 me h.tag.toNat → h.status = 0 → x.data ≠ [] → y.datom = false → (Instr.pktRresp x).wf = true →
      ∃ t p, exec (.pktRresp x) s = .next t ∧ unitsKept s t ∧ freed t me h.tag.toNat
        ∧ t.msg s.nextId = some (.line core p) ∧ p.addr = y.lcl ∧ p.data = x.data ∧ p.poison = (h.poison || late) ∧ p.kind = .dma)
    ∧ (accepted s x 5 → outstanding 4 me h.tag.toNat → h.status = 0 → x.data.length = 8 → y.datom = true → (Instr.pktAresp x).wf = true →
      ∃ t p, exec (.pktAresp x) s = .next t ∧ unitsKept s t ∧ freed t me h.tag.toNat
        ∧ t.msg s.nextId = some (.line core p) ∧ p.addr = y.lcl ∧ p.data = x.data ∧ p.kind = .datom)
    ∧ (let e := leAt x.data 0 4
      accepted s x 6 → x.data.length = 4 → outstanding 1 (e / 2 ^ 16 % 256) (e % 2 ^ 16) → e / 2 ^ 24 = 0 → (Instr.pktAck x).wf = true →
      ∃ t, exec (.pktAck x) s = .next t ∧ unitsKept s t ∧ freed t (e / 2 ^ 16 % 256) (e % 2 ^ 16)
        ∧ t.msg s.nextId = some (.answer core ⟨txn, .ok, 0, 0, 0⟩))
    ∧ (accepted s x 12 → x.data.length = 8 → (Instr.pktQresp x).wf = true →
      let w := leAt x.data 4 4
      handed (.pktQresp x) s (.qans ⟨me, w % 2 ^ 12, w / 2 ^ 16 % 2 ^ 7, 5, .ok, leAt x.data 0 4, 0, none⟩))

/-- VC3 packets act on this device: the downstream device stamps a TIME request of its upstream device, takes its LOCKED and answers, and
an answer is stamped at the upstream device; MGMT packets set the master heard, the device ID, routes, circuits, the upstream port and
steps; AUTH packets keep the partner's certificate and nonce. A packet for another device goes on to the port of its route, with one hop
more. -/
def Obligations.ManagementPacketsAct : Prop :=
  ∀ (s : State) (x : PktIn) (id : Nat) (ep : BitVec 16) (m dev : BitVec 12) (up dep : BitVec 4) (at0 : Nat) (fr : Int)
    (rs : List (Nat × W32)) (ctrl : W64) (bud : BitVec 16) (slots : List Nat) (lk : Bool) (cert nonce serial : List Byte) (pn : BitVec 4)
    (out : Nat),
    let h := x.hdr
    let goes := fun (i : Instr) (p : State → Prop) => ∃ t, exec i s = .next t ∧ t.cores = s.cores ∧ t.hbm = s.hbm ∧ t.host = s.host
      ∧ t.jobs = s.jobs ∧ t.cfg = s.cfg ∧ p t
    let mg := fun (b : MgmtBody) (p : State → Prop) => (Instr.pktMgmt x b).wf = true → goes (.pktMgmt x b) p
    let sends := fun (t : State) (b : Own) => ∃ y, (t.port x.port).txq = (s.port x.port).txq ++ [y] ∧ y.own = some b
    let now := s.clk.tbt.toNat
    (accepted s x 0x10 → s.clk.follows x.port = true → s.clk.lost = [] → (Instr.pktTime x (.request lk)).wf = true →
      goes (.pktTime x (.request lk)) fun t => t.clk = { s.clk with timeAt := some now, locked := lk }
        ∧ (t.port x.port).tArr = some now ∧ (t.port x.port).tDep = none ∧ sends t (.time .answer))
    ∧ (accepted s x 0x10 → s.clk.follows x.port = false → (s.port x.port).tDep.isSome = true → (Instr.pktTime x .answer).wf = true →
      goes (.pktTime x .answer) fun t => t.clk = s.clk ∧ (t.port x.port).tArr = some now ∧ (t.port x.port).tDep = (s.port x.port).tDep)
    ∧ (accepted s x 0x11 →
      (s.fab.role ≠ 1 → mg (.heartbeat ep m serial) fun t => t.fab.epoch = ep.toNat ∧ t.fab.masterId = m.toNat
        ∧ t.fab.heard = now ∧ t.fab.role = s.fab.role)
      ∧ (s.fab.role = 1 → (s.fab.epoch < ep.toNat ∨ s.fab.epoch = ep.toNat ∧ m.toNat < s.fab.devId) →
        mg (.heartbeat ep m serial) fun t => t.fab.role = 0 ∧ t.clk.master = false ∧ t.fab.masterId = m.toNat)
      ∧ (s.fab.role = 1 → s.fab.epoch = ep.toNat → m.toNat = s.fab.devId → serialNum serial < serialNum s.mss.serial →
        mg (.heartbeat ep m serial) fun t => t.fab.role = 2 ∧ t.clk.master = false ∧ t.fab.idValid = false)
      ∧ (s.fab.idValid = false → mg (.assignId dev ep m) fun t => t.fab.devId = dev.toNat ∧ t.fab.idValid = true
        ∧ t.fab.masterId = m.toNat)
      ∧ (s.fab.idValid = true → mg (.assignId dev ep m) fun t => t.fab.devId = s.fab.devId)
      ∧ mg (.routes rs) (fun t => t.fab.newRt = s.fab.newRt ++ rs.filter (fun r => r.1 < 4096) ∧ t.fab.rt = s.fab.rt)
      ∧ (id < 4096 → mg (.circuit id ctrl bud slots) fun t => tget Circ.none t.fab.circ id = circOf ctrl.toNat bud.toNat 0xFF
        ∧ ∀ j, j ≠ id → tget Circ.none t.fab.circ j = tget Circ.none s.fab.circ j)
      ∧ (id < 4096 → mg (.removeCircuit id) fun t => (tget Circ.none t.fab.circ id).gone = true
        ∧ ∀ j, j ≠ id → tget Circ.none t.fab.circ j = tget Circ.none s.fab.circ j)
      ∧ mg (.timeUpstream up dev dep) (fun t => t.clk.upstream.toNat = up.toNat + 2 ^ 4 * dev.toNat + 2 ^ 16 * dep.toNat + 2 ^ 31)
      ∧ mg (.step at0 fr) (fun t => t.clk.steps = s.clk.steps ++ [(at0, fr)] ∧ t.clk.tbt = s.clk.tbt))
    ∧ (let p := s.port x.port
      h.type = 0x12 → p.state = 2 → h.seq.toNat = p.seqRx → x.stomp = false → PktGood x p.enc = true → h.vc = 3 → h.hops ≠ 15 →
      ((Instr.pktAuth x (.chain cert pn)).wf = true → goes (.pktAuth x (.chain cert pn)) fun t => (t.port x.port).cert = cert
        ∧ (t.port x.port).state = 2 ∧ t.fab = s.fab)
      ∧ ((Instr.pktAuth x (.nonce nonce)).wf = true → goes (.pktAuth x (.nonce nonce)) fun t =>
        (t.port x.port).nonces = p.nonces ++ nonce ∧ t.fab = s.fab ∧ ∃ sig, sends t (.auth (.signature sig))))
    ∧ (let p := s.port x.port
      p.state = 4 → h.seq.toNat = p.seqRx → x.stomp = false → PktGood x p.enc = true → typeOk h.type.toNat h.vc.toNat = true →
      h.hops ≠ 15 → fabDev h.addr.toNat ≠ s.fab.devId → h.vc ≠ 0 → s.route (fabDev h.addr.toNat) = some out → out ≠ x.port →
      (s.port out).state = 4 → s.fab.moved = [] →
      (Instr.pktTransit x).wf = true → goes (.pktTransit x) fun t => t.clk = s.clk ∧ t.plane = s.plane
        ∧ ∃ y, (t.port out).txq = (s.port out).txq ++ [y] ∧ y.hdr = { h with hops := h.hops + 1 } ∧ y.data = x.data
          ∧ y.via = some x.port)

/-- LINK_WORD frees the packets that its ACKSEQ covers, marks those from its NAK for replay and returns credit; with the time stamps of the
upstream device it gives the offset of the count, the link's asymmetry taken out, which is steered away. LINK_WORD_SEND sends the last
sequence taken, what is owed, and the stamps of a time exchange that is complete. FABRIC_SLOT sends a VC0 packet in its circuit's slot,
and a replay before anything else of
the other packets. FABRIC_FRAME_BOUNDARY makes calendar changes and route revisions take effect. The master sends heartbeats every
millisecond; a standby that has heard none for 10 ms takes over. -/
def Obligations.PortsSendAndTheMasterSpeaks : Prop :=
  ∀ (s : State) (port id : Nat) (w : LinkWord) (y : TxPkt) (qs rest : List TxPkt),
    let x := s.port port
    let now := s.clk.tbt.toNat
    let linked := x.state = 2 ∨ x.state = 3 ∨ x.state = 4
    let others := fun (t : State) => unitsKept s t ∧ t.plane = s.plane ∧ ∀ p, p ≠ port → t.port p = s.port p
    ((Instr.linkWord port w).wf = true → linked → s.fab.moved = [] → w.stamps = none → x.replayQ = qs ++ y :: rest → y.hdr.seq = w.ackSeq →
      (∀ z ∈ qs, z.hdr.seq ≠ w.ackSeq) →
      ∃ t, exec (.linkWord port w) s = .next t ∧ others t ∧ (t.port port).replayQ = rest
        ∧ (∀ v, v < x.credit.length → v < w.credits.length →
          (t.port port).credit.getD v 0 = x.credit.getD v 0 + w.credits.getD v 0)
        ∧ (∀ n z zs, w.nak = some n → rest = z :: zs → z.hdr.seq = n →
          (t.port port).again = rest.map fun q => q.hdr.seq.toNat)
        ∧ (t.port port).txq = x.txq)
    ∧ (∀ t1 t2 t3 t4 : Nat, (Instr.linkWord port w).wf = true → linked → s.fab.moved = [] → w.stamps = some (t1, t4) → x.tArr = some t2 →
      x.tDep = some t3 → s.clk.follows port = true → s.clk.aligned = true →
      let off : Int := ((t2 : Int) - t1 - ((t4 : Int) - t3) - x.asym) / 2
      ∃ t, exec (.linkWord port w) s = .next t ∧ t.clk.syncErr = BitVec.ofInt 32 off ∧ t.clk.offset = some off
        ∧ t.clk.tbt = s.clk.tbt ∧ (t.port port).tArr = none ∧ (t.port port).tDep = none
        ∧ (off = 0 → t.clk.steer = 0) ∧ (0 < off → -20000 ≤ t.clk.steer.toInt ∧ t.clk.steer.toInt ≤ 0)
        ∧ (off < 0 → 0 ≤ t.clk.steer.toInt ∧ t.clk.steer.toInt ≤ 20000))
    ∧ ((Instr.linkWordSend port).wf = true → linked →
      ∃ t, exec (.linkWordSend port) s = .next t ∧ others t ∧ (t.port port).owed = [0, 0, 0, 0] ∧ (t.port port).nak = none
        ∧ t.out = s.out ++ [.link port ⟨BitVec.ofNat 12 ((x.seqRx + 4095) % 4096), x.nak.map (BitVec.ofNat 12), x.owed,
          x.tDep.bind fun a => x.tArr.map fun b => (a, b)⟩])
    ∧ ((Instr.fabricSlot port).wf = true → x.state = 4 → x.retrain = false → x.busy ≤ now → x.waitq = [] → y.own = none → y.via = none →
      (x.slotCirc (now / 16 % 1024) = some id → x.slotSeen ≤ now / 16 →
        x.txq.find? (fun z => z.hdr.vc = 0 && z.hdr.circ.toNat = id && z.at0 ≤ 16 * (now / 16)) = some y →
        ∃ t h, exec (.fabricSlot port) s = .next t ∧ others t ∧ t.out = s.out ++ [.packet port h y.data] ∧ h.seq.toNat = x.seqTx % 4096
          ∧ (t.port port).seqTx = (x.seqTx + 1) % 4096 ∧ (t.port port).txPkt = x.txPkt + 1
          ∧ (t.port port).replayQ = x.replayQ ++ [{ y with hdr := h }] ∧ (t.port port).busy = now + x.pktTicks)
      ∧ (∀ n ns, x.slotCirc (now / 16 % 1024) = none → x.fits now = true → x.again = n :: ns →
        x.replayQ.find? (fun z => z.hdr.seq.toNat = n) = some y →
        ∃ t, exec (.fabricSlot port) s = .next t ∧ others t ∧ t.out = s.out ++ [.packet port y.hdr y.data]
          ∧ (t.port port).replays.toNat = min (x.replays.toNat + 1) 0xFFFFFFFF ∧ (t.port port).txq = x.txq
          ∧ (t.port port).again = ns.filter (fun k => k ≠ n)))
    ∧ (Instr.fabricFrameBoundary.wf = true → s.clk.run = true → s.fab.frame < now / 16384 → s.fab.newRt = [] →
      twf FCal.free x.cal = true → twf Port.reset s.ports = true →
      ∃ t, exec .fabricFrameBoundary s = .next t ∧ unitsKept s t ∧ t.fab.frame = now / 16384
        ∧ (∀ k, tget FCal.free (t.port port).cal k =
          (let f := tget FCal.free x.cal k
           if f.pend then ⟨f.res2, f.circ2, false, false, 0⟩ else f))
        ∧ t.fab.circ = s.fab.circ.filter (fun c => !c.2.gone) ∧ t.fab.rt = s.fab.rt)
    ∧ (Instr.heartbeatSend.wf = true → s.fab.role = 1 → s.fab.sent + 4000000 ≤ now →
      ∃ t, exec .heartbeatSend s = .next t ∧ { t with fab := s.fab, ports := s.ports } = s ∧ t.fab.sent = now
        ∧ (port < 16 → x.state = 4 → ∃ z ∈ (t.port port).txq,
          z.own = some (.mgmt (.heartbeat (BitVec.ofNat 16 s.fab.epoch) (BitVec.ofNat 12 s.fab.devId) s.mss.serial))))
    ∧ (Instr.masterTakeover.wf = true → s.fab.role = 2 → s.fab.heard + 40000000 ≤ now →
      ∃ t, exec .masterTakeover s = .next t ∧ t.fab.role = 1 ∧ t.fab.epoch = (s.fab.epoch + 1) % 65536
        ∧ t.fab.masterId = t.fab.devId ∧ (s.fab.idValid = true → t.fab.devId = s.fab.devId) ∧ t.fab.idValid = true
        ∧ t.clk.master = true ∧ { t with fab := s.fab, clk := s.clk } = s)
/-! ### Rings and the host link (14) -/

/-- The command of an identity is done: it executes no more, and its record waits for its ring, OK shown as DELAYED where it
began late. -/
def Sys2Proof.Claims.completed (t : State) (c : Cmd) (st : Status) (detail : Nat) : Prop :=
  (∀ y ∈ t.host.exec, y.id ≠ c.id)
    ∧ (c.mute = false → ∃ y ∈ (t.ring c.ring).waiting, y.tag = c.p.tag.toNat ∧ y.runrec = false
      ∧ y.status = (if st = .ok ∧ c.delay ≠ 0 then .delayed else st) ∧ y.detail = BitVec.ofNat 32 detail)

/-- A doorbell of an enabled ring stores its count; setting EN begins the ring anew; while EN is 1, LOC, SQLOG2 and CQLOG2 keep their
values; RINGr_DEFER is clamped. COMPLETION_RECORD_WRITE writes the first record that waits at CQTAIL of a ring that is not full. -/
def Obligations.RingsKeepTheirRegisters : Prop :=
  ∀ (s : State) (ring : Nat) (v : W32) (x : CRec) (rest : List CRec),
    let r := s.ring ring
    let others := fun (t : State) => (∀ k, k ≠ ring → t.ring k = s.ring k) ∧ { t with host := s.host } = s
    ((Instr.doorbellSqTail ring v).wf = true → r.en = true →
      yields (.doorbellSqTail ring v) s (s.setRing ring { r with sqTail := v, bell := s.clk.tbt.toNat }))
    ∧ ((Instr.doorbellCqHead ring v).wf = true → r.en = true →
      yields (.doorbellCqHead ring v) s (s.setRing ring { r with cqHead := v }))
    ∧ ((Instr.ringEnable ring v).wf = true → v.toNat < 2 ^ 22 →
      ∃ t, exec (.ringEnable ring v) s = .next t ∧ others t ∧ (t.ring ring).en = true
        ∧ (r.en = false → (t.ring ring).ctrl.toNat = (v.toNat ||| 1) % 2 ^ 21 ∧ (t.ring ring).head = 0 ∧ (t.ring ring).cqtail = 0
          ∧ (t.ring ring).sqTail = 0 ∧ (t.ring ring).cqHead = 0)
        ∧ (r.en = true → (∀ i, 1 ≤ i → i < 12 → (t.ring ring).ctrl.getLsbD i = r.ctrl.getLsbD i)
          ∧ (∀ i, 12 ≤ i → i < 21 → (t.ring ring).ctrl.getLsbD i = v.getLsbD i) ∧ (t.ring ring).head = r.head
          ∧ (t.ring ring).cqtail = r.cqtail))
    ∧ ((Instr.ringDisable ring v).wf = true → v.toNat < 2 ^ 22 →
      ∃ t, exec (.ringDisable ring v) s = .next t ∧ others t ∧ (t.ring ring).en = false
        ∧ (r.en = true → ∀ i, 1 ≤ i → i < 12 → (t.ring ring).ctrl.getLsbD i = r.ctrl.getLsbD i)
        ∧ (t.ring ring).head = r.head ∧ (t.ring ring).waiting = r.waiting)
    ∧ ((Instr.ringDeferWrite ring v).wf = true →
      ∃ t, exec (.ringDeferWrite ring v) s = .next t ∧ t.cfg.deferOf ring = max 1 (min 60000 v.toNat)
        ∧ (∀ k, k ≠ ring → t.cfg.deferOf k = s.cfg.deferOf k) ∧ { t with cfg := { t.cfg with defer := s.cfg.defer } } = s)
    ∧ ((Instr.completionRecordWrite ring).wf = true → r.waiting = x :: rest → r.full = false → r.inDevice = false →
      ∃ t, exec (.completionRecordWrite ring) s = .next t ∧ (t.ring ring).waiting = rest ∧ (t.ring ring).cqtail = r.cqtail + 1
        ∧ (∀ k, k ≠ ring → t.ring k = s.ring k) ∧ { t with host := s.host, out := s.out } = s
        ∧ (let n := 2 ^ (r.ctrl.toNat / 2 ^ 7 % 32)
          let phase := if r.cqtail.toNat / n % 2 = 0 then 1 else 0
          let flags := phase + (if x.delayed then 2 else 0) + 4 * (x.cls % 4) + (if x.dvalid then 16 else 0) + (if x.runrec then 32 else 0)
          t.out = s.out ++ [.record ring (r.cqtail.toNat % n)
              (leBytes x.tag 2 ++ leBytes x.status.code 1 ++ leBytes flags 1 ++ leBytes x.detail.toNat 4 ++ leBytes x.start.toNat 8
                ++ leBytes s.clk.tbt.toNat 8 ++ leBytes x.info.toNat 8)]
            ++ (if x.notify then [.vector (r.ctrl.toNat / 2 ^ 12 % 2 ^ 9)] else [])))

/-- A ring's next entry is fetched into its class's queue. COMMAND_EXECUTE takes the oldest ELASTIC command that may begin: one whose
parameters are in range, and whose state permits it or whose lists are checked before its state, executes from then on, and a LOAD of
an EMPTY slot takes the slot to LOADING. A BULK command that has waited beyond its limit ends with EREFUSED, and a DRAIN whose time is
over with ETIMEOUT. -/
def Obligations.CommandsAreAdmittedAndBegin : Prop :=
  ∀ (s : State) (ring id t0 : Nat) (p : Packet) (c : Cmd) (rest : List Cmd),
    let now := s.clk.tbt.toNat
    let r := s.ring ring
    let others := fun (t : State) => t.cores = s.cores ∧ t.hbm = s.hbm ∧ t.clk = s.clk ∧ t.cfg = s.cfg
    let units := fun (t : State) => others t ∧ t.jobs = s.jobs
    let begun : Cmd := { c with begin0 := now, delay := (now - c.admitAt) * clock10 s.clk.op / 40 }
    ((Instr.commandAdmission ⟨ring, []⟩ p).wf = true → s.mayFetch ring = true → p.opcode ≠ 0x11 → (p.cls = 1 ∨ p.cls = 2) →
      s.host.elastic.length < 1024 → s.host.bulk.length < 1024 →
      (r.inDevice = true → s.hbm.poisoned (r.sqbase.toNat % 2 ^ 48 + 64 * (r.head.toNat % 2 ^ r.sqLog)) 64 = false) →
      ∃ t y, exec (.commandAdmission ⟨ring, []⟩ p) s = .next t ∧ units t ∧ (t.ring ring).head = r.head + 1 ∧ (t.ring ring).open_ = r.open_ + 1
        ∧ y.p = p ∧ y.ring = ring ∧ y.id = s.nextId ∧ y.admitAt = now ∧ y.defer = s.cfg.deferOf ring ∧ t.nextId = s.nextId + 1
        ∧ t.host.elastic = s.host.elastic ++ (if p.cls = 1 then [y] else []) ∧ t.host.bulk = s.host.bulk ++ (if p.cls = 2 then [y] else [])
        ∧ t.host.exec = s.host.exec)
    ∧ (Instr.commandExecute.wf = true → s.host.elastic = c :: rest → s.host.stalled = [] → s.canBegin c = true →
      s.paramFault begun = none → (c.p.hasList = true ∨ s.stateFault begun = false) →
      ∃ t, exec .commandExecute s = .next t ∧ others t ∧ t.host.elastic = rest ∧ t.host.exec = s.host.exec ++ [begun]
        ∧ t.host.rings = s.host.rings ∧ (c.p.opcode ≠ 1 → t.jobs = s.jobs)
        ∧ (c.p.opcode = 1 → s.stateFault begun = false → (t.job c.p.job.toNat).state = 1
          ∧ ∀ k, k ≠ c.p.job.toNat → t.job k = s.job k))
    ∧ ((Instr.bulkDeferralExpiry id).wf = true → s.host.bulk.find? (fun y => y.id = id) = some c → c.admitAt + c.defer * 4000000 < now →
      (∀ y ∈ s.host.exec, y.id ≠ id) → c.id = id →
      ∃ t, exec (.bulkDeferralExpiry id) s = .next t ∧ units t ∧ (∀ y ∈ t.host.bulk, y.id ≠ id) ∧ t.host.elastic = s.host.elastic
        ∧ completed t begun .erefused 0xFFFF)
    ∧ (Instr.drainTimeout.wf = true → s.host.drain = some (id, t0) → t0 ≠ 0 → t0 ≤ now → s.cmd id = some c → c.id = id →
      ∃ t, exec .drainTimeout s = .next t ∧ units t ∧ t.host.state = s.host.state ∧ t.host.drain = none
        ∧ completed t c .etimeout 0xFFFF)

/-- COMMAND_EXECUTE of a command that fails a check: a parameter out of its range ends it with EPARAM and the parameter's index; a state
that does not permit it ends it with ESTATE, whose DETAIL holds the device's state. Accesses of the host that R433, R424, R428 and R456
turn away change nothing but what they say: a doorbell of a ring whose EN is 0 is ignored, an HDM decoder that would expose more than the
user HBM sets ERR, a bias flip of pages that no decoder maps sets ERR, and BAR2 reads 0 and ignores writes while RESETTING. -/
def Sys2Proof.Claims.BadCommandsAndAccessesAreTurnedAway : Prop :=
  ∀ (s : State) (c : Cmd) (rest : List Cmd) (ring base size off len : Nat) (n : Bool) (v : W32) (data : List Byte) (poison : Bool),
    let now := s.clk.tbt.toNat
    let h := s.host
    let begun : Cmd := { c with begin0 := now, delay := (now - c.admitAt) * clock10 s.clk.op / 40 }
    let ended := fun (t : State) => t.cores = s.cores ∧ t.hbm = s.hbm ∧ t.jobs = s.jobs ∧ t.clk = s.clk ∧ t.cfg = s.cfg
      ∧ t.host.elastic = rest ∧ t.host.exec = h.exec
    (Instr.commandExecute.wf = true → h.elastic = c :: rest → h.stalled = [] → s.canBegin c = true → (∀ y ∈ h.exec, y.id ≠ c.id) →
      (∀ k, s.paramFault begun = some k →
        ∃ t, exec .commandExecute s = .next t ∧ ended t ∧ completed t begun .eparam k)
      ∧ (s.paramFault begun = none → c.p.hasList = false → s.stateFault begun = true →
        ∃ t d, exec .commandExecute s = .next t ∧ ended t ∧ completed t begun .estate d ∧ d % 256 = h.state % 256))
    ∧ ((s.ring ring).en = false →
      ((Instr.doorbellSqTail ring v).wf = true → yields (.doorbellSqTail ring v) s s)
      ∧ ((Instr.doorbellCqHead ring v).wf = true → yields (.doorbellCqHead ring v) s s))
    ∧ ((Instr.hdmCommit n base size).wf = true → h.cxl = true → 0x011E00000000 < (h.hdm n).dpa.toNat + size →
      yields (.hdmCommit n base size) s (s.setHdm n { h.hdm n with commit := false, err := true }))
    ∧ ((Instr.biasFlipGo v).wf = true → v.toNat < 16 → h.flip = none → v.getLsbD 0 = true →
      h.mapsPages (h.biasPage.toNat % 2 ^ 36) (h.biasPage.toNat % 2 ^ 36 + h.biasN.toNat % 2 ^ 29) = false →
      yields (.biasFlipGo v) s { s with host := { h with biasDir := v.getLsbD 1, biasErr := true } })
    ∧ (h.state = 6 →
      ((Instr.bar2Read off len).wf = true → len ≠ 0 → off + len ≤ 0x4000000 →
        yields (.bar2Read off len) s { s with out := s.out ++ [.data off (List.replicate len 0) false] })
      ∧ ((Instr.bar2Write off data poison).wf = true → yields (.bar2Write off data poison) s s))

/-- A write of 0 to RINGr_DEFER stores 1, a write above 60,000 stores 60,000, and any other stores its value; nothing else
changes and no error is raised. A BULK command that the ring fetches from then on has the stored value for its limit (14 R434). -/
def Obligations.DeferralLimitsAreClamped : Prop :=
  ∀ (s : State) (ring : Nat) (v : W32),
    (Instr.ringDeferWrite ring v).wf = true →
    ∃ t, exec (.ringDeferWrite ring v) s = .next t
      ∧ t.cfg.deferOf ring = (if v = 0 then 1 else if 60000 < v.toNat then 60000 else v.toNat)
      ∧ (∀ k, k ≠ ring → t.cfg.deferOf k = s.cfg.deferOf k) ∧ { t with cfg := { t.cfg with defer := s.cfg.defer } } = s
      ∧ ∀ p : Packet, p.cls = 2 → p.opcode ≠ 0x11 → (Instr.commandAdmission ⟨ring, []⟩ p).wf = true → t.mayFetch ring = true →
        (t.ring ring).inDevice = false → t.host.bulk.length < 1024 → t.host.elastic.length < 1024 →
        ∃ u y, exec (.commandAdmission ⟨ring, []⟩ p) t = .next u ∧ u.host.bulk = t.host.bulk ++ [y] ∧ y.p = p
          ∧ y.defer = (if v = 0 then 1 else if 60000 < v.toNat then 60000 else v.toNat)

/-- The link trains and resets; an HDM decoder commits within the user HBM, at the DPA that it holds; a bias flip covers mapped pages;
a CXL.mem access within a granule, and a BAR2 access within a line, become elastic requests of the host; the device answers a snoop as
one that holds no line. -/
def Obligations.TheHostReachesMemory : Prop :=
  ∀ (s : State) (n : Bool) (base size hpa len off width rate dpa a m : Nat) (v : W32) (data : List Byte) (poison dev : Bool) (cxl : Bool),
    let h := s.host
    let x := h.hdm n
    let src : Source := ⟨s.fab.devId, 0xFF, false⟩
    let put := fun (msg : Msg) => s.put msg
    ((Instr.hostLinkTrained width rate cxl).wf = true → 1 ≤ width → width ≤ 16 → 1 ≤ rate → rate ≤ 5 →
      yields (.hostLinkTrained width rate cxl) s { s with
        host := { h with width := width, rate := rate, cxl := cxl && rate = 5 && (width = 16 || width = 8) } })
    ∧ (Instr.hostLinkReset.wf = true →
      ∃ t, exec .hostLinkReset s = .next t ∧ t.host.width = 0 ∧ t.host.rate = 0 ∧ t.host.cxl = false ∧ t.cfg.bar2Sel = 0
        ∧ (∀ c ∈ t.host.exec ++ t.host.elastic ++ t.host.bulk ++ t.host.stalled, c.mute = true)
        ∧ t.host.hdm0.commit = false ∧ t.host.hdm1.commit = false ∧ t.host.state = h.state ∧ t.cores = s.cores ∧ t.jobs = s.jobs
        ∧ t.hbm.mem = s.hbm.mem ∧ t.clk = s.clk ∧ t.mss = s.mss)
    ∧ ((Instr.snoop hpa).wf = true → yields (.snoop hpa) s (if h.cxl then { s with out := s.out ++ [.snoop hpa] } else s))
    ∧ ((Instr.hdmCommit n base size).wf = true → h.cxl = true → (h.hdm !n).commit = false → size ≤ 2 ^ 40 →
      x.dpa.toNat + size ≤ 0x011E00000000 →
      yields (.hdmCommit n base size) s
        (s.setHdm n { x with base := base, size := size, commit := true, err := false, map := x.dpa.toNat }))
    ∧ ((Instr.biasFlipGo v).wf = true → v.toNat < 16 → h.flip = none → v.getLsbD 0 = true →
      let a := h.biasPage.toNat % 2 ^ 36
      let m := h.biasN.toNat % 2 ^ 29
      h.mapsPages a (a + m) = true →
      yields (.biasFlipGo v) s { s with
        host := { h with biasDir := v.getLsbD 1, biasErr := false, flip := some (a, m, !v.getLsbD 1) } })
    ∧ (Instr.biasFlipDone.wf = true → h.flip = some (a, m, dev) →
      ∃ t, exec .biasFlipDone s = .next t ∧ t.host.flip = none
        ∧ (∀ k, tget false t.host.bias k = if a ≤ k ∧ k < a + m then dev else tget false h.bias k)
        ∧ { t with host := { t.host with flip := h.flip, bias := h.bias } } = s)
    ∧ ((Instr.hostCxlMemRead hpa len).wf = true → h.dpaOf hpa len = some dpa → len ≠ 0 → dpa % 2048 + len ≤ 2048 →
      yields (.hostCxlMemRead hpa len) s (put (.hub ⟨dpa, .read len, false, none, 0, src, [], .host hpa⟩)))
    ∧ ((Instr.hostCxlMemWrite hpa data poison).wf = true → h.dpaOf hpa data.length = some dpa → data ≠ [] →
      dpa % 2048 + data.length ≤ 2048 →
      yields (.hostCxlMemWrite hpa data poison) s
        (put (.hub ⟨dpa, .write data (List.replicate data.length poison), false, none, 0, src, [], .host hpa⟩)))
    ∧ ((Instr.bar2SelWrite v).wf = true → v.toNat < 64 →
      yields (.bar2SelWrite v) s { s with cfg := { s.cfg with bar2Sel := v.toNat } })
    ∧ (let core := 2 * s.cfg.bar2Sel + off / 0x2000000
      let addr := off % 0x2000000
      h.state ≠ 6 →
      ((Instr.bar2Read off len).wf = true → len ≠ 0 → off + len ≤ 0x4000000 → off % 256 + len ≤ 256 →
        yields (.bar2Read off len) s
          (put (.remote core ⟨0x100000000000 + core * 0x2000000 + addr, .read len, false, none, 0, src, [], .host off⟩)))
      ∧ ((Instr.bar2Write off data poison).wf = true → data ≠ [] → off + data.length ≤ 0x4000000 → off % 256 + data.length ≤ 256 →
        yields (.bar2Write off data poison) s
          (put (.line core ⟨addr, data, poison, false, src, .host, .none, none, none⟩))))

/-! ### The command set (14 R446; 15) -/

/-- The command of an identity executes with an opcode; it has not acted, and passes the checks of its parameters and of the
states of device and job. -/
def Sys2Proof.Claims.executing (s : State) (id : Nat) (c : Cmd) (opc : Nat) : Prop :=
  s.cmd id = some c ∧ c.p.opcode = opc ∧ c.acted = false ∧ s.paramFault c = none ∧ s.stateBad c = false

/-- None of the parameter buffers that lie in the device is poisoned. -/
def Sys2Proof.Claims.bufsClean (s : State) (bufs : List (W64 × Nat)) : Prop := (s.touchBuffers [] bufs).2 = false

/-- What LOAD finds in its lists: the bindings with their slots, where the reservations of its MCAL bindings are placed. -/
def Sys2Proof.Claims.boundTo (x : LoadIn) (placed : List (Nat × Nat)) : List Binding :=
  let slots := ((x.binds.zipIdx.filter fun (b : Binding × Nat) => b.1.kind = 4).map fun (b : Binding × Nat) => b.2).zip placed
  x.binds.zipIdx.map fun (b : Binding × Nat) =>
    match slots.find? fun y => y.1 = b.2 with
    | some y => { b.1 with slot := y.2.2 }
    | none => b.1

/-- The reservations that LOAD asks for. -/
def Sys2Proof.Claims.wanted (x : LoadIn) : List (Binding × List Nat) :=
  (x.binds.filter fun b => b.kind = 4).map fun b => (b, calCores b x.place x.binds)

/-- LOAD's buffers. -/
def Sys2Proof.Claims.loadBufs (s : State) (c : Cmd) (image : List Byte) : List (W64 × Nat) :=
  [(c.p.p0, c.p.p1.toNat), (c.p.p2, 32 * (c.p.p3.toNat % 2 ^ 16)), (c.p.p4, imgCores (s.buffer c.p.p0 c.p.p1.toNat image))]

/-- A FWPRIV program carries a good signature. -/
def Sys2Proof.Claims.signed (x : LoadIn) : Prop :=
  x.sig.length = 512 ∧ Config.rsaVerify Config.firmwareKey x.img x.sig = true
/-- The command has acted, and waits for its end. -/
def Sys2Proof.Claims.waitsOn (t : State) (c : Cmd) : Prop := t.cmd c.id = some { c with acted := true }

/-- The bytes `d` have gone to an address: to the host's memory, or where bit 63 is 1 to the device's HBM. -/
def Sys2Proof.Claims.delivered (s t : State) (addr : W64) (d : List Byte) : Prop :=
  let dpa := addr.toNat % 2 ^ 48
  t.out = s.out ++ (if d = [] then [] else [.buffer addr.toNat d])
    ∧ (addr.getLsbD 63 = false → t.hbm = s.hbm ∧ t.plane = s.plane)
    ∧ (addr.getLsbD 63 = true → dpa + d.length ≤ 0x012000000000 → readBytes t.hbm.mem dpa d.length = d
      ∧ ∀ a, a < dpa ∨ dpa + d.length ≤ a → tget 0 t.hbm.mem a = tget 0 s.hbm.mem a)

/-- LOAD, whose slot has been LOADING since it began: its lists are in range, groups and reservations are free, and the program passes
the loader's checks; the job is LOADED with them. UNLOAD empties the job and releases what it holds; RESERVE places its reservations; ARM
binds the job's cores, programs their windows, zeroes their arrival tallies, and the device is RUNNING. -/
def Obligations.JobsAreLoadedAndArmed : Prop :=
  ∀ (s : State) (id : Nat) (c : Cmd) (image binds place entries : List Byte) (hbm : Hbm) (placed : List (Nat × Nat))
    (cores : List Ctx),
    let job := c.p.job.toNat
    let j := s.job job
    let others := fun (t : State) => (∀ k, k ≠ job → t.job k = s.job k) ∧ t.clk = s.clk ∧ t.cfg = s.cfg ∧ t.fl = s.fl ∧ t.pins = s.pins
    (let i := Instr.load ⟨id, []⟩ image binds place
     let x := s.loadIn c image binds place
     let bound := boundTo x placed
     let groups := groupsOf x.binds
     i.wf = true → executing s id c 0x01 → s.loader c = true → bufsClean s (loadBufs s c image) → s.loadParam c x = none →
     groups.length ≤ s.freeGroups.length → s.hbm.reserveAll job (wanted x) = some (hbm, placed) →
     (c.p.p5.getLsbD 2 = false ∨ signed x) →
     s.loadProgram c x ⟨imgIsa x.img, bound, x.place, groups.zip s.freeGroups⟩ = .ok cores →
     ∃ t d, exec i s = .next t ∧ others t ∧ t.cores = s.cores ∧ completed t c .ok d ∧ t.hbm.cal = hbm.cal ∧ t.hbm.resv = hbm.resv
       ∧ (t.job job).state = 2 ∧ (t.job job).placement = x.place ∧ (t.job job).images = cores.map Ctx.image
       ∧ (t.job job).bindings = bound ∧ (t.job job).op = imgOp x.img ∧ (t.job job).seed = c.p.p6
       ∧ (t.job job).audit = c.p.p5.getLsbD 0 ∧ (t.job job).det = c.p.p5.getLsbD 1 ∧ (t.job job).live = []
       ∧ ∀ g ∈ (groups.zip s.freeGroups), tget 0xFF t.mcgJob g.2 = job)
    ∧ ((Instr.unload id).wf = true → executing s id c 0x02 → j.live = [] →
      ∃ t, exec (.unload id) s = .next t ∧ others t ∧ completed t c .ok 0 ∧ t.job job = Job.empty ∧ t.hbm.mem = s.hbm.mem
        ∧ (∀ k v, (k, v) ∈ s.hbm.resv → v.valid = true → v.job = job → (k, { v with gone := true }) ∈ t.hbm.resv)
        ∧ (∀ g, tget 0xFF t.mcgJob g ≠ job) ∧ (∀ k ∈ j.placement, (t.core k).lu.win = [])
        ∧ (∀ q, (s.queue q).state = 1 → (s.queue q).job = job → (t.queue q).state = 2)
        ∧ ∀ k, (t.core k).mem = (s.core k).mem ∧ (t.core k).regs = (s.core k).regs)
    ∧ (let i := Instr.reserve ⟨id, []⟩ entries
       let list := (upFrom 0 c.p.p1.toNat).map (bindingAt (s.buffer c.p.p0 (32 * c.p.p1.toNat) entries))
       let want := list.map fun b => (b, calCores b j.placement j.bindings)
       i.wf = true → executing s id c 0x03 → bufsClean s [(c.p.p0, 32 * c.p.p1.toNat)] →
       (∀ b ∈ list, b.kind = 4 ∧ b.calOk = true ∧ (b.dir = 1 ∨ if b.param < 0x8000 then b.param < j.placement.length
         else ∃ g ∈ j.bindings, g.kind = 6 ∧ g.param = b.param - 0x8000)) →
       s.hbm.reserveAll job want = some (hbm, placed) →
       ∃ t, exec i s = .next t ∧ others t ∧ t.jobs = s.jobs ∧ t.cores = s.cores ∧ completed t c .ok 0 ∧ t.hbm.cal = hbm.cal
         ∧ t.hbm.resv = hbm.resv)
    ∧ (let suspended := ∃ x ∈ j.circuits, (s.port (tget Circ.none s.fab.circ x.2).out).calSusp = true
       let i := Instr.arm ⟨id, []⟩
       i.wf = true → executing s id c 0x04 → ¬ (j.det = true ∧ suspended) → s.armFault j = none → j.placement.Nodup →
       (j.digest ≠ 0 → (s.touch [] (j.ranges 1 0)).2 = false) →
       ∃ t, exec i s = .next t ∧ others t ∧ t.hbm = s.hbm ∧ completed t c .ok 0 ∧ (t.job job).state = 3 ∧ (t.job job).runs = 0
         ∧ (t.job job).images = j.base.map (s.patchCircuits j) ∧ t.host.state = 3
         ∧ ((j.mcGroups.map (·.2)).Nodup → ∀ g ∈ j.mcGroups, tget 0 t.mcg g.2 = groupMap j g.1)
         ∧ (∀ k, k ∉ j.placement → t.core k = s.core k)
         ∧ ∀ (n k : Nat) (im : CoreImage), j.base[n]? = some im → j.placement[n]? = some k →
           let u := t.core k
           u.rn.job = job ∧ u.rn.image = n ∧ u.rn.det = j.det ∧ u.rn.audit = j.audit ∧ u.dm.slots = [] ∧ u.ms.ctx = []
             ∧ (∀ a, 128 ≤ a → tget 0 u.tl.t a = 0) ∧ (∀ a, a < 128 → tget 0 u.tl.t a = tget 0 (s.core k).tl.t a)
             ∧ (∀ w f m src, im.windows[w]? = some (f, m, src) → m ≠ 0 → tget Window.closed u.lu.win w = ⟨f, m, src, false⟩)
             ∧ u.regs = (s.core k).regs ∧ u.mem = (s.core k).mem)

/-- A command that fails leaves nothing placed, and its status says why: EPOISON where a buffer that it reads is poisoned; for LOAD EPARAM,
EREFUSED, EAUTH or EPROGRAM, in that order of its checks, its slot EMPTY again; EREFUSED for reservations that have no place, a
deterministic job whose calendars are suspended, and a start that R277 forbids or that comes less than 3,200 ticks after its doorbell;
EPARAM and EREFUSED for a channel's descriptor and its combining entries; EPARAM for an aperture that R409 does not admit and for a cluster
map on a device that is not the master; ESTATE for a time step that R365 forbids; EPEER_GONE for a message while the MSS restarts. -/
def Sys2Proof.Claims.FailedCommandsEndWithTheirStatus : Prop :=
  ∀ (s : State) (id : Nat) (c : Cmd) (image binds place : List Byte) (hbm : Hbm) (placed : List (Nat × Nat)) (e : Nat) (busy : Bool),
    let job := c.p.job.toNat
    let j := s.job job
    let alone := fun (t : State) => t.hbm = s.hbm ∧ t.cores = s.cores ∧ t.clk = s.clk ∧ t.cfg = s.cfg ∧ t.fl = s.fl
      ∧ t.queues = s.queues ∧ t.ports = s.ports ∧ t.fab = s.fab
    let fails := fun (i : Instr) (st : Status) (d : Nat) =>
      ∃ t, exec i s = .next t ∧ alone t ∧ t.jobs = s.jobs ∧ completed t c st d
    (let i := Instr.load ⟨id, []⟩ image binds place
     let x := s.loadIn c image binds place
     let bufs := loadBufs s c image
     let groups := groupsOf x.binds
     let fails := fun (st : Status) (d : Nat) =>
       ∃ t, exec i s = .next t ∧ alone t ∧ t.job job = Job.empty ∧ (∀ k, k ≠ job → t.job k = s.job k) ∧ completed t c st d
     i.wf = true → executing s id c 0x01 → s.loader c = true →
     (¬ bufsClean s bufs → fails .epoison 0xFFFF)
     ∧ (bufsClean s bufs → (∀ k, s.loadParam c x = some k → fails .eparam k)
       ∧ (s.loadParam c x = none →
         (s.freeGroups.length < groups.length ∨ s.hbm.reserveAll job (wanted x) = none → fails .erefused 0xFFFF)
         ∧ (groups.length ≤ s.freeGroups.length → s.hbm.reserveAll job (wanted x) = some (hbm, placed) →
           (c.p.p5.getLsbD 2 = true → ¬ signed x → fails .eauth 0xFFFF)
           ∧ ((c.p.p5.getLsbD 2 = false ∨ signed x) →
             s.loadProgram c x ⟨imgIsa x.img, boundTo x placed, x.place, groups.zip s.freeGroups⟩ = .error e →
             fails .eprogram e)))))
    ∧ (let i := Instr.reserve ⟨id, []⟩ image
       let bufs := [(c.p.p0, 32 * c.p.p1.toNat)]
       let list := (upFrom 0 c.p.p1.toNat).map (bindingAt (s.buffer c.p.p0 (32 * c.p.p1.toNat) image))
       i.wf = true → executing s id c 0x03 →
       (¬ bufsClean s bufs → fails i .epoison 0xFFFF)
       ∧ (bufsClean s bufs → (∀ b ∈ list, b.kind = 4 ∧ b.calOk = true ∧ (b.dir = 1 ∨ if b.param < 0x8000 then b.param < j.placement.length
         else ∃ g ∈ j.bindings, g.kind = 6 ∧ g.param = b.param - 0x8000)) →
         s.hbm.reserveAll job (list.map fun b => (b, calCores b j.placement j.bindings)) = none → fails i .erefused 0xFFFF))
    ∧ (let suspended := ∃ x ∈ j.circuits, (s.port (tget Circ.none s.fab.circ x.2).out).calSusp = true
       let i := Instr.arm ⟨id, []⟩
       i.wf = true → executing s id c 0x04 →
       (j.det = true → suspended → fails i .erefused 0xFFFF)
       ∧ (¬ (j.det = true ∧ suspended) → ∀ k, s.armFault j = some k → fails i .eprogram k))
    ∧ ((Instr.start id).wf = true → executing s id c 0x05 →
      (c.p.p2 = 0 → s.clk.stopped = false → ((∃ r ∈ j.live, r.toBegin ≠ [] ∨ r.toEnd ≠ []) ∨ 2 ≤ j.live.length) →
        fails (.start id) .erefused 0xFFFF)
      ∧ (c.p.p2 ≠ 0 → c.p.p2.toNat < c.bell + 3200 → fails (.start id) .erefused 0xFFFF))
    ∧ (let i := Instr.openChannel ⟨id, []⟩ image
       let d := s.buffer c.p.p1 1024 image
       let q := queueOf d job
       i.wf = true → executing s id c 0x09 →
       (¬ bufsClean s [(c.p.p1, 1024)] → fails i .epoison 0xFFFF)
       ∧ (bufsClean s [(c.p.p1, 1024)] → (s.queueBad d q = true → fails i .eparam 1)
         ∧ (s.queueBad d q = false → q.group = false → q.kind = 1 → 65536 < (s.hub q.home).combTaken + q.keys →
           fails i .erefused 0xFFFF)))
    ∧ (let i := Instr.setApertures ⟨id, []⟩ image
       let d := s.buffer c.p.p1 1536 image
       i.wf = true → executing s id c 0x0C → bufsClean s [(c.p.p1, 1536)] →
       (∃ k, k < 64 ∧ c.p.p2.getLsbD k = true ∧ (apertureAt d k).ok = false) → fails i .eparam 1)
    ∧ (let i := Instr.loadClusterMap ⟨id, []⟩ image
       i.wf = true → executing s id c 0x12 → c.p.p0.toNat / 16 % 16 = 3 → bufsClean s [(c.p.p1, 24 * c.p.p2.toNat)] → s.fab.role ≠ 1 →
       fails i .eparam 0)
    ∧ (let i := Instr.timeCtrlStep id busy
       i.wf = true → executing s id c 0x13 → c.p.p0 = 0 → (s.timeBusy = true ∨ busy = true) → ∃ d, fails i .estate d)
    ∧ (let i := Instr.mss ⟨id, []⟩ image
       i.wf = true → executing s id c 0x14 → bufsClean s [(c.p.p0, c.p.p1.toNat % 2 ^ 16)] → s.mss.restart = true → fails i .epeerGone 0xFFFF)

/-- Commands and accesses of the host that fail their checks. -/
def Obligations.CommandsAreTurnedAway : Prop :=
  BadCommandsAndAccessesAreTurnedAway ∧ FailedCommandsEndWithTheirStatus

/-- START begins a run at once, or at TBT P2 where that is at least 3,200 ticks after the doorbell. START_PERIODIC sets ticks from the
first whole second at least 1 ms ahead, with phase P1. STOP cancels ticks and pending starts and completes
when no run is live; DRAIN does so for every job, and the device is DRAINING until none is ARMED or RUNNING. SET_OP asks for a change of
point, or joins those before it. -/
def Obligations.JobsStartAndStop : Prop :=
  ∀ (s : State) (id k0 : Nat) (c : Cmd),
    let job := c.p.job.toNat
    let j := s.job job
    let now := s.clk.tbt.toNat
    let busy := (∃ r ∈ j.live, r.toBegin ≠ [] ∨ r.toEnd ≠ []) ∨ 2 ≤ j.live.length
    let units := fun (t : State) => t.cores = s.cores ∧ t.hbm = s.hbm ∧ t.clk.op = s.clk.op ∧ t.cfg = s.cfg ∧ t.fl = s.fl
      ∧ ∀ k, k ≠ job → t.job k = s.job k
    ((Instr.start id).wf = true → executing s id c 0x05 →
      (c.p.p2 = 0 → s.clk.stopped = false → s.pins.trip = false → ¬ busy →
        ∃ t, exec (.start id) s = .next t ∧ runStarted s t job now (c.p.p0.toNat % 16) c.p.p1.toNat ∧ completed t c .ok 0)
      ∧ (c.p.p2 ≠ 0 → c.bell + 3200 ≤ c.p.p2.toNat →
        ∃ t, exec (.start id) s = .next t ∧ units t ∧ waitsOn t c ∧ (t.job job).live = j.live ∧ (t.job job).state = 4
          ∧ (t.job job).starts = j.starts ++ [⟨id, c.p.p2.toNat, c.p.p0.toNat % 16, c.p.p1.toNat⟩]))
    ∧ ((Instr.startPeriodic id).wf = true → executing s id c 0x06 →
      ∃ t p n, exec (.startPeriodic id) s = .next t ∧ units t ∧ completed t c .ok 0 ∧ (t.job job).state = 4
        ∧ (t.job job).live = j.live ∧ (t.job job).per = some p ∧ p.num = c.p.p0.toNat % 2 ^ 16
        ∧ p.den = c.p.p0.toNat / 2 ^ 16 % 2 ^ 16 ∧ p.epoch = 4000000000 * n + c.p.p1.toNat ∧ now + 4000000 ≤ 4000000000 * n
        ∧ 4000000000 * n < now + 4004000000 ∧ p.nsets = c.p.p2.toNat ∧ p.limit = c.p.p3.toNat ∧ p.deadline = c.p.p4.toNat
        ∧ p.tick = 0 ∧ p.stopped = false)
    ∧ ((Instr.stop id).wf = true → executing s id c 0x07 → (∀ x ∈ j.starts, x.cmd ≠ id) →
      (j.live = [] → ∃ t, exec (.stop id) s = .next t ∧ units t ∧ completed t c .ok 0
        ∧ (t.job job).state = (if j.faulting then 6 else 5) ∧ (t.job job).starts = [])
      ∧ (j.live ≠ [] → ∃ t, exec (.stop id) s = .next t ∧ units t ∧ waitsOn t c ∧ (t.job job).state = 4
        ∧ (t.job job).live = j.live ∧ (t.job job).starts = [] ∧ (t.job job).stopCmd = j.stopCmd ++ [id]
        ∧ ∀ p, (t.job job).per = some p → p.stopped = true))
    ∧ ((Instr.drain id).wf = true → executing s id c 0x08 →
      let limit := if c.p.p0 = 0 then 0 else now + 4000000 * c.p.p0.toNat
      ((∀ x ∈ s.jobs, x.2.state ≠ 3 ∧ x.2.state ≠ 4) →
        ∃ t, exec (.drain id) s = .next t ∧ completed t c .ok 0 ∧ t.host.state = 2 ∧ { t with host := s.host } = s)
      ∧ (k0 < 64 → (s.job k0).state = 4 → (∀ k, k < 64 → (s.job k).state = 4 → (s.job k).live ≠ []) →
        (∀ k x, k < 64 → x ∈ (s.job k).starts → x.cmd ≠ id) →
        ∃ t, exec (.drain id) s = .next t ∧ waitsOn t c ∧ t.host.state = 4 ∧ t.host.drain = some (id, limit) ∧ t.cores = s.cores
          ∧ t.hbm = s.hbm ∧ t.clk = s.clk ∧ (∀ k, (t.job k).live = (s.job k).live ∧ (t.job k).state = (s.job k).state)
          ∧ ∀ k, k < 64 → (s.job k).state = 4 → (t.job k).starts = [] ∧ ∀ p, (t.job k).per = some p → p.stopped = true))
    ∧ ((Instr.setOp id).wf = true → executing s id c 0x0D →
      ∃ t, exec (.setOp id) s = .next t ∧ waitsOn t c ∧ { t with clk := s.clk, host := s.host } = s ∧ t.clk.op = s.clk.op
        ∧ (s.clk.change = none → t.clk = { s.clk with change := some (max (c.p.p0.toNat % 8) s.mss.throttle, some id, now) })
        ∧ (s.clk.change ≠ none → t.clk = { s.clk with joined := s.clk.joined ++ [id] }))

/-- OPEN_CHANNEL makes the queue that its image describes OPEN, with its combining entries and its group's map; CLOSE_CHANNEL makes
an OPEN queue GONE, without records or connections, and a GONE one FREE. SET_CIRCUITS installs each entry's circuit under an ID of its
own and
reserves its slots. SET_APERTURES writes the entries that its map names, if R409 admits them all. -/
def Obligations.ChannelsCircuitsAndApertures : Prop :=
  ∀ (s u : State) (id : Nat) (c : Cmd) (image entries table : List Byte) (later : List (List Nat)) (ids : List Nat),
    let job := c.p.job.toNat
    let j := s.job job
    let qid := c.p.p0.toNat % 2 ^ 20
    let q := s.queue qid
    let units := fun (t : State) => t.clk = s.clk ∧ t.cfg = s.cfg ∧ t.fl = s.fl ∧ t.mss = s.mss
    (let d := s.buffer c.p.p1 1024 image
     let q' := queueOf d job
     let map : BitVec 128 := BitVec.ofNat 128 (c.p.p2.toNat + 2 ^ 64 * c.p.p3.toNat)
     (Instr.openChannel ⟨id, []⟩ image).wf = true → executing s id c 0x09 → bufsClean s [(c.p.p1, 1024)] →
     s.queueBad d q' = false → q.state ≠ 1 →
       (q'.group = true → tget 0xFF s.qgrpJob q'.reader = 0xFF ∨ tget 0 s.qgrp q'.reader = map) →
       (q'.kind = 1 → (s.hub q'.home).combTaken + q'.keys ≤ 65536) →
       ∃ t, exec (.openChannel ⟨id, []⟩ image) s = .next t ∧ units t ∧ completed t c .ok 0 ∧ t.queue qid = q' ∧ q'.state = 1
         ∧ (∀ y, y ≠ qid → t.queue y = s.queue y) ∧ t.cores = s.cores ∧ t.hbm = s.hbm ∧ t.jobs = s.jobs
         ∧ (q'.kind = 1 → (t.hub q'.home).combRes = (s.hub q'.home).combRes + q'.keys)
         ∧ (q'.group = true → tget 0 t.qgrp q'.reader = map))
    ∧ ((Instr.closeChannel id).wf = true → executing s id c 0x0A →
      ∃ t, exec (.closeChannel id) s = .next t ∧ units t ∧ completed t c .ok 0 ∧ (∀ y, y ≠ qid → t.queue y = s.queue y)
        ∧ t.hbm = s.hbm ∧ t.jobs = s.jobs ∧ (∀ k, (t.core k).regs = (s.core k).regs ∧ (t.core k).mem = (s.core k).mem)
        ∧ (q.state = 1 → (t.queue qid).state = 2 ∧ (t.queue qid).recs = [] ∧ (t.queue qid).conns = [])
        ∧ (q.state = 2 → t.queue qid = Queue.zero) ∧ (q.state ≠ 1 → q.state ≠ 2 → t.queue qid = q))
    ∧ (let l := (upFrom 0 c.p.p1.toNat).map (circEntryAt (s.buffer c.p.p0 (32 * c.p.p1.toNat) entries))
       let plan := State.installAll job (l.zipIdx.map fun (x : CircEntry × Nat) => (x.1, later.getD x.2 [])) j.circuits.length s
       (Instr.setCircuits ⟨id, []⟩ entries later).wf = true → executing s id c 0x0B → bufsClean s [(c.p.p0, 32 * c.p.p1.toNat)] → plan = .ok (u, ids) →
       ∃ t, exec (.setCircuits ⟨id, []⟩ entries later) s = .next t ∧ units t ∧ completed t c .ok 0 ∧ t.cores = s.cores ∧ ids.Nodup
         ∧ delivered s t c.p.p2 (ids.flatMap fun i => leBytes i 2)
         ∧ (t.job job).circuits.length = j.circuits.length + l.length
         ∧ (∀ k, k ∉ ids → tget Circ.none t.fab.circ k = tget Circ.none s.fab.circ k)
         ∧ ∀ (n : Nat) (e : CircEntry), l[n]? = some e → ∃ i y, ids[n]? = some i ∧ tget Circ.none s.fab.circ i = Circ.none
           ∧ tget Circ.none t.fab.circ i = y ∧ y.valid = true ∧ y.origin = true ∧ y.out = e.ports % 16 ∧ y.dst = e.dst
           ∧ y.core = j.placement.getD e.orig 0 ∧ y.nslot = e.nslot ∧ (later.getD n []).map (· % 4096) = [y.next]
           ∧ (j.circuits.length + n, i) ∈ (t.job job).circuits
           ∧ ∀ m, m < e.nslot → (t.port y.out).reservedTo ((e.first + m * e.spacing) % 1024) i = true)
    ∧ (let d := s.buffer c.p.p1 1536 table
       let port := c.p.p0.toNat % 16
       let mine := fun (k : Nat) => k < 64 ∧ c.p.p2.getLsbD k = true
       (Instr.setApertures ⟨id, []⟩ table).wf = true → executing s id c 0x0C → bufsClean s [(c.p.p1, 1536)] →
       (∀ k, mine k → (apertureAt d k).ok = true) →
       ∃ t, exec (.setApertures ⟨id, []⟩ table) s = .next t ∧ units t ∧ completed t c .ok 0 ∧ (∀ p, p ≠ port → t.port p = s.port p)
         ∧ (∀ k, mine k → tget Aperture.none (t.port port).ap k = apertureAt d k)
         ∧ (∀ k, ¬ mine k → tget Aperture.none (t.port port).ap k = tget Aperture.none (s.port port).ap k)
         ∧ { t.port port with ap := (s.port port).ap } = s.port port)

/-- QUERY writes what its subject shows, and changes nothing else; FAULTS writes the records not acknowledged, oldest first, and
acknowledges them where it is asked to. CAPTURE TAKE begins a capture, CAPTURE_DONE ends it over the capture region alone, and a capture
that
a fault began is held; CAPTURE READ reads the region; a 1 in CAP_STATUS bit 1 releases a held one, but one that a fault holds since the
same hcyc. -/
def Obligations.QueriesAndCapturesReport : Prop :=
  ∀ (s : State) (id k0 : Nat) (c c0 : Cmd) (v : W32) (same : Bool),
    let index := c.p.p1.toNat
    let only := fun (t : State) => { t with host := s.host, out := s.out, hbm := s.hbm, plane := s.plane, nextId := s.nextId } = s
    ((Instr.query id).wf = true → executing s id c 0x0E →
      ∃ t d, exec (.query id) s = .next t ∧ only t ∧ completed t c .ok d.length ∧ delivered s t c.p.p2 d
        ∧ (c.p.p0 = 0 → d = [0x01109612, s.host.fwVer.toNat, s.host.trVer.toNat, devCap0, devCap1, s.host.devState, s.host.cpStatus, 0].flatMap
          fun w => leBytes w 4)
        ∧ (c.p.p0 = 1 → let j := s.job index
          d = leBytes j.word 4 ++ leBytes 0 4 ++ leBytes j.runs.toNat 8 ++ leBytes j.lastStretch.toNat 8 ++ leBytes j.lastEnd.toNat 8)
        ∧ (c.p.p0 = 2 → let x := tget SCtx.closed (s.core (index % 256)).ms.ctx (index / 256 % 4096)
          d.length = 16 ∧ leAt d 0 1 = x.state % 256 ∧ leAt d 8 4 = x.seq.toNat ∧ (x.state ≠ 0 → leAt d 4 4 = x.handle % 2 ^ 32))
        ∧ (c.p.p0 = 3 → let q := s.queue index
          d.length = 1024 ∧ leAt d 0 4 % 4 = q.state % 4 ∧ leAt d 8 8 = q.rbase % 2 ^ 64 ∧ leAt d 32 8 = q.head % 2 ^ 64
            ∧ leAt d 40 8 = q.tail % 2 ^ 64 ∧ leAt d 48 4 = q.drops.toNat ∧ leAt d 52 4 = q.refused.toNat)
        ∧ (c.p.p0 = 4 → d.length = 64 ∧ ∀ h w, h < 4 → w < 4 →
          leAt d (16 * h + 4 * w) 4 = (tget Resv.free s.hbm.resv index).word h w % 2 ^ 32)
        ∧ (c.p.p0 = 5 → d = s.digestBytes (s.mss.digest index) ∧ d.length = 1024))
    ∧ ((Instr.faults id).wf = true → executing s id c 0x0F →
      let l := (s.fl.oldest.filter fun x => !x.2.ack).take c.p.p2.toNat
      ∃ t, exec (.faults id) s = .next t ∧ completed t c .ok l.length ∧ delivered s t c.p.p1 (l.flatMap fun x => x.2.bytes)
        ∧ only { t with fl := s.fl } ∧ { t.fl with log := s.fl.log } = s.fl
        ∧ ∀ k, tget none t.fl.log k = (tget none s.fl.log k).map fun r =>
          if c.p.p0.getLsbD 0 = true ∧ ∃ x ∈ l, x.1 = k then { r with ack := true } else r)
    ∧ ((Instr.captureTake id).wf = true → executing s id c 0x10 → c.p.p0.getLsbD 0 = false → s.fl.capB = false →
      ∃ t, exec (.captureTake id) s = .next t ∧ waitsOn t c ∧ { t with host := s.host, fl := s.fl } = s ∧ t.fl.capB = true
        ∧ t.fl.capL = false ∧ t.fl.capT = 2 ∧ t.fl.capTbt = s.clk.tbt ∧ t.fl.capCmd = some id ∧ t.fl.log = s.fl.log
        ∧ ∀ k, k ∈ t.fl.capCores ↔ (k < 64 ∧ c.p.p1.getLsbD k = true ∨ 64 ≤ k ∧ k < 128 ∧ c.p.p2.getLsbD (k - 64) = true))
    ∧ ((Instr.captureRead ⟨id, []⟩).wf = true → executing s id c 0x10 → c.p.p0.getLsbD 0 = true →
      (s.touch [] [(0x011F50000000 + c.p.p1.toNat, c.p.p3.toNat)]).2 = false →
      ∃ t, exec (.captureRead ⟨id, []⟩) s = .next t ∧ only t ∧ completed t c .ok c.p.p3.toNat
        ∧ delivered s t c.p.p2 (readBytes s.hbm.mem (0x011F50000000 + c.p.p1.toNat) c.p.p3.toNat))
    ∧ (Instr.captureDone.wf = true → s.fl.capB = true →
      (∀ k ∈ s.fl.capCores, k < 128 ∧ (s.core k).ms.readers.length ≤ 1024) → (∀ x ∈ s.fl.log, x.1 < 4096) →
      ∃ t, exec .captureDone s = .next t ∧ t.fl.capB = false ∧ t.fl.capV = true ∧ (t.fl.capL = true ↔ s.fl.capT = 1)
        ∧ (t.fl.capC = true ↔ ∀ k ∈ s.fl.capCores, (s.core k).stopCode ≠ 0)
        ∧ readBytes t.hbm.mem 0x011F50000000 4 = [1, 0, 0, 0]
        ∧ (∀ a, a < 0x011F50000000 ∨ 0x011F58000000 ≤ a → tget 0 t.hbm.mem a = tget 0 s.hbm.mem a)
        ∧ { t with hbm := s.hbm, fl := s.fl, host := s.host, hc := s.hc } = s ∧ t.fl.log = s.fl.log
        ∧ (s.fl.capCmd = some k0 → s.cmd k0 = some c0 → completed t c0 .ok 0))
    ∧ ((Instr.capLockRelease ⟨v, same⟩).wf = true → v.toNat < 64 →
      yields (.capLockRelease ⟨v, same⟩) s { s with fl := { s.fl with capL := s.fl.capL && !(v.getLsbD 1 && !(same && s.hc.locks)) } })

/-- PORT_CTRL RESET closes a port, zeroes its counters and trains it anew, but on a standalone device; HOLD_DOWN leaves it DOWN; WRITE_CFG
sets NX_CFG; LOAD_CLUSTER_MAP keeps the master's map. TIME_CTRL STEP plans a step of whole frames where nothing forbids it, tells the
other devices, and steers the remainder away; READ writes the count. An MSS command's message waits for its turn. -/
def Obligations.PortsTimeAndMessagesAreCommanded : Prop :=
  ∀ (s : State) (id : Nat) (c : Cmd) (map msg : List Byte) (busy : Bool) (m : Int),
    let port := c.p.p0.toNat % 16
    let op := c.p.p0.toNat / 16 % 16
    let x := s.port port
    let units := fun (t : State) => t.cores = s.cores ∧ t.hbm = s.hbm ∧ t.jobs = s.jobs ∧ t.cfg = s.cfg ∧ t.clk.tbt = s.clk.tbt
      ∧ t.clk.op = s.clk.op
    ((Instr.portReset id).wf = true → executing s id c 0x12 → op = 0 →
      ∃ t, exec (.portReset id) s = .next t ∧ units t ∧ completed t c .ok 0 ∧ (t.port port).state = (if s.fab.role = 3 then 0 else 1)
        ∧ (t.port port).since = s.clk.tbt.toNat ∧ (t.port port).txPkt = 0 ∧ (t.port port).rxPkt = 0 ∧ (t.port port).replays = 0
        ∧ (t.port port).crcCnt = 0 ∧ (t.port port).cfg = x.cfg ∧ (t.port port).ap = x.ap)
    ∧ ((Instr.portHoldDown id).wf = true → executing s id c 0x12 → op = 1 →
      ∃ t, exec (.portHoldDown id) s = .next t ∧ units t ∧ completed t c .ok 0 ∧ (t.port port).state = 0 ∧ (t.port port).cause = 0
        ∧ (t.port port).width = 0)
    ∧ ((Instr.portWriteCfg id).wf = true → executing s id c 0x12 → op = 2 →
      ∃ t, exec (.portWriteCfg id) s = .next t ∧ units t ∧ completed t c .ok 0 ∧ t.clk = s.clk ∧ t.fab = s.fab
        ∧ t.port port = { x with
          cfg := BitVec.ofNat 32 (c.p.p1.toNat % 2 ^ 26), calSusp := decide (x.width < 4) || c.p.p1.getLsbD 0 }
        ∧ ∀ p, p ≠ port → t.port p = s.port p)
    ∧ (let d := s.buffer c.p.p1 (24 * c.p.p2.toNat) map
       let entry := fun (k : Nat) => ((d.drop (24 * k)).take 20, leAt d (24 * k + 20) 2)
       (Instr.loadClusterMap ⟨id, []⟩ map).wf = true → executing s id c 0x12 → op = 3 → bufsClean s [(c.p.p1, 24 * c.p.p2.toNat)] →
       s.fab.role = 1 → (∀ k, k < c.p.p2.toNat → (entry k).2 < 4096 ∧ leAt d (24 * k + 22) 2 = 0) →
         (∀ k l, k < l → l < c.p.p2.toNat → (entry k).1 ≠ (entry l).1 ∧ (entry k).2 ≠ (entry l).2) →
         (∀ k, k < c.p.p2.toNat → ((entry k).1 = s.mss.serial → (entry k).2 = 0)
           ∧ ∀ y ∈ s.fab.ids, y.2 = (entry k).2 → y.1 = (entry k).1) →
       ∃ t, exec (.loadClusterMap ⟨id, []⟩ map) s = .next t ∧ units t ∧ completed t c .ok 0 ∧ t.fab.map = (upFrom 0 c.p.p2.toNat).map entry
         ∧ { t with host := s.host, fab := s.fab } = s)
    ∧ ((Instr.timeCtrlStep id busy).wf = true → executing s id c 0x13 → c.p.p0 = 0 →
      let due := (s.clk.tbt.toNat / 16384 + 1) * 16384
      s.timeBusy = false → busy = false → m ≠ 0 → 16384 * m - 8192 ≤ c.p.p1.toInt → c.p.p1.toInt < 16384 * m + 8192 →
      ∃ t, exec (.timeCtrlStep id busy) s = .next t ∧ units t ∧ completed t c .ok 0
        ∧ t.clk = { s.clk with steer := steerOf (16384 * m - c.p.p1.toInt), steps := s.clk.steps ++ [(due, m)] }
        ∧ ∀ p, p < 16 → (s.port p).state = 4 → ∃ z ∈ (t.port p).txq, z.own = some (.mgmt (.step due m)))
    ∧ ((Instr.timeCtrlRead id).wf = true → executing s id c 0x13 → c.p.p0 = 1 →
      ∃ t d, exec (.timeCtrlRead id) s = .next t ∧ completed t c .ok 16 ∧ t.clk = s.clk ∧ t.cores = s.cores
        ∧ delivered s t c.p.p2 d ∧ d = leBytes s.clk.tbt.toNat 8 ++ leBytes s.clk.status 4 ++ leBytes 0 4)
    ∧ ((Instr.mss ⟨id, []⟩ msg).wf = true → executing s id c 0x14 → bufsClean s [(c.p.p0, c.p.p1.toNat % 2 ^ 16)] → s.mss.restart = false →
      ∃ t, exec (.mss ⟨id, []⟩ msg) s = .next t ∧ waitsOn t c ∧ t.mss.queue = s.mss.queue ++ [.command id]
        ∧ { t with host := s.host, mss := { t.mss with queue := s.mss.queue } } = s)

/-! ### Faults of runs and the compute reset (16) -/

/-- RUN_HALT stops the cores that the faulting run, or a later one, computes on, cancels starts and ticks, and triggers a capture;
HALT_QUIESCED, when what had issued is complete and the capture done, makes the job FAULTED with the records of the halted runs. The
watchdog stops a core that made no progress for WD_LIMIT; a deadline ends its run with ETIMEOUT; a stopped core that is not quiet within
1 ms
leaves the device FAULTED. -/
def Obligations.FaultsHaltRuns : Prop :=
  ∀ (s : State) (job run n delta t0 : Nat) (r : Run) (f : Nat × Nat × Nat × Status),
    let j := s.job job
    let now := s.clk.tbt.toNat
    let kept := fun (t : State) => t.hbm = s.hbm ∧ t.clk = s.clk ∧ t.cfg = s.cfg
      ∧ ∀ k, (t.core k).regs = (s.core k).regs ∧ (t.core k).mem = (s.core k).mem
    (fit (.runHalt job) s = true → j.live.find? (fun x => x.fault.isSome && !x.halted) = some r → r.fault = some f →
      ∃ t, exec (.runHalt job) s = .next t ∧ kept t ∧ (t.job job).starts = [] ∧ (∀ p, (t.job job).per = some p → p.stopped = true)
        ∧ (t.job job).faulting = true ∧ (t.job job).live.map (·.idx) = j.live.map (·.idx)
        ∧ (∀ x ∈ (t.job job).live, r.idx ≤ x.idx → x.halted = true ∧ x.fault ≠ none)
        ∧ (∀ k ∈ j.placement, (∃ x ∈ j.live, r.idx ≤ x.idx ∧ k ∈ x.toEnd ∧ k ∉ x.toBegin) → (t.core k).rn.stop ≠ .no)
        ∧ (∀ k, k ∉ j.placement → t.core k = s.core k)
        ∧ (s.fl.capB = false → s.fl.capL = false → t.fl.capB = true ∧ t.fl.capT = 1 ∧ t.fl.capIdx = f.2.2.1))
    ∧ ((Instr.haltQuiesced job).wf = true → (∃ x ∈ j.live, x.halted = true) →
      (∀ k ∈ j.placement, (s.core k).rn.stop = .no ∨ (s.core k).quiet = true) → s.fl.capB = false →
      ∃ t, exec (.haltQuiesced job) s = .next t ∧ kept t ∧ (t.job job).state = 6
        ∧ (t.job job).live = j.live.filter (fun x => !x.halted) ∧ (t.job job).stopCmd = [] ∧ (t.job job).lastEnd = s.clk.tbt
        ∧ ∀ x ∈ j.live, x.halted = true → (s.ring x.ring).en = true → (s.ring x.ring).full = false →
          ∃ y ∈ (t.ring x.ring).waiting, y.runrec = true ∧ y.tag = x.tag ∧ y.status = x.status.1
            ∧ y.start = BitVec.ofNat 64 x.start ∧ y.detail = BitVec.ofNat 32 x.detail)
    ∧ (let i := Instr.watchdogNoProgress n delta
       let k := reached s n delta
       let limit := 4000 * s.cfg.wdLimit
       let due := k.rn.progress + limit
       let active := k.ms.handler ≠ none ∨ (k.ctx k.rn.ctx).used = true ∧ (k.ctx k.rn.ctx).done = false
       fit i s = true → limit ≠ 0 → active → k.rn.stop = .no → due ≤ (s.copyTbt (s.phys n)).toNat →
       ∃ u g, hands i s n u ∧ u.rn.stop = .own ∧ u.regs = k.regs ∧ u.mem = k.mem ∧ u.tx = k.tx ∧ u.flt = k.flt ++ [g]
         ∧ g.cls = 0x0B ∧ g.stop = true ∧ g.status = .etimeout ∧ g.spec0 = 1 ∧ g.spec1 = BitVec.ofNat 64 due)
    ∧ ((Instr.runDeadline job run).wf = true → j.live.find? (fun x => x.idx = run) = some r → r.deadline ≠ 0 → r.fault = none →
      r.start + 4000 * r.deadline ≤ now →
      ∃ t g, exec (.runDeadline job run) s = .next t ∧ kept t ∧ t.cores = s.cores ∧ t.host = s.host ∧ (t.job job).faulting = true
        ∧ (t.job job).live.find? (fun x => x.idx = run) = some { r with fault := some (now, 256, s.fl.head, .etimeout) }
        ∧ tget none t.fl.log s.fl.head = some g ∧ g.cls = 0x0B ∧ g.stop = true ∧ g.spec0 = 2 ∧ ∀ k, k ≠ job → t.job k = s.job k)
    ∧ ((Instr.quiesceTimeout n).wf = true → s.fl.stops.find? (fun x => x.1 = n) = some (n, t0) → t0 + 4000000 ≤ now →
      (s.core n).quiet = false → (s.core n).rn.stop ≠ .no →
      ∃ t, exec (.quiesceTimeout n) s = .next t ∧ kept t ∧ t.host.state = 5 ∧ t.host.fcause = 3 ∧ s.phys n ∈ t.fl.pendCore
        ∧ (∀ k v, (k, v) ∈ s.cores → (t.core k).rn.stop ≠ .no)
        ∧ (∀ k, k < 64 → (s.job k).state ≠ 0 → (t.job k).state = 6 ∧ (t.job k).live = [])
        ∧ (s.cfg.rsAuto = true → t.fl.autoAt = some (now + 4000000)))

/-- A compute reset has run to its end: the C-die is cleared, jobs are EMPTY, HBM and the timebase are as they were; the device is READY,
or FAULTED where a row is short of cores or a crossing of PL or of a hub has failed. -/
def Sys2Proof.Claims.resetDone (s t : State) : Prop :=
  t.fl.rsBusy = 0 ∧ t.fl.rsCount = s.fl.rsCount + 1 ∧ (∀ h, h < 4 → (t.hub h).cfence = false)
    ∧ (∀ k, k < 128 → (t.core k).mem = [] ∧ (t.core k).regs = ⟨[], [], [], [], []⟩ ∧ (t.core k).tl.t = [])
    ∧ (∀ k, k < 64 → (t.job k).state = 0) ∧ t.hbm.mem = s.hbm.mem ∧ t.clk.tbt = s.clk.tbt ∧ t.cfg = s.cfg
    ∧ if t.rowShort || t.planeBad then t.host.state = 5 ∧ t.host.fcause = 4 else t.host.state = 2 ∧ t.host.fcause = 0

/-- A reset begins with the capture of phase 1: the device is RESETTING, and nothing else has changed yet. -/
def Sys2Proof.Claims.resetBegun (s t : State) : Prop :=
  t.host.state = 6 ∧ t.fl.rsBusy = 1 ∧ t.fl.capB = true ∧ t.fl.capT = 3 ∧ t.fl.capCores = upFrom 0 128 ∧ t.fl.autoAt = none
    ∧ { t with host := s.host, fl := s.fl } = s

/-- COMPUTE_RESET runs its phases as far as it is led: with a capture it waits for that; in phase 2 the hubs answer for the C-die; at
the end
the commands that asked for it complete. A command that comes during a reset joins it. AUTO_RESET begins a reset with capture 1 ms after
the device
entered FAULTED, and leads one on. -/
def Obligations.ComputeResetsRun : Prop :=
  ∀ (s : State) (id upTo t0 : Nat) (c : Cmd) (r : ResetRun),
    r.micros ≤ 20000 → (s.host.exec.map (·.id)).Nodup →
    let ended := fun (t : State) => if t.rowShort || t.planeBad then ∃ d, completed t c .efault d else completed t c .ok 0
    (let i := Instr.computeReset id 8 r
     i.wf = true →
     (executing s id c 0x11 → s.fl.rsBusy = 0 → s.fl.capB = false →
       (c.p.p0.getLsbD 0 = false → ∃ t, exec i s = .next t ∧ resetDone s t ∧ ended t)
       ∧ (c.p.p0.getLsbD 0 = true → ∃ t, exec i s = .next t ∧ resetBegun s t ∧ waitsOn t c ∧ id ∈ t.fl.rsCmds))
     ∧ (s.cmd id = some c → c.acted = true → id ∈ s.fl.rsCmds → s.fl.rsBusy = 1 → s.fl.capB = false →
       ∃ t, exec i s = .next t ∧ resetDone s t ∧ ended t))
    ∧ ((Instr.computeReset id 2 r).wf = true → s.cmd id = some c → c.acted = true → id ∈ s.fl.rsCmds → s.fl.rsBusy = 1 →
      s.fl.capB = false →
      ∃ t, exec (.computeReset id 2 r) s = .next t ∧ t.fl.rsBusy = 2 ∧ (∀ h, h < 4 → (t.hub h).cfence = true) ∧ t.cores = s.cores
        ∧ t.hbm.mem = s.hbm.mem ∧ t.hbm.cal = s.hbm.cal ∧ t.jobs = s.jobs ∧ t.host = s.host ∧ t.clk = s.clk)
    ∧ ((Instr.computeReset id 1 r).wf = true → executing s id c 0x11 → s.fl.rsBusy ≠ 0 →
      ∃ t, exec (.computeReset id 1 r) s = .next t ∧ waitsOn t c ∧ t.fl.rsCmds = s.fl.rsCmds ++ [id]
        ∧ { t with host := s.host, fl := s.fl } = s)
    ∧ ((Instr.autoReset upTo r).wf = true → s.fl.autoAt = some t0 → s.fl.rsBusy = 0 → s.host.state = 5 → s.fl.capB = false →
      t0 ≤ s.clk.tbt.toNat → ∃ t, exec (.autoReset upTo r) s = .next t ∧ resetBegun s t)
    ∧ ((Instr.autoReset 8 r).wf = true → s.fl.rsBusy = 1 → s.fl.capB = false →
      ∃ t, exec (.autoReset 8 r) s = .next t ∧ resetDone s t)

/-- What is not due yet changes nothing: the watchdog of a core that has made progress within WD_LIMIT, or that is off, a deadline
before its instant, a reset within 1 ms of the entry to FAULTED, a capture that ends while none is taken. -/
def Sys2Proof.Claims.WhatIsNotDueChangesNothing : Prop :=
  ∀ (s : State) (job run n delta upTo t0 : Nat) (r : ResetRun) (x : Run),
    let now := s.clk.tbt.toNat
    (let i := Instr.watchdogNoProgress n delta
     let k := reached s n delta
     let limit := 4000 * s.cfg.wdLimit
     let active := k.ms.handler ≠ none ∨ (k.ctx k.rn.ctx).used = true ∧ (k.ctx k.rn.ctx).done = false
     fit i s = true → limit = 0 ∨ ¬ active ∨ (s.copyTbt (s.phys n)).toNat < k.rn.progress + limit → hands i s n k)
    ∧ ((Instr.runDeadline job run).wf = true → (s.job job).live.find? (fun y => y.idx = run) = some x → now < x.start + 4000 * x.deadline →
      yields (.runDeadline job run) s s)
    ∧ ((Instr.autoReset upTo r).wf = true → s.fl.autoAt = some t0 → s.fl.rsBusy = 0 → now < t0 → yields (.autoReset upTo r) s s)
    ∧ (Instr.captureDone.wf = true → s.fl.capB = false → yields .captureDone s s)

/-! ### Management and the registers of BAR0 (14 R422; 15; 16; 17) -/

/-- SENSOR_SAMPLE writes the sensor and rail registers and the averages, the hubs' THERM_LIMIT, and where a sensor is at its throttle
limit takes one point off; THROTTLE_RETURN gives one back after 100 ms within the limits. PCAP_APPLY applies a waiting cap when no
deterministic
run is live; LEDGER_FLUSH writes what waits to the ring in flash; REMAP_FLASH_COPY copies pending marks. HASH_COMPLETE and DIGEST_SIGN
complete a
digest record. -/
def Obligations.TheMssSamplesAndRecords : Prop :=
  ∀ (s : State) (x : Sample) (n k h idx code : Nat) (T : Int) (rest : List Nat),
    let now := s.clk.tbt.toNat
    let m := s.mss
    let kept := fun (t : State) => t.cores = s.cores ∧ t.hbm = s.hbm ∧ t.host = s.host ∧ t.cfg = s.cfg ∧ t.clk.tbt = s.clk.tbt
      ∧ t.clk.op = s.clk.op
    ((Instr.sensorSample x).wf = true → m.awake = true →
      ∃ t, exec (.sensorSample x) s = .next t ∧ kept t ∧ t.mss.pwr1 = x.avg1 ∧ t.mss.pwr10 = x.avg10
        ∧ (n < 164 → x.temps.getD n none = some T → -40 ≤ T → T ≤ 150 →
          let w := tget 0 t.mss.sensors n
          (w.setWidth 9).toInt = T ∧ w.getLsbD 9 = true
            ∧ (w.getLsbD 10 = true ↔ (if 144 ≤ n ∧ n < 152 then 105 else 100) ≤ T)
            ∧ (w.getLsbD 11 = true ↔ (if n < 144 then 110 else if n < 152 then 115 else 105) ≤ T))
        ∧ (n < 164 → x.temps.getD n none = none → (tget 0 t.mss.sensors n).getLsbD 9 = false)
        ∧ (k < 22 → let r := x.rails.getD k (0, 0, 0, false)
          (tget 0 t.mss.rails k).toNat = r.1 % 2 ^ 16 + 2 ^ 16 * (r.2.1 % 2 ^ 16) + 2 ^ 32 * (r.2.2.1 % 2 ^ 16)
            + (if r.2.2.2 then 2 ^ 48 else 0))
        ∧ (h < 4 → (∀ i, i < 3 → ∃ u, x.temps.getD (152 + 3 * h + i) none = some u ∧ -40 ≤ u ∧ u ≤ 150) →
          ((t.hub h).therm = true ↔ ∃ i u, i < 3 ∧ x.temps.getD (152 + 3 * h + i) none = some u ∧ 105 < u))
        ∧ (let u := s.sampleRegs x
          u.critical = none → u.mss.hot 10 = some n → s.detArmed = false → m.lastThr = none → s.targetOp < 4 →
            t.mss.throttle = s.targetOp + 1 ∧ t.mss.lastThr = some now ∧ t.mss.alert.getLsbD 2 = true))
    ∧ (Instr.throttleReturn.wf = true → m.awake = true → s.clk.hostOp < m.throttle →
      m.lastBad + 400000000 ≤ now → ∃ t, exec .throttleReturn s = .next t ∧ kept t ∧ t.mss.throttle = m.throttle - 1
        ∧ t.mss.lastBad = now ∧ t.mss.alert.getLsbD 2 = true)
    ∧ (Instr.pcapApply.wf = true → m.pcapPend = some code → m.awake = true → s.detRun = false →
      yields .pcapApply s { s with mss := { m with pcapPend := none, pcapAct := code } })
    ∧ (Instr.ledgerFlush.wf = true → m.awake = true → m.ledNext < 262144 → m.ledBuf.length < 262144 →
      ∃ t, exec .ledgerFlush s = .next t ∧ { t with mss := s.mss } = s ∧ t.mss.ledBuf = [] ∧ t.mss.ledLost = 0
        ∧ (∀ i e, m.ledBuf[i]? = some e → tget none t.mss.ledger ((m.ledNext + i) % 262144) = some e)
        ∧ t.mss.ledNext = (m.ledNext + m.ledBuf.length + (if m.ledLost = 0 then 0 else 1)) % 262144
        ∧ (m.ledLost ≠ 0 → ∃ e, tget none t.mss.ledger ((m.ledNext + m.ledBuf.length) % 262144) = some e ∧ e.type = 0x0C
          ∧ e.seq = m.ledSeq ∧ leAt e.data 0 4 = m.ledLost % 2 ^ 32 ∧ t.mss.ledSeq = m.ledSeq + 1))
    ∧ (Instr.remapFlashCopy.wf = true → m.awake = true →
      ∃ t, exec .remapFlashCopy s = .next t ∧ { t with mss := s.mss } = s
        ∧ (∀ p, p ∈ t.mss.pendRemapCores ↔ p ∈ m.pendRemapCores ∨ p ∈ s.fl.pendCore)
        ∧ ∀ p r, (p, r) ∈ t.mss.pendRemapRods ↔ (p, r) ∈ m.pendRemapRods
          ∨ ∃ k c, (k, c) ∈ s.cores ∧ p = s.phys k ∧ r < 132 ∧ c.mx.rodPend.getLsbD r = true)
    ∧ (let d := tget Digest.empty m.digests idx
       let hash := fun (l : List (Nat × Nat)) =>
         Config.sha512_256 (l.flatMap fun y => Config.sha512_256 (readBytes s.hbm.mem y.1 y.2))
       ((Instr.hashComplete ⟨idx, []⟩).wf = true → idx ∈ m.hashing →
         let full := d.sign = true ∧ 256 ≤ m.signing.length
         ∃ t, exec (.hashComplete ⟨idx, []⟩) s = .next t ∧ { t with mss := s.mss } = s ∧ idx ∉ t.mss.hashing
           ∧ tget Digest.empty t.mss.digests idx = { d with state := 2, inp := hash d.ins, outp := hash d.outs, skip := decide full }
           ∧ t.mss.signing = m.signing ++ (if d.sign = true ∧ ¬ full then [idx] else [])
           ∧ ∀ i, i ≠ idx → tget Digest.empty t.mss.digests i = tget Digest.empty m.digests i)
       ∧ ((Instr.digestSign idx).wf = true → m.signing = idx :: rest → m.awake = true →
         ∃ t, exec (.digestSign idx) s = .next t ∧ { t with mss := s.mss } = s ∧ t.mss.signing = rest
           ∧ tget Digest.empty t.mss.digests idx = { d with state := 3, sig := Config.deviceSign (s.digestHead d 0) }
           ∧ ∀ i, i ≠ idx → tget Digest.empty t.mss.digests i = tget Digest.empty m.digests i))

/-- What the registers ignore or turn away: MB_CTRL without GO, or while a message is served; a power-cap code above 24, which sets the
error
bit alone; a write of a core's, a hub's, a port's or a clock's registers. The throttle returns nothing before 100 ms within the limits,
and a
waiting cap waits on while a deterministic run is live. A misaligned access leaves cores, memory, jobs and clocks as they were, and a read
of one returns as many bytes as it asks for. -/
def Sys2Proof.Claims.WritesThatTheRegistersIgnore : Prop :=
  ∀ (s : State) (v : W32) (w : W64) (off code : Nat) (sm : Bool),
    let m := s.mss
    let write := Instr.registerWrite off ⟨4, sm, .whole⟩ w
    let read := Instr.rcRegisterRead off ⟨4, sm, .whole⟩
    ((Instr.mbGo v).wf = true → v.toNat < 2 → v = 0 ∨ m.mbStatus.getLsbD 0 = true → yields (.mbGo v) s s)
    ∧ ((Instr.mgPcapWrite v).wf = true → v.toNat < 32 → 24 < v.toNat →
      yields (.mgPcapWrite v) s { s with mss := { m with pcapErr := true } })
    ∧ (Instr.throttleReturn.wf = true → s.clk.tbt.toNat < m.lastBad + 400000000 → yields .throttleReturn s s)
    ∧ (Instr.pcapApply.wf = true → m.pcapPend = some code → s.detRun = true → yields .pcapApply s s)
    ∧ (write.wf = true → off % 4 = 0 → 0x1000000 ≤ off → off < 0x4100000 → yields write s s)
    ∧ (write.wf = true → off + 4 ≤ 0x10000000 → off % 4 ≠ 0 →
      ∃ u, exec write s = .next u ∧ u.cores = s.cores ∧ u.hbm = s.hbm ∧ u.jobs = s.jobs ∧ u.clk = s.clk)
    ∧ (read.wf = true → off + 4 ≤ 0x10000000 → off % 4 ≠ 0 →
      ∃ u d, exec read s = .next u ∧ d.length = 4 ∧ { u with out := s.out, freeCtr := s.freeCtr } = s ∧ u.out = s.out ++ [.data off d false])

/-- Writes of the registers of the MSS and of the fault block: MB_CTRL GO sends the message; MG_PCAP takes codes to 24, which wait while a
deterministic run is live; a 1 clears a bit of MG_ALERT, but one that an event sets in the same hcyc; WD_LIMIT is clamped. REGISTER_WRITE
reaches the same registers; a 64-bit write over two registers is two writes, the lower first, between which others may come. Reads
return the
word and clear RC fields; TM_TBT's upper half is that of the last read of its lower one. -/
def Obligations.RegistersKeepTheirRules : Prop :=
  ∀ (s t : State) (v : W32) (w : W64) (off p k : Nat) (sm : Bool),
    let m := s.mss
    let now := s.clk.tbt.toNat
    let write := fun (o : Nat) (u : W64) => Instr.registerWrite o ⟨4, sm, .whole⟩ u
    let same := fun (i j : Instr) => exec i s = exec j s
    ((Instr.mbGo v).wf = true → v.toNat < 2 →
      v = 1 → m.mbStatus.getLsbD 0 = false → m.awake = true →
      yields (.mbGo v) s { s with mss := { m with mbStatus := 1, queue := m.queue ++ [.mailbox] } })
    ∧ ((Instr.mgPcapWrite v).wf = true → v.toNat < 32 →
      (v.toNat ≤ 24 → s.detRun = false → m.awake = true → yields (.mgPcapWrite v) s { s with
        cfg := { s.cfg with pcap := v.toNat }, mss := { m with pcapErr := false, pcapPend := none, pcapAct := v.toNat } })
      ∧ (v.toNat ≤ 24 → s.detRun = true → yields (.mgPcapWrite v) s { s with
        cfg := { s.cfg with pcap := v.toNat }, mss := { m with pcapErr := false, pcapPend := some v.toNat } }))
    ∧ ((Instr.mgAlertClear ⟨v, sm⟩).wf = true → v.toNat < 128 →
      ∃ u, exec (.mgAlertClear ⟨v, sm⟩) s = .next u ∧ { u with mss := { u.mss with alert := m.alert } } = s
        ∧ ∀ i, i < 7 → u.mss.alert.getLsbD i = (m.alert.getLsbD i && (!v.getLsbD i || sm && s.hc.alerts.getLsbD i)))
    ∧ ((Instr.wdLimitWrite v).wf = true → yields (.wdLimitWrite v) s { s with
        cfg := { s.cfg with wdLimit := if v = 0 then 0 else max 10 (min 4000000 v.toNat) } })
    ∧ (let lo := BitVec.truncate 32 w
       (write off w).wf = true → off + 4 ≤ 0x10000000 → off % 4 = 0 →
       (off = 0x6000020 → same (write off w) (.wdLimitWrite lo)) ∧ (off = 0x6000030 → same (write off w) (.capLockRelease ⟨lo, sm⟩))
       ∧ (off = 0x5000004 → same (write off w) (.mgAlertClear ⟨lo, sm⟩)) ∧ (off = 0x5000008 → same (write off w) (.mgPcapWrite lo))
       ∧ (off = 0x5000024 → same (write off w) (.mbGo lo)) ∧ (off = 0x1C → same (write off w) (.bar2SelWrite lo))
       ∧ (off = 0x10800C → same (write off w) (.biasFlipGo lo))
       ∧ (p < 256 → off = 0x200000 + 0x1000 * p → same (write off w) (.doorbellSqTail p lo))
       ∧ (p < 256 → off = 0x200004 + 0x1000 * p → same (write off w) (.doorbellCqHead p lo))
       ∧ (p < 256 → off = 0x10201C + 0x40 * p → same (write off w) (.ringDeferWrite p lo))
       ∧ (p < 256 → off = 0x102010 + 0x40 * p → lo.getLsbD 0 = true → same (write off w) (.ringEnable p lo))
       ∧ (off = 0x6000040 → lo.toNat < 2 → yields (write off w) s { s with cfg := { s.cfg with rsAuto := lo.getLsbD 0 } })
       ∧ (off = 0x5000020 → lo.toNat < 8192 → yields (write off w) s { s with cfg := { s.cfg with mbLen := lo.toNat } })
       ∧ (off % 8 = 0 → off + 8 ≤ 0x10000000 → (Instr.registerWrite off ⟨8, sm, .whole⟩ w).wf = true →
         (exec (write off w) s = .next t → exec (.registerWrite off ⟨8, sm, .whole⟩ w) s = exec (write (off + 4) (w >>> 32)) t)
         ∧ (isWide off = false → same (.registerWrite off ⟨8, sm, .low⟩ w) (write off w)
           ∧ same (.registerWrite off ⟨8, sm, .high⟩ w) (write (off + 4) (w >>> 32)))))
    ∧ (Instr.tmTbtLowRead.wf = true → yields .tmTbtLowRead s { s with
        clk := { s.clk with latch := some (BitVec.ofNat 32 (now / 2 ^ 32)) }
        out := s.out ++ [.data 0x4000008 (leBytes now 4) false] })
    ∧ (let r := fun (o : Nat) => Instr.rcRegisterRead o ⟨4, false, .whole⟩
       let kept := fun (u : State) => u.hbm = s.hbm ∧ u.jobs = s.jobs ∧ u.cfg = s.cfg ∧ u.mss = s.mss ∧ u.pending = s.pending
         ∧ ∀ c, (u.core c).regs = (s.core c).regs ∧ (u.core c).mem = (s.core c).mem
       ((r off).wf = true → off + 4 ≤ 0x10000000 →
         (off % 4 = 0 → foreign off = false → off ≠ 0x4000008 → off ≠ 0x400000C →
           ∃ u, exec (r off) s = .next u ∧ kept u ∧ u.clk.tbt = s.clk.tbt ∧ u.out = s.out ++ [.data off (leBytes (s.word off) 4) false])
         ∧ (off = 0x4000008 → same (r off) .tmTbtLowRead)
         ∧ (∀ x, off = 0x400000C → s.clk.latch = some x → yields (r off) s { s with
           clk := { s.clk with latch := none }, out := s.out ++ [.data 0x400000C (leBytes x.toNat 4) false] })
         ∧ (p < 16 → off = 0x3000028 + 0x80000 * p →
           ∃ u, exec (r off) s = .next u ∧ (u.port p).replays = 0 ∧ (∀ q, q ≠ p → u.port q = s.port q)
             ∧ u.out = s.out ++ [.data off (leBytes (s.port p).replays.toNat 4) false])
         ∧ (k < 128 → off = 0x100D008 + 0x10000 * k → s.host.state ≠ 6 →
           ∃ u, exec (r off) s = .next u ∧ (u.core k).lu.ceCnt = 0 ∧ (∀ q, q ≠ k → u.core q = s.core q)
             ∧ u.out = s.out ++ [.data off (leBytes (s.core k).lu.ceCnt.toNat 4) false])
         ∧ (off = 0x600000C → ∃ u, exec (r off) s = .next u ∧ u.fl = { s.fl with lost := 0 }
             ∧ u.out = s.out ++ [.data off (leBytes s.fl.lost.toNat 4) false])))

/-! ### Management messages (16 R502; 17 R504 to R525) -/

/-- The response `d` has gone back the way that the request came: into the mailbox with its DONE bit, into the command's buffer with the
command complete, or as a message; the next request is first. -/
def Sys2Proof.Claims.answered (s t : State) (r : Transport) (d : List Byte) : Prop :=
  match r with
  | .mailbox => t.mss.queue = s.mss.queue.drop 1 ∧ t.mss.mbStatus.toNat = 2 + 4 * min 4096 d.length
      ∧ readBytes t.mss.mbRsp 0 (min 4096 d.length) = d.take 4096 ∧ t.out = s.out
  | .command id => t.mss.queue = s.mss.queue.drop 1 ∧ ∀ c, s.cmd id = some c →
      let e := d.take (c.p.p3.toNat % 2 ^ 16)
      completed t c .ok e.length ∧ delivered s t c.p.p2 e
  | r => t.mss.queue = s.mss.queue ∧ t.out = s.out ++ [.message r d]

/-- A message leaves cores, jobs, clocks, ports and the host's registers as they were. -/
def Sys2Proof.Claims.serviceKept (s t : State) : Prop :=
  t.cores = s.cores ∧ t.jobs = s.jobs ∧ t.clk = s.clk ∧ t.ports = s.ports ∧ t.cfg = s.cfg ∧ t.fl = s.fl ∧ t.pending = s.pending

/-- A served message is answered with a header and this body. -/
def Sys2Proof.Claims.replies (i : Instr) (s : State) (r : Transport) (body : List Byte) (p : State → Prop) : Prop :=
  ∃ t hd, exec i s = .next t ∧ serviceKept s t ∧ hd.length = 2 ∧ answered s t r (hd ++ body) ∧ p t

/-- A message that is answered, whatever with, and changes no state of the MSS beside the mailbox and its queue. -/
def Sys2Proof.Claims.repliesOnly (i : Instr) (s : State) (r : Transport) : Prop :=
  ∃ t d, exec i s = .next t ∧ serviceKept s t ∧ answered s t r d
    ∧ { t.mss with queue := s.mss.queue, mbStatus := s.mss.mbStatus, mbRsp := s.mss.mbRsp } = s.mss

/-- Vendor messages, PLDM and MCTP control, over any transport but DOE: GET_STATUS, LEDGER_READ, SET_ROOTS within a secured session,
CLEAR_ALERT, the TID, the sensors, firmware update with an image that R523 accepts, the endpoint ID; unsupported messages are answered
so. The MSS
restarts by a message or by its own watchdog; requests that wait are not answered, and MSS commands end with EPEER_GONE. The completion code
for a sensor that R504 does not list is a free value (the model's choice, notes/assumptions/63.md). -/
def Obligations.ManagementMessagesAct : Prop :=
  ∀ (s : State) (r : Transport) (first count sensor kind code id : Nat) (certs : List (List Byte)) (mask : W32) (body image sig : List Byte)
    (eid : BitVec 8) (c : Cmd) (done sm : Bool),
    let m := s.mss
    (s.serves r = true → r ≠ .doe →
      ((Instr.getStatus r).wf = true → replies (.getStatus r) s r
        (leBytes s.mgStatus 4 ++ leBytes m.alert.toNat 4 ++ leBytes (m.pwr1 % 2 ^ 16 + 2 ^ 16 * (m.pwr10 % 2 ^ 16)) 4 ++ leBytes m.tmax.toNat 4)
        fun t => t.mss.alert = m.alert)
      ∧ ((Instr.ledgerRead r first count).wf = true → 1 ≤ count → count ≤ 60 → replies (.ledgerRead r first count) s r
        ((upFrom first count).flatMap fun k => match tget none m.ledger (k % 262144) with
          | some e => e.bytes
          | none => List.replicate 64 0)
        fun t => t.mss.ledger = m.ledger)
      ∧ (let good := m.spdm.session = true ∧ m.spdm.final = true ∧ certs ≠ [] ∧ certs.length ≤ 8;
        good → (Instr.setRoots r true certs).wf = true → replies (.setRoots r true certs) s r [0] fun t => t.mss.roots = certs)
      ∧ ((Instr.clearAlert r ⟨mask, sm⟩).wf = true → ∃ a : BitVec 7,
        (∀ i, i < 7 → a.getLsbD i = (m.alert.getLsbD i && (!mask.getLsbD i || sm && s.hc.alerts.getLsbD i)))
        ∧ replies (.clearAlert r ⟨mask, sm⟩) s r (leBytes a.toNat 4) fun t => t.mss.alert = a)
      ∧ ((Instr.pldmBase r 1 body).wf = true → replies (.pldmBase r 1 body) s r [] fun t => t.mss.tid = leAt body 0 1)
      ∧ ((Instr.pldmBase r 2 body).wf = true → replies (.pldmBase r 2 body) s r [BitVec.ofNat 8 m.tid] fun t => t.mss.tid = m.tid)
      ∧ ((Instr.pldmBase r 4 body).wf = true → replies (.pldmBase r 4 body) s r [0x25, 0, 0, 0, 0, 0, 0, 0] fun t => t.mss.tid = m.tid)
      ∧ (kind ≠ 1 → (Instr.pldmBase r kind body).wf = true → repliesOnly (.pldmBase r kind body) s r)
      ∧ (sensor < 164 → (Instr.pldmSensorRead r sensor).wf = true →
        replies (.pldmSensorRead r sensor) s r (leBytes (tget 0 m.sensors sensor).toNat 4) fun _ => True)
      ∧ (164 ≤ sensor → sensor < 186 → (Instr.pldmSensorRead r sensor).wf = true →
        replies (.pldmSensorRead r sensor) s r (leBytes (tget 0 m.rails (sensor - 164)).toNat 8) fun _ => True)
      ∧ (186 ≤ sensor → sensor ≤ 187 → (Instr.pldmSensorRead r sensor).wf = true →
        replies (.pldmSensorRead r sensor) s r (if sensor = 186 then leBytes m.watts 2 else leBytes s.host.state 1) fun _ => True)
      ∧ (188 ≤ sensor → (Instr.pldmSensorRead r sensor).wf = true → repliesOnly (.pldmSensorRead r sensor) s r)
      ∧ (let i := Instr.pldmFirmwareUpdate r image sig false
        i.wf = true → m.update = false → s.host.state ≠ 7 → imageGood image sig m.fuseSvn = true →
          let staged := { s with hbm := s.hbm.put 0x011F58000000 (image ++ sig) false }
          ∃ t d, exec i s = .next t ∧ serviceKept s t ∧ answered staged t r d ∧ t.mss.fuseSvn = m.fuseSvn ∧ t.host.state = s.host.state
            ∧ t.mss.image = image ++ sig)
      ∧ ((Instr.endpointIdAssignment r eid).wf = true →
        eid ≠ 0 → eid ≠ 0xFF → ∃ t d, exec (.endpointIdAssignment r eid) s = .next t ∧ serviceKept s t ∧ answered s t r d ∧ t.mss.eid = eid)
      ∧ ((Instr.mssRestart false r false).wf = true →
        ∃ t, exec (.mssRestart false r false) s = .next t ∧ serviceKept s t ∧ t.mss.restart = true ∧ t.mss.up = false ∧ t.mss.queue = []
          ∧ t.mss.ledger = m.ledger ∧ t.mss.roots = m.roots))
    ∧ (s.servesAny r = true → (Instr.mctpUnsupported r kind code).wf = true → repliesOnly (.mctpUnsupported r kind code) s r)
    ∧ (s.servesAny r = true → r ≠ .doe → s.host.state = 7 → m.update = false → imageGood image sig m.fuseSvn = true →
      (Instr.pldmFirmwareUpdate r image sig false).wf = true →
      ∃ t, exec (.pldmFirmwareUpdate r image sig false) s = .next t ∧ serviceKept s t ∧ t.mss.image = image ++ sig ∧ t.host.state = 1)
    ∧ ((Instr.mssRestart true r false).wf = true → m.awake = true → .command id ∈ m.queue → s.cmd id = some c →
      ∃ t, exec (.mssRestart true r false) s = .next t ∧ serviceKept s t ∧ t.mss.restart = true ∧ t.mss.up = false ∧ t.mss.queue = []
        ∧ completed t c .epeerGone 0xFFFF)
    ∧ ((Instr.mssRestart done r true).wf = true → m.restart = true →
      ∃ t, exec (.mssRestart done r true) s = .next t ∧ t.mss.restart = false ∧ t.mss.up = true ∧ t.cores = s.cores ∧ t.hbm = s.hbm
        ∧ t.host = s.host ∧ t.clk.tbt = s.clk.tbt)

/-- SPDM requests that the MSS serves, in their order: a version begins a connection; the one algorithm of each role must be offered;
digests,
pieces of the chain, a signed challenge and measurements follow; a key exchange and its FINISH secure a session, which END_SESSION ends;
link keys
are programmed within one. -/
def Obligations.SpdmAuthenticatesTheDevice : Prop :=
  ∀ (s : State) (r : Transport) (off len : Nat) (nonce exchange verify key : List Byte) (indices : List Nat),
    let m := s.mss
    let x := m.spdm
    let own := fun (n : Nat) => Config.random m.draws n
    let digest := Config.sha512 m.chain
    s.serves r = true →
    ((Instr.getVersion r).wf = true →
      ∃ t e, exec (.getVersion r) s = .next t ∧ serviceKept s t ∧ answered s t r e ∧ t.mss.spdm = ⟨true, false, false, false, [], []⟩)
    ∧ ((Instr.getCapabilities r).wf = true → x.version = true →
      ∃ t e, exec (.getCapabilities r) s = .next t ∧ serviceKept s t ∧ answered s t r (0x05 :: 0x61 :: e) ∧ t.mss.spdm = x)
    ∧ ((Instr.negotiateAlgorithms r true true true true).wf = true → x.version = true →
      ∃ t e, exec (.negotiateAlgorithms r true true true true) s = .next t ∧ serviceKept s t ∧ answered s t r e
        ∧ t.mss.spdm = { x with algo := true })
    ∧ (x.algo = true →
      ((Instr.getDigests r).wf = true → replies (.getDigests r) s r (1 :: digest) fun t => t.mss.spdm = x)
      ∧ ((Instr.getCertificate r 0 off len).wf = true → off ≤ m.chain.length →
        let e := (m.chain.drop off).take len
        replies (.getCertificate r 0 off len) s r (leBytes e.length 2 ++ leBytes (m.chain.length - off - e.length) 2 ++ e)
          fun t => t.mss.spdm = x)
      ∧ ((Instr.challenge r 0 nonce).wf = true →
        replies (.challenge r 0 nonce) s r (digest ++ own 32 ++ Config.deviceSign (nonce ++ own 32 ++ digest)) fun t =>
          t.mss.draws = m.draws + 1 ∧ t.mss.spdm = x)
      ∧ ((Instr.getMeasurements r indices).wf = true → (∀ i ∈ indices, 1 ≤ i ∧ i ≤ 6) →
        replies (.getMeasurements r indices) s r (indices.flatMap fun i => leBytes i 1 ++ Config.sha512 (s.measured i)) fun t =>
          t.mss.spdm = x)
      ∧ ((Instr.keyExchange r exchange nonce).wf = true →
        let e := exchange ++ nonce ++ own 512
        replies (.keyExchange r exchange nonce) s r (own 512 ++ Config.deviceSign e) fun t =>
          t.mss.spdm = { x with
            session := true, final := false, key := Config.agree exchange (own 512), transcript := e ++ Config.deviceSign e })
      ∧ ((Instr.finish r verify).wf = true → x.session = true → x.final = false → verify = Config.finishMac x.key x.transcript →
        replies (.finish r verify) s r [] fun t => t.mss.spdm = { x with final := true })
      ∧ ((Instr.endSession r).wf = true → x.final = true →
        replies (.endSession r) s r [] fun t => t.mss.spdm = { x with session := false, final := false, key := [], transcript := [] }))
    ∧ ((Instr.ideKeyManagement r true key).wf = true → x.final = true → replies (.ideKeyManagement r true key) s r [] fun t =>
      t.host.keys = [key])

/-- Messages that the MSS serves and turns away: SET_ROOTS outside a secured session, or with no certificate or more than 8, is refused; an
image that R523 does not accept leaves the flash as it was; 0 and 0xFF are no endpoint IDs; SPDM requests before their time, algorithms
that are
not offered, a wrong proof, and a link key outside a secured session are errors. -/
def Sys2Proof.Claims.MessagesAreTurnedAway : Prop :=
  ∀ (s : State) (r : Transport) (slot off len : Nat) (certs : List (List Byte)) (image sig : List Byte) (eid : BitVec 8)
    (nonce exchange verify key : List Byte) (indices : List Nat) (a b c d : Bool),
    let m := s.mss
    let x := m.spdm
    s.serves r = true →
    (r ≠ .doe →
      (let good := m.spdm.session = true ∧ m.spdm.final = true ∧ certs ≠ [] ∧ certs.length ≤ 8;
        (¬ good → (Instr.setRoots r true certs).wf = true → replies (.setRoots r true certs) s r [0x12] fun t => t.mss.roots = m.roots)
        ∧ ((Instr.setRoots r false certs).wf = true → replies (.setRoots r false certs) s r [0x12] fun t => t.mss.roots = m.roots))
      ∧ ((Instr.pldmFirmwareUpdate r image sig false).wf = true → m.update = false → s.host.state ≠ 7 →
        imageGood image sig m.fuseSvn = false →
        ∃ t, exec (.pldmFirmwareUpdate r image sig false) s = .next t ∧ serviceKept s t ∧ t.mss.fuseSvn = m.fuseSvn
          ∧ t.host.state = s.host.state ∧ t.mss.image = m.image)
      ∧ ((Instr.endpointIdAssignment r eid).wf = true → eid = 0 ∨ eid = 0xFF → repliesOnly (.endpointIdAssignment r eid) s r))
    ∧ (x.version = false → (Instr.negotiateAlgorithms r a b c d).wf = true → repliesOnly (.negotiateAlgorithms r a b c d) s r)
    ∧ (x.version = true → ¬ (a = true ∧ b = true ∧ c = true ∧ d = true) → (Instr.negotiateAlgorithms r a b c d).wf = true →
      ∃ t e, exec (.negotiateAlgorithms r a b c d) s = .next t ∧ serviceKept s t ∧ answered s t r e ∧ t.mss.spdm.version = false
        ∧ t.mss.spdm.algo = false)
    ∧ (x.algo = false →
      ∀ i ∈ ([.getDigests r, .getCertificate r slot off len, .challenge r slot nonce, .getMeasurements r indices,
        .keyExchange r exchange nonce, .finish r verify, .endSession r] : List Instr), i.wf = true → repliesOnly i s r)
    ∧ ((Instr.finish r verify).wf = true → x.algo = true → x.session = true → x.final = false →
      verify ≠ Config.finishMac x.key x.transcript →
      ∃ t e, exec (.finish r verify) s = .next t ∧ serviceKept s t ∧ answered s t r e ∧ t.mss.spdm.session = false ∧ t.mss.spdm.key = [])
    ∧ ((Instr.ideKeyManagement r false key).wf = true →
      ∃ t e, exec (.ideKeyManagement r false key) s = .next t ∧ serviceKept s t ∧ answered s t r e ∧ t.host.keys = s.host.keys)

/-! ### The package (18) -/

/-- The part is in package reset: every unit at its reset value, but the flash and fuses of the MSS and the spare maps. -/
def Sys2Proof.Claims.inPackageReset (s t : State) : Prop :=
  t.cores = [] ∧ t.hubs = [] ∧ t.hbm.mem = [] ∧ t.hbm.pois = [] ∧ t.jobs = [] ∧ t.queues = [] ∧ t.ports = [] ∧ t.plane = []
    ∧ t.clk = State.reset.clk ∧ t.fab = State.reset.fab ∧ t.host = State.reset.host ∧ t.cfg = State.reset.cfg
    ∧ t.fl = { State.reset.fl with spare := s.fl.spare } ∧ t.mss.up = false ∧ t.mss.alert = 0 ∧ t.mss.spdm.session = false
    ∧ t.mss.ledger = s.mss.ledger ∧ t.mss.roots = s.mss.roots ∧ t.mss.chain = s.mss.chain ∧ t.mss.image = s.mss.image
    ∧ t.mss.fuseSvn = s.mss.fuseSvn ∧ t.mss.fuseRods = s.mss.fuseRods ∧ t.mss.remapCores = s.mss.remapCores ∧ t.mss.remapRods = s.mss.remapRods
    ∧ t.pins.latched = false ∧ t.pending = s.pending

/-- A low PWROK or PERST_N, or a brown-out, resets the package; BOOT latches the straps, takes the role of MASTER_SEL, starts the count and
trains the ports, but on a standalone device, and without its reference clock goes to RECOVERY; a firmware image that R523 accepts makes the
device READY with cleared cores and running hubs. THERMTRIP gates the clocks and closes the ports. EXTEST drives boundary cells; while
PERST_N is
high what else it does is unpredictable. -/
def Obligations.ThePackageResetsAndBoots : Prop :=
  ∀ (s : State) (p : PinLevels) (rail : WatchedRail) (ref : Bool) (xlat : List (Nat × Nat)) (image sig : List Byte) (micros n : Nat)
    (levels : List (Nat × Bool)),
    ((Instr.packageReset p).wf = true → (p.pwrok = false ∨ p.perstN = false) → (s.pins.trip = false ∨ p.pwrok = false) →
      ∃ t, exec (.packageReset p) s = .next t ∧ inPackageReset s t ∧ t.pins.pwrok = p.pwrok ∧ t.pins.perstN = p.perstN
        ∧ t.pins.trip = false)
    ∧ ((Instr.brownOut rail).wf = true →
      ∃ t, exec (.brownOut rail) s = .next t ∧ inPackageReset s t ∧ t.pins.pwrok = s.pins.pwrok ∧ t.pins.perstN = s.pins.perstN
        ∧ t.pins.trip = (s.pins.trip && s.pins.pwrok))
    ∧ ((Instr.boot p ref xlat).wf = true → s.host.state = 1 → s.pins.latched = false → s.pins.trip = false → p.pwrok = true →
      p.perstN = true →
      ∃ t, exec (.boot p ref xlat) s = .next t ∧ t.pins.latched = true ∧ t.pins.straps.toNat = p.masterSel.toNat + 4 * p.bootMode.toNat
        ∧ t.clk.run = true ∧ t.clk.tbt = s.clk.tbt ∧ t.fab.role = p.masterSel.toNat ∧ t.clk.master = decide (p.masterSel = 1)
        ∧ (t.fab.idValid = true ↔ p.masterSel = 1 ∨ p.masterSel = 3) ∧ t.fab.epoch = (if p.masterSel = 1 then 1 else 0)
        ∧ (p.masterSel ≠ 3 → ∀ q, q < 16 → (t.port q).state = 1) ∧ (p.masterSel = 3 → t.ports = s.ports)
        ∧ t.host = { s.host with state := if ref then 1 else 7 } ∧ t.cores = s.cores ∧ t.hbm = s.hbm ∧ t.jobs = s.jobs ∧ t.cfg = s.cfg)
    ∧ (let x := s.mss.flashImage image sig
      (Instr.bootImageVerified image sig micros).wf = true → s.host.state = 1 → s.pins.latched = true → micros ≤ 1000000 →
      (s.mss.image = [] → x = (image, sig))
      ∧ (s.pins.straps.toNat / 4 % 4 ≠ 1 → imageGood x.1 x.2 s.mss.fuseSvn = true →
        ∃ t, exec (.bootImageVerified image sig micros) s = .next t ∧ t.mss.up = true ∧ t.host.fwrun = true
          ∧ t.host.fwVer = BitVec.ofNat 32 (leAt x.1 4 4) ∧ t.mss.fuseSvn = max s.mss.fuseSvn (leAt x.1 8 4)
          ∧ t.mss.image = x.1 ++ x.2 ∧ (∀ k, k < 128 → (t.core k).mem = [] ∧ (t.core k).regs = ⟨[], [], [], [], []⟩)
          ∧ (∀ h, h < 4 → (t.hub h).init = false ∧ (t.hub h).calRun = true ∧ (t.hub h).stackUp = 7)
          ∧ t.hbm = s.hbm ∧ t.clk.tbt = s.clk.tbt
          ∧ (s.planeBad = false → s.rowShort = false → t.host.state = 2)))
    ∧ ((Instr.thermtrip n).wf = true → s.pins.trip = false →
      ∃ t, exec (.thermtrip n) s = .next t ∧ t.pins.trip = true ∧ (∀ q, q < 16 → (t.port q).state = 0)
        ∧ (∀ h, h < 4 → (t.hub h).calRun = false) ∧ (∀ i, 144 ≤ i → i < 161 → (t.island i).clocked = false) ∧ t.host.width = 0
        ∧ t.cores = s.cores ∧ t.hbm.mem = s.hbm.mem ∧ t.jobs = s.jobs)
    ∧ ((Instr.jtagExtest levels).wf = true →
      (s.pins.perstN = false → yields (.jtagExtest levels) s { s with pins := { s.pins with scan := levels } })
      ∧ (s.pins.perstN = true → ∃ t, exec (.jtagExtest levels) s = .next t ∧ t.pins = { s.pins with scan := levels }
        ∧ t.clk.tbt = s.clk.tbt ∧ t.pending = s.pending))

/-- The package reset does nothing while both pins are high, nor by PERST_N alone while THERMTRIP_N is asserted; a firmware image that
R523 does not
accept, and the strap that forces it, send the device to RECOVERY; a crossing of PL or of a hub that fails calibration, or a row short
of cores,
leaves it FAULTED with its cause at the end of BOOT. -/
def Sys2Proof.Claims.BootEndsElsewhereThanReady : Prop :=
  ∀ (s : State) (p : PinLevels) (image sig : List Byte) (micros : Nat),
    ((Instr.packageReset p).wf = true → p.pwrok = true → p.perstN = true ∨ s.pins.trip = true → yields (.packageReset p) s s)
    ∧ (let x := s.mss.flashImage image sig
      let i := Instr.bootImageVerified image sig micros
      i.wf = true → s.host.state = 1 → s.pins.latched = true → micros ≤ 1000000 →
      (s.pins.straps.toNat / 4 % 4 = 1 ∨ imageGood x.1 x.2 s.mss.fuseSvn = false →
        yields i s { s with host := { s.host with state := 7 } })
      ∧ (s.pins.straps.toNat / 4 % 4 ≠ 1 → imageGood x.1 x.2 s.mss.fuseSvn = true →
        (s.planeBad = true → ∃ t, exec i s = .next t ∧ t.host.state = 5 ∧ t.host.fcause = 1)
        ∧ (s.planeBad = false → s.rowShort = true → ∃ t, exec i s = .next t ∧ t.host.state = 5 ∧ t.host.fcause = 4)))

/-- Events that are not due, writes that registers ignore, messages that the MSS turns away, and ends of BOOT other than READY. -/
def Obligations.WhatIsIgnoredOrTurnedAway : Prop :=
  WhatIsNotDueChangesNothing ∧ WritesThatTheRegistersIgnore ∧ MessagesAreTurnedAway ∧ BootEndsElsewhereThanReady

/-- Right after a package reset registers hold the values that the spec gives: RINGr_DEFER 100 ms, WD_LIMIT 50,000 µs, BAR2_SEL 0,
RS_AUTO 0,
MG_PCAP 0, NX_CFG 0x1080, TBT 0; the device is in BOOT, every job EMPTY, every port DOWN with its credits, no ring enabled,
memory cleared and nothing logged. -/
def Obligations.ResetLeavesTheStatedValues : Prop :=
  (∀ k, State.reset.cfg.deferOf k = 100) ∧ State.reset.cfg.wdLimit = 50000 ∧ State.reset.cfg.bar2Sel = 0
    ∧ State.reset.cfg.rsAuto = false ∧ State.reset.cfg.pcap = 0 ∧ State.reset.host.state = 1 ∧ State.reset.clk.tbt = 0
    ∧ (∀ k, (State.reset.job k).state = 0)
    ∧ (∀ p, (State.reset.port p).state = 0 ∧ (State.reset.port p).cfg = 0x1080 ∧ (State.reset.port p).credit = [32, 64, 64, 8])
    ∧ (∀ r, (State.reset.ring r).en = false) ∧ (∀ a, tget 0 State.reset.hbm.mem a = 0) ∧ (∀ i, tget none State.reset.fl.log i = none)
    ∧ (∀ h, (State.reset.hub h).init = true) ∧ State.reset.fl.rsBusy = 0 ∧ State.reset.mss.up = false ∧ State.reset.pending = []

/-! ### Invariants -/

/-- Every register that the device stores clamped, or in a narrower field, holds a value of its range (14 R434, 16 R488, 17 R511). -/
def Sys2Proof.Claims.inRange (c : Cfg) : Prop :=
  (c.wdLimit = 0 ∨ 10 ≤ c.wdLimit ∧ c.wdLimit ≤ 4000000) ∧ (∀ r, 1 ≤ c.deferOf r ∧ c.deferOf r ≤ 60000) ∧ c.bar2Sel < 64
    ∧ c.pcap ≤ 24 ∧ c.mbLen < 8192

/-- No step leaves a register of the host's configuration outside its range. -/
def Obligations.RegistersStayInTheirRange : Prop :=
  ∀ s t : State, inRange s.cfg → step s = .next t → inRange t.cfg

/-- HBM is held in its canonical form: addresses strictly rising, and no byte listed that is 0, no mark that is not set. -/
def Sys2Proof.Claims.memoryCanonical (s : State) : Prop := twf 0 s.hbm.mem = true ∧ twf false s.hbm.pois = true

/-- Every step keeps HBM in its canonical form, so that equal contents are equal data. -/
def Obligations.MemoryStaysCanonical : Prop :=
  ∀ s t : State, memoryCanonical s → step s = .next t → memoryCanonical t

/-- The tables that boundaries and clock changes walk are in their canonical form: memory calendars, islands, ports and their fabric
calendars. -/
def Sys2Proof.Claims.tablesCanonical (s : State) : Prop :=
  twf CalEntry.elastic s.hbm.cal = true ∧ twf Island.off s.clk.isl = true ∧ twf Port.reset s.ports = true
    ∧ ∀ p, twf FCal.free (s.port p).cal = true

/-- Commands in the queues and in execution have different identities, below the next one to be given. -/
def Sys2Proof.Claims.identitiesUnique (s : State) : Prop :=
  let l := (s.host.exec ++ s.host.elastic ++ s.host.bulk ++ s.host.stalled).map (·.id)
  l.Nodup ∧ ∀ i ∈ l, i < s.nextId

/-- Every step keeps the calendars, islands and ports in their canonical form, and the identities of commands unique. -/
def Obligations.TablesAndIdentitiesAreKept : Prop :=
  ∀ s t : State, step s = .next t →
    (tablesCanonical s → tablesCanonical t) ∧ (identitiesUnique s → identitiesUnique t)

/-- A command that names units of the part, and encodings that the loader admits, acts; any other is refused: no command ends in a fault. -/
def Obligations.WellFormedCommandsAct : Prop :=
  ∀ (i : Instr) (s : State),
    (i.wf = true → ∃ t, exec i s = .next t) ∧ (i.wf = false → ∃ r, exec i s = .refused r)

/-- No command moves the timebase but the step that a time control plans and the resets of the package: between them it only counts. -/
def Obligations.TheTimebaseMovesByStepsAlone : Prop :=
  ∀ (i : Instr) (s t : State), exec i s = .next t →
    t.clk.tbt = s.clk.tbt ∨ i = .timebaseStep ∨ (∃ p, i = .packageReset p) ∨ ∃ r, i = .brownOut r

/-- A device that has its ID keeps it until the package resets. -/
def Obligations.ADeviceKeepsItsIdentity : Prop :=
  ∀ (i : Instr) (s t : State), s.fab.idValid = true → exec i s = .next t →
    t.fab.devId = s.fab.devId ∨ (∃ p, i = .packageReset p) ∨ ∃ r, i = .brownOut r

/-- The invariants hold right after a package reset. -/
def Obligations.InvariantsHoldAtReset : Prop :=
  inRange State.reset.cfg ∧ memoryCanonical State.reset ∧ tablesCanonical State.reset ∧ identitiesUnique State.reset
end

