-- ==== Sys2Proof/Laws/Table.lean ====
section
/-!
SUPPORT. The laws of sparse tables: what a table reads after an update, and that every update keeps the canonical form.
-/

namespace Sys2Proof.Machine

variable {β : Type}

/-! ### Reading after an update -/

@[simp] theorem tget_nil (d : β) (k : Nat) : tget d [] k = d := rfl

theorem tget_terase_self (d : β) (m : SMap β) (k : Nat) : tget d (terase k m) k = d := by
  induction m with
  | nil => rfl
  | cons x t ih => by_cases h : k = x.1 <;> simp [terase, tget, h] at * <;> exact ih

theorem tget_terase_ne (d : β) (m : SMap β) {j k : Nat} (h : j ≠ k) : tget d (terase k m) j = tget d m j := by
  induction m with
  | nil => rfl
  | cons x t ih =>
    by_cases h1 : k = x.1
    · have h2 : j ≠ x.1 := h1 ▸ h
      simp [terase, tget, ← h1, h, ih]
    · by_cases h2 : j = x.1 <;> simp [terase, tget, h1, h2, ih]

theorem tget_tinsert_self (d : β) (m : SMap β) (k : Nat) (v : β) (h0 : ∀ x ∈ m, x.1 ≠ k) :
    tget d (tinsert k v m) k = v := by
  induction m with
  | nil => simp [tinsert, tget]
  | cons x t ih =>
    have hx : ¬ k = x.1 := fun e => h0 x (by simp) e.symm
    have ht := ih fun y hy => h0 y (by simp [hy])
    by_cases h1 : k < x.1 <;> simp [tinsert, tget, h1, hx, ht]

theorem tget_tinsert_ne (d : β) (m : SMap β) {j k : Nat} (v : β) (h : j ≠ k) :
    tget d (tinsert k v m) j = tget d m j := by
  induction m with
  | nil => simp [tinsert, tget, h]
  | cons x t ih =>
    by_cases h1 : k < x.1
    · simp [tinsert, h1, tget, h]
    · by_cases h2 : j = x.1 <;> simp [tinsert, tget, h1, h2, ih]

theorem terase_keys (m : SMap β) (k : Nat) : ∀ x ∈ terase k m, x.1 ≠ k := by
  induction m with
  | nil => simp [terase]
  | cons y t ih =>
    by_cases h : k = y.1
    · rw [terase, if_pos h]; exact ih
    · intro x hx
      rw [terase, if_neg h, List.mem_cons] at hx
      rcases hx with rfl | hx
      · exact fun e => h e.symm
      · exact ih x hx

@[simp] theorem tget_tput_self [DecidableEq β] (d : β) (m : SMap β) (k : Nat) (v : β) :
    tget d (tput d m k v) k = v := by
  unfold tput
  split
  · next h => rw [tget_terase_self, h]
  · exact tget_tinsert_self d _ k v (terase_keys m k)

theorem tget_tput_ne [DecidableEq β] (d : β) (m : SMap β) {j k : Nat} (v : β) (h : j ≠ k) :
    tget d (tput d m k v) j = tget d m j := by
  unfold tput
  split
  · exact tget_terase_ne d m h
  · rw [tget_tinsert_ne d _ v h, tget_terase_ne d m h]

theorem tget_tput [DecidableEq β] (d : β) (m : SMap β) (j k : Nat) (v : β) :
    tget d (tput d m k v) j = if j = k then v else tget d m j := by
  by_cases h : j = k
  · subst h; simp
  · simp [h, tget_tput_ne d m v h]

/-! ### The canonical form -/

theorem trising_le {lo lo' : Nat} (m : SMap β) (h : trising lo' m = true) (hl : lo ≤ lo') : trising lo m = true := by
  cases m with
  | nil => rfl
  | cons x t => simp [trising] at *; exact ⟨by omega, h.2⟩

theorem trising_terase (lo k : Nat) (m : SMap β) (h : trising lo m = true) : trising lo (terase k m) = true := by
  induction m generalizing lo with
  | nil => rfl
  | cons x t ih =>
    simp [trising] at h
    by_cases h1 : k = x.1
    · simp [terase, h1]
      exact trising_le _ (h1 ▸ ih _ h.2) (by omega)
    · simp [terase, h1, trising]
      exact ⟨h.1, ih _ h.2⟩

theorem trising_tinsert (lo k : Nat) (v : β) (m : SMap β) (h : trising lo m = true) (hk : lo ≤ k)
    (h0 : ∀ x ∈ m, x.1 ≠ k) : trising lo (tinsert k v m) = true := by
  induction m generalizing lo with
  | nil => simp [tinsert, trising, hk]
  | cons x t ih =>
    simp [trising] at h
    have hx := h0 x (by simp)
    by_cases h1 : k < x.1
    · simp [tinsert, h1, trising, hk, h.2]
    · simp [tinsert, h1, trising, h.1]
      exact ih _ h.2 (by omega) fun y hy => h0 y (by simp [hy])

theorem tnodefault_terase [DecidableEq β] (d : β) (k : Nat) (m : SMap β) (h : tnodefault d m = true) :
    tnodefault d (terase k m) = true := by
  induction m with
  | nil => rfl
  | cons x t ih =>
    simp [tnodefault] at h
    by_cases h1 : k = x.1
    · simp [terase, h1]; exact h1 ▸ ih h.2
    · simp [terase, h1, tnodefault, h.1, ih h.2]

theorem tnodefault_tinsert [DecidableEq β] (d : β) (k : Nat) (v : β) (m : SMap β) (hv : v ≠ d)
    (h : tnodefault d m = true) : tnodefault d (tinsert k v m) = true := by
  induction m with
  | nil => simp [tinsert, tnodefault, hv]
  | cons x t ih =>
    simp [tnodefault] at h
    by_cases h1 : k < x.1
    · simp [tinsert, h1, tnodefault, hv, h]
    · simp [tinsert, h1, tnodefault, h.1, ih h.2]

/-- Every update of a table keeps its canonical form. -/
theorem twf_tput [DecidableEq β] (d : β) (m : SMap β) (k : Nat) (v : β) (h : twf d m = true) :
    twf d (tput d m k v) = true := by
  simp [twf] at *
  unfold tput
  split
  · exact ⟨trising_terase 0 k m h.1, tnodefault_terase d k m h.2⟩
  · next hv =>
    exact ⟨trising_tinsert 0 k v _ (trising_terase 0 k m h.1) (Nat.zero_le _) (terase_keys m k),
      tnodefault_tinsert d k v _ hv (tnodefault_terase d k m h.2)⟩

theorem twf_terase [DecidableEq β] (d : β) (m : SMap β) (k : Nat) (h : twf d m = true) : twf d (terase k m) = true := by
  simp [twf] at *
  exact ⟨trising_terase 0 k m h.1, tnodefault_terase d k m h.2⟩

theorem twf_tmod [DecidableEq β] (d : β) (m : SMap β) (k : Nat) (f : β → β) (h : twf d m = true) :
    twf d (tmod d m k f) = true := twf_tput d m k _ h

theorem trising_tdrop (lo : Nat) (p : Nat → Bool) (m : SMap β) (h : trising lo m = true) :
    trising lo (tdrop p m) = true := by
  induction m generalizing lo with
  | nil => rfl
  | cons x t ih =>
    simp [trising] at h
    by_cases h1 : p x.1
    · simp [tdrop, h1]; exact trising_le _ (ih _ h.2) (by omega)
    · simp [tdrop, h1, trising, h.1, ih _ h.2]


theorem tnodefault_tdrop [DecidableEq β] (d : β) (p : Nat → Bool) (m : SMap β) (h : tnodefault d m = true) :
    tnodefault d (tdrop p m) = true := by
  induction m with
  | nil => rfl
  | cons x t ih =>
    simp [tnodefault] at h
    by_cases h1 : p x.1 <;> simp [tdrop, h1, tnodefault, h.1, ih h.2]

theorem twf_tdrop [DecidableEq β] (d : β) (p : Nat → Bool) (m : SMap β) (h : twf d m = true) :
    twf d (tdrop p m) = true := by
  simp [twf] at *
  exact ⟨trising_tdrop 0 p m h.1, tnodefault_tdrop d p m h.2⟩

/-! ### Bytes -/

theorem twf_writeBytes (m : SMap Byte) (a : Nat) (d : List Byte) (h : twf 0 m = true) :
    twf 0 (writeBytes m a d) = true := by
  induction d generalizing m a with
  | nil => exact h
  | cons b t ih => exact ih _ _ (twf_tput 0 m a b h)

theorem twf_setMarks (m : SMap Bool) (a : Nat) (v : Bool) (n : Nat) (h : twf false m = true) :
    twf false (setMarks m a v n) = true := by
  induction n generalizing m a with
  | zero => exact h
  | succ n ih => exact ih _ _ (twf_tput false m a v h)

/-- A write of bytes leaves every other address as it was. -/
theorem tget_writeBytes_out (m : SMap Byte) (a : Nat) (d : List Byte) (x : Nat) (h : x < a ∨ a + d.length ≤ x) :
    tget 0 (writeBytes m a d) x = tget 0 m x := by
  induction d generalizing m a with
  | nil => rfl
  | cons b t ih =>
    simp only [List.length_cons] at h
    rw [writeBytes, ih _ _ (by omega), tget_tput_ne 0 m b (by omega)]

/-- Each address of a write reads the byte written there. -/
theorem tget_writeBytes_in (m : SMap Byte) (a : Nat) (d : List Byte) (i : Nat) (h : i < d.length) :
    tget 0 (writeBytes m a d) (a + i) = d[i] := by
  induction d generalizing m a i with
  | nil => simp at h
  | cons b t ih =>
    cases i with
    | zero => rw [writeBytes, tget_writeBytes_out _ _ _ _ (by omega)]; simp
    | succ i =>
      rw [writeBytes, show a + (i + 1) = a + 1 + i by omega, ih _ _ i (by simpa using h)]
      simp

theorem readBytes_length (m : SMap Byte) (a n : Nat) : (readBytes m a n).length = n := by
  induction n generalizing a with
  | zero => rfl
  | succ n ih => simp [readBytes, ih]

/-- Bytes read where they were just written are the bytes written. -/
theorem readBytes_writeBytes (m : SMap Byte) (a : Nat) (d : List Byte) :
    readBytes (writeBytes m a d) a d.length = d := by
  suffices h : ∀ (m' : SMap Byte) (a n : Nat) (d : List Byte), n = d.length →
      (∀ i (h : i < d.length), tget 0 m' (a + i) = d[i]) → readBytes m' a n = d from
    h _ a _ d rfl fun i hi => tget_writeBytes_in m a d i hi
  intro m' a n d hn h
  induction d generalizing a n with
  | nil => subst hn; rfl
  | cons b t ih =>
    subst hn
    have h0 := h 0 (by simp)
    simp at h0
    refine List.cons_eq_cons.2 ⟨h0, ih (a + 1) t.length rfl fun i hi => ?_⟩
    have := h (i + 1) (by simpa using hi)
    simpa [Nat.add_assoc, Nat.add_comm 1 i] using this

end Sys2Proof.Machine
end

