-- ==== Sys2Proof/Laws/State.lean ====
section
/-!
SUPPORT. What each update of the whole state leaves as it was, field by field, and what the accessors read after it.
-/

namespace Sys2Proof.Machine

/-! ### setCore -/

@[simp] theorem State.setCore_pending (s : State) (k : Nat) (c : Core) : (s.setCore k c).pending = s.pending := rfl
@[simp] theorem State.setCore_hubs (s : State) (k : Nat) (c : Core) : (s.setCore k c).hubs = s.hubs := rfl
@[simp] theorem State.setCore_hbm (s : State) (k : Nat) (c : Core) : (s.setCore k c).hbm = s.hbm := rfl
@[simp] theorem State.setCore_joins (s : State) (k : Nat) (c : Core) : (s.setCore k c).joins = s.joins := rfl
@[simp] theorem State.setCore_jobs (s : State) (k : Nat) (c : Core) : (s.setCore k c).jobs = s.jobs := rfl
@[simp] theorem State.setCore_queues (s : State) (k : Nat) (c : Core) : (s.setCore k c).queues = s.queues := rfl
@[simp] theorem State.setCore_recNo (s : State) (k : Nat) (c : Core) : (s.setCore k c).recNo = s.recNo := rfl
@[simp] theorem State.setCore_mcg (s : State) (k : Nat) (c : Core) : (s.setCore k c).mcg = s.mcg := rfl
@[simp] theorem State.setCore_mcgJob (s : State) (k : Nat) (c : Core) : (s.setCore k c).mcgJob = s.mcgJob := rfl
@[simp] theorem State.setCore_qgrp (s : State) (k : Nat) (c : Core) : (s.setCore k c).qgrp = s.qgrp := rfl
@[simp] theorem State.setCore_qgrpJob (s : State) (k : Nat) (c : Core) : (s.setCore k c).qgrpJob = s.qgrpJob := rfl
@[simp] theorem State.setCore_clk (s : State) (k : Nat) (c : Core) : (s.setCore k c).clk = s.clk := rfl
@[simp] theorem State.setCore_ports (s : State) (k : Nat) (c : Core) : (s.setCore k c).ports = s.ports := rfl
@[simp] theorem State.setCore_fab (s : State) (k : Nat) (c : Core) : (s.setCore k c).fab = s.fab := rfl
@[simp] theorem State.setCore_host (s : State) (k : Nat) (c : Core) : (s.setCore k c).host = s.host := rfl
@[simp] theorem State.setCore_cfg (s : State) (k : Nat) (c : Core) : (s.setCore k c).cfg = s.cfg := rfl
@[simp] theorem State.setCore_fl (s : State) (k : Nat) (c : Core) : (s.setCore k c).fl = s.fl := rfl
@[simp] theorem State.setCore_mss (s : State) (k : Nat) (c : Core) : (s.setCore k c).mss = s.mss := rfl
@[simp] theorem State.setCore_pins (s : State) (k : Nat) (c : Core) : (s.setCore k c).pins = s.pins := rfl
@[simp] theorem State.setCore_hc (s : State) (k : Nat) (c : Core) : (s.setCore k c).hc = s.hc := rfl
@[simp] theorem State.setCore_plane (s : State) (k : Nat) (c : Core) : (s.setCore k c).plane = s.plane := rfl
@[simp] theorem State.setCore_nextId (s : State) (k : Nat) (c : Core) : (s.setCore k c).nextId = s.nextId := rfl
@[simp] theorem State.setCore_freeCtr (s : State) (k : Nat) (c : Core) : (s.setCore k c).freeCtr = s.freeCtr := rfl
@[simp] theorem State.setCore_out (s : State) (k : Nat) (c : Core) : (s.setCore k c).out = s.out := rfl

/-! ### setJob -/

@[simp] theorem State.setJob_pending (s : State) (k : Nat) (x : Job) : (s.setJob k x).pending = s.pending := rfl
@[simp] theorem State.setJob_cores (s : State) (k : Nat) (x : Job) : (s.setJob k x).cores = s.cores := rfl
@[simp] theorem State.setJob_hubs (s : State) (k : Nat) (x : Job) : (s.setJob k x).hubs = s.hubs := rfl
@[simp] theorem State.setJob_hbm (s : State) (k : Nat) (x : Job) : (s.setJob k x).hbm = s.hbm := rfl
@[simp] theorem State.setJob_joins (s : State) (k : Nat) (x : Job) : (s.setJob k x).joins = s.joins := rfl
@[simp] theorem State.setJob_queues (s : State) (k : Nat) (x : Job) : (s.setJob k x).queues = s.queues := rfl
@[simp] theorem State.setJob_recNo (s : State) (k : Nat) (x : Job) : (s.setJob k x).recNo = s.recNo := rfl
@[simp] theorem State.setJob_mcg (s : State) (k : Nat) (x : Job) : (s.setJob k x).mcg = s.mcg := rfl
@[simp] theorem State.setJob_mcgJob (s : State) (k : Nat) (x : Job) : (s.setJob k x).mcgJob = s.mcgJob := rfl
@[simp] theorem State.setJob_qgrp (s : State) (k : Nat) (x : Job) : (s.setJob k x).qgrp = s.qgrp := rfl
@[simp] theorem State.setJob_qgrpJob (s : State) (k : Nat) (x : Job) : (s.setJob k x).qgrpJob = s.qgrpJob := rfl
@[simp] theorem State.setJob_clk (s : State) (k : Nat) (x : Job) : (s.setJob k x).clk = s.clk := rfl
@[simp] theorem State.setJob_ports (s : State) (k : Nat) (x : Job) : (s.setJob k x).ports = s.ports := rfl
@[simp] theorem State.setJob_fab (s : State) (k : Nat) (x : Job) : (s.setJob k x).fab = s.fab := rfl
@[simp] theorem State.setJob_host (s : State) (k : Nat) (x : Job) : (s.setJob k x).host = s.host := rfl
@[simp] theorem State.setJob_cfg (s : State) (k : Nat) (x : Job) : (s.setJob k x).cfg = s.cfg := rfl
@[simp] theorem State.setJob_fl (s : State) (k : Nat) (x : Job) : (s.setJob k x).fl = s.fl := rfl
@[simp] theorem State.setJob_mss (s : State) (k : Nat) (x : Job) : (s.setJob k x).mss = s.mss := rfl
@[simp] theorem State.setJob_pins (s : State) (k : Nat) (x : Job) : (s.setJob k x).pins = s.pins := rfl
@[simp] theorem State.setJob_hc (s : State) (k : Nat) (x : Job) : (s.setJob k x).hc = s.hc := rfl
@[simp] theorem State.setJob_plane (s : State) (k : Nat) (x : Job) : (s.setJob k x).plane = s.plane := rfl
@[simp] theorem State.setJob_nextId (s : State) (k : Nat) (x : Job) : (s.setJob k x).nextId = s.nextId := rfl
@[simp] theorem State.setJob_freeCtr (s : State) (k : Nat) (x : Job) : (s.setJob k x).freeCtr = s.freeCtr := rfl
@[simp] theorem State.setJob_out (s : State) (k : Nat) (x : Job) : (s.setJob k x).out = s.out := rfl

/-! ### setPort -/

@[simp] theorem State.setPort_pending (s : State) (k : Nat) (x : Port) : (s.setPort k x).pending = s.pending := rfl
@[simp] theorem State.setPort_cores (s : State) (k : Nat) (x : Port) : (s.setPort k x).cores = s.cores := rfl
@[simp] theorem State.setPort_hubs (s : State) (k : Nat) (x : Port) : (s.setPort k x).hubs = s.hubs := rfl
@[simp] theorem State.setPort_hbm (s : State) (k : Nat) (x : Port) : (s.setPort k x).hbm = s.hbm := rfl
@[simp] theorem State.setPort_joins (s : State) (k : Nat) (x : Port) : (s.setPort k x).joins = s.joins := rfl
@[simp] theorem State.setPort_jobs (s : State) (k : Nat) (x : Port) : (s.setPort k x).jobs = s.jobs := rfl
@[simp] theorem State.setPort_queues (s : State) (k : Nat) (x : Port) : (s.setPort k x).queues = s.queues := rfl
@[simp] theorem State.setPort_recNo (s : State) (k : Nat) (x : Port) : (s.setPort k x).recNo = s.recNo := rfl
@[simp] theorem State.setPort_mcg (s : State) (k : Nat) (x : Port) : (s.setPort k x).mcg = s.mcg := rfl
@[simp] theorem State.setPort_mcgJob (s : State) (k : Nat) (x : Port) : (s.setPort k x).mcgJob = s.mcgJob := rfl
@[simp] theorem State.setPort_qgrp (s : State) (k : Nat) (x : Port) : (s.setPort k x).qgrp = s.qgrp := rfl
@[simp] theorem State.setPort_qgrpJob (s : State) (k : Nat) (x : Port) : (s.setPort k x).qgrpJob = s.qgrpJob := rfl
@[simp] theorem State.setPort_clk (s : State) (k : Nat) (x : Port) : (s.setPort k x).clk = s.clk := rfl
@[simp] theorem State.setPort_fab (s : State) (k : Nat) (x : Port) : (s.setPort k x).fab = s.fab := rfl
@[simp] theorem State.setPort_host (s : State) (k : Nat) (x : Port) : (s.setPort k x).host = s.host := rfl
@[simp] theorem State.setPort_cfg (s : State) (k : Nat) (x : Port) : (s.setPort k x).cfg = s.cfg := rfl
@[simp] theorem State.setPort_fl (s : State) (k : Nat) (x : Port) : (s.setPort k x).fl = s.fl := rfl
@[simp] theorem State.setPort_mss (s : State) (k : Nat) (x : Port) : (s.setPort k x).mss = s.mss := rfl
@[simp] theorem State.setPort_pins (s : State) (k : Nat) (x : Port) : (s.setPort k x).pins = s.pins := rfl
@[simp] theorem State.setPort_hc (s : State) (k : Nat) (x : Port) : (s.setPort k x).hc = s.hc := rfl
@[simp] theorem State.setPort_plane (s : State) (k : Nat) (x : Port) : (s.setPort k x).plane = s.plane := rfl
@[simp] theorem State.setPort_nextId (s : State) (k : Nat) (x : Port) : (s.setPort k x).nextId = s.nextId := rfl
@[simp] theorem State.setPort_freeCtr (s : State) (k : Nat) (x : Port) : (s.setPort k x).freeCtr = s.freeCtr := rfl
@[simp] theorem State.setPort_out (s : State) (k : Nat) (x : Port) : (s.setPort k x).out = s.out := rfl

/-! ### setHub -/

@[simp] theorem State.setHub_pending (s : State) (k : Nat) (x : Hub) : (s.setHub k x).pending = s.pending := rfl
@[simp] theorem State.setHub_cores (s : State) (k : Nat) (x : Hub) : (s.setHub k x).cores = s.cores := rfl
@[simp] theorem State.setHub_hbm (s : State) (k : Nat) (x : Hub) : (s.setHub k x).hbm = s.hbm := rfl
@[simp] theorem State.setHub_joins (s : State) (k : Nat) (x : Hub) : (s.setHub k x).joins = s.joins := rfl
@[simp] theorem State.setHub_jobs (s : State) (k : Nat) (x : Hub) : (s.setHub k x).jobs = s.jobs := rfl
@[simp] theorem State.setHub_queues (s : State) (k : Nat) (x : Hub) : (s.setHub k x).queues = s.queues := rfl
@[simp] theorem State.setHub_recNo (s : State) (k : Nat) (x : Hub) : (s.setHub k x).recNo = s.recNo := rfl
@[simp] theorem State.setHub_mcg (s : State) (k : Nat) (x : Hub) : (s.setHub k x).mcg = s.mcg := rfl
@[simp] theorem State.setHub_mcgJob (s : State) (k : Nat) (x : Hub) : (s.setHub k x).mcgJob = s.mcgJob := rfl
@[simp] theorem State.setHub_qgrp (s : State) (k : Nat) (x : Hub) : (s.setHub k x).qgrp = s.qgrp := rfl
@[simp] theorem State.setHub_qgrpJob (s : State) (k : Nat) (x : Hub) : (s.setHub k x).qgrpJob = s.qgrpJob := rfl
@[simp] theorem State.setHub_clk (s : State) (k : Nat) (x : Hub) : (s.setHub k x).clk = s.clk := rfl
@[simp] theorem State.setHub_ports (s : State) (k : Nat) (x : Hub) : (s.setHub k x).ports = s.ports := rfl
@[simp] theorem State.setHub_fab (s : State) (k : Nat) (x : Hub) : (s.setHub k x).fab = s.fab := rfl
@[simp] theorem State.setHub_host (s : State) (k : Nat) (x : Hub) : (s.setHub k x).host = s.host := rfl
@[simp] theorem State.setHub_cfg (s : State) (k : Nat) (x : Hub) : (s.setHub k x).cfg = s.cfg := rfl
@[simp] theorem State.setHub_fl (s : State) (k : Nat) (x : Hub) : (s.setHub k x).fl = s.fl := rfl
@[simp] theorem State.setHub_mss (s : State) (k : Nat) (x : Hub) : (s.setHub k x).mss = s.mss := rfl
@[simp] theorem State.setHub_pins (s : State) (k : Nat) (x : Hub) : (s.setHub k x).pins = s.pins := rfl
@[simp] theorem State.setHub_hc (s : State) (k : Nat) (x : Hub) : (s.setHub k x).hc = s.hc := rfl
@[simp] theorem State.setHub_plane (s : State) (k : Nat) (x : Hub) : (s.setHub k x).plane = s.plane := rfl
@[simp] theorem State.setHub_nextId (s : State) (k : Nat) (x : Hub) : (s.setHub k x).nextId = s.nextId := rfl
@[simp] theorem State.setHub_freeCtr (s : State) (k : Nat) (x : Hub) : (s.setHub k x).freeCtr = s.freeCtr := rfl
@[simp] theorem State.setHub_out (s : State) (k : Nat) (x : Hub) : (s.setHub k x).out = s.out := rfl

/-! ### setQueue -/

@[simp] theorem State.setQueue_pending (s : State) (k : Nat) (x : Queue) : (s.setQueue k x).pending = s.pending := rfl
@[simp] theorem State.setQueue_cores (s : State) (k : Nat) (x : Queue) : (s.setQueue k x).cores = s.cores := rfl
@[simp] theorem State.setQueue_hubs (s : State) (k : Nat) (x : Queue) : (s.setQueue k x).hubs = s.hubs := rfl
@[simp] theorem State.setQueue_hbm (s : State) (k : Nat) (x : Queue) : (s.setQueue k x).hbm = s.hbm := rfl
@[simp] theorem State.setQueue_joins (s : State) (k : Nat) (x : Queue) : (s.setQueue k x).joins = s.joins := rfl
@[simp] theorem State.setQueue_jobs (s : State) (k : Nat) (x : Queue) : (s.setQueue k x).jobs = s.jobs := rfl
@[simp] theorem State.setQueue_recNo (s : State) (k : Nat) (x : Queue) : (s.setQueue k x).recNo = s.recNo := rfl
@[simp] theorem State.setQueue_mcg (s : State) (k : Nat) (x : Queue) : (s.setQueue k x).mcg = s.mcg := rfl
@[simp] theorem State.setQueue_mcgJob (s : State) (k : Nat) (x : Queue) : (s.setQueue k x).mcgJob = s.mcgJob := rfl
@[simp] theorem State.setQueue_qgrp (s : State) (k : Nat) (x : Queue) : (s.setQueue k x).qgrp = s.qgrp := rfl
@[simp] theorem State.setQueue_qgrpJob (s : State) (k : Nat) (x : Queue) : (s.setQueue k x).qgrpJob = s.qgrpJob := rfl
@[simp] theorem State.setQueue_clk (s : State) (k : Nat) (x : Queue) : (s.setQueue k x).clk = s.clk := rfl
@[simp] theorem State.setQueue_ports (s : State) (k : Nat) (x : Queue) : (s.setQueue k x).ports = s.ports := rfl
@[simp] theorem State.setQueue_fab (s : State) (k : Nat) (x : Queue) : (s.setQueue k x).fab = s.fab := rfl
@[simp] theorem State.setQueue_host (s : State) (k : Nat) (x : Queue) : (s.setQueue k x).host = s.host := rfl
@[simp] theorem State.setQueue_cfg (s : State) (k : Nat) (x : Queue) : (s.setQueue k x).cfg = s.cfg := rfl
@[simp] theorem State.setQueue_fl (s : State) (k : Nat) (x : Queue) : (s.setQueue k x).fl = s.fl := rfl
@[simp] theorem State.setQueue_mss (s : State) (k : Nat) (x : Queue) : (s.setQueue k x).mss = s.mss := rfl
@[simp] theorem State.setQueue_pins (s : State) (k : Nat) (x : Queue) : (s.setQueue k x).pins = s.pins := rfl
@[simp] theorem State.setQueue_hc (s : State) (k : Nat) (x : Queue) : (s.setQueue k x).hc = s.hc := rfl
@[simp] theorem State.setQueue_plane (s : State) (k : Nat) (x : Queue) : (s.setQueue k x).plane = s.plane := rfl
@[simp] theorem State.setQueue_nextId (s : State) (k : Nat) (x : Queue) : (s.setQueue k x).nextId = s.nextId := rfl
@[simp] theorem State.setQueue_freeCtr (s : State) (k : Nat) (x : Queue) : (s.setQueue k x).freeCtr = s.freeCtr := rfl
@[simp] theorem State.setQueue_out (s : State) (k : Nat) (x : Queue) : (s.setQueue k x).out = s.out := rfl

/-! ### setIsland -/

@[simp] theorem State.setIsland_pending (s : State) (k : Nat) (x : Island) : (s.setIsland k x).pending = s.pending := rfl
@[simp] theorem State.setIsland_cores (s : State) (k : Nat) (x : Island) : (s.setIsland k x).cores = s.cores := rfl
@[simp] theorem State.setIsland_hubs (s : State) (k : Nat) (x : Island) : (s.setIsland k x).hubs = s.hubs := rfl
@[simp] theorem State.setIsland_hbm (s : State) (k : Nat) (x : Island) : (s.setIsland k x).hbm = s.hbm := rfl
@[simp] theorem State.setIsland_joins (s : State) (k : Nat) (x : Island) : (s.setIsland k x).joins = s.joins := rfl
@[simp] theorem State.setIsland_jobs (s : State) (k : Nat) (x : Island) : (s.setIsland k x).jobs = s.jobs := rfl
@[simp] theorem State.setIsland_queues (s : State) (k : Nat) (x : Island) : (s.setIsland k x).queues = s.queues := rfl
@[simp] theorem State.setIsland_recNo (s : State) (k : Nat) (x : Island) : (s.setIsland k x).recNo = s.recNo := rfl
@[simp] theorem State.setIsland_mcg (s : State) (k : Nat) (x : Island) : (s.setIsland k x).mcg = s.mcg := rfl
@[simp] theorem State.setIsland_mcgJob (s : State) (k : Nat) (x : Island) : (s.setIsland k x).mcgJob = s.mcgJob := rfl
@[simp] theorem State.setIsland_qgrp (s : State) (k : Nat) (x : Island) : (s.setIsland k x).qgrp = s.qgrp := rfl
@[simp] theorem State.setIsland_qgrpJob (s : State) (k : Nat) (x : Island) : (s.setIsland k x).qgrpJob = s.qgrpJob := rfl
@[simp] theorem State.setIsland_ports (s : State) (k : Nat) (x : Island) : (s.setIsland k x).ports = s.ports := rfl
@[simp] theorem State.setIsland_fab (s : State) (k : Nat) (x : Island) : (s.setIsland k x).fab = s.fab := rfl
@[simp] theorem State.setIsland_host (s : State) (k : Nat) (x : Island) : (s.setIsland k x).host = s.host := rfl
@[simp] theorem State.setIsland_cfg (s : State) (k : Nat) (x : Island) : (s.setIsland k x).cfg = s.cfg := rfl
@[simp] theorem State.setIsland_fl (s : State) (k : Nat) (x : Island) : (s.setIsland k x).fl = s.fl := rfl
@[simp] theorem State.setIsland_mss (s : State) (k : Nat) (x : Island) : (s.setIsland k x).mss = s.mss := rfl
@[simp] theorem State.setIsland_pins (s : State) (k : Nat) (x : Island) : (s.setIsland k x).pins = s.pins := rfl
@[simp] theorem State.setIsland_hc (s : State) (k : Nat) (x : Island) : (s.setIsland k x).hc = s.hc := rfl
@[simp] theorem State.setIsland_plane (s : State) (k : Nat) (x : Island) : (s.setIsland k x).plane = s.plane := rfl
@[simp] theorem State.setIsland_nextId (s : State) (k : Nat) (x : Island) : (s.setIsland k x).nextId = s.nextId := rfl
@[simp] theorem State.setIsland_freeCtr (s : State) (k : Nat) (x : Island) : (s.setIsland k x).freeCtr = s.freeCtr := rfl
@[simp] theorem State.setIsland_out (s : State) (k : Nat) (x : Island) : (s.setIsland k x).out = s.out := rfl

/-! ### setRing -/

@[simp] theorem State.setRing_pending (s : State) (k : Nat) (x : Ring) : (s.setRing k x).pending = s.pending := rfl
@[simp] theorem State.setRing_cores (s : State) (k : Nat) (x : Ring) : (s.setRing k x).cores = s.cores := rfl
@[simp] theorem State.setRing_hubs (s : State) (k : Nat) (x : Ring) : (s.setRing k x).hubs = s.hubs := rfl
@[simp] theorem State.setRing_hbm (s : State) (k : Nat) (x : Ring) : (s.setRing k x).hbm = s.hbm := rfl
@[simp] theorem State.setRing_joins (s : State) (k : Nat) (x : Ring) : (s.setRing k x).joins = s.joins := rfl
@[simp] theorem State.setRing_jobs (s : State) (k : Nat) (x : Ring) : (s.setRing k x).jobs = s.jobs := rfl
@[simp] theorem State.setRing_queues (s : State) (k : Nat) (x : Ring) : (s.setRing k x).queues = s.queues := rfl
@[simp] theorem State.setRing_recNo (s : State) (k : Nat) (x : Ring) : (s.setRing k x).recNo = s.recNo := rfl
@[simp] theorem State.setRing_mcg (s : State) (k : Nat) (x : Ring) : (s.setRing k x).mcg = s.mcg := rfl
@[simp] theorem State.setRing_mcgJob (s : State) (k : Nat) (x : Ring) : (s.setRing k x).mcgJob = s.mcgJob := rfl
@[simp] theorem State.setRing_qgrp (s : State) (k : Nat) (x : Ring) : (s.setRing k x).qgrp = s.qgrp := rfl
@[simp] theorem State.setRing_qgrpJob (s : State) (k : Nat) (x : Ring) : (s.setRing k x).qgrpJob = s.qgrpJob := rfl
@[simp] theorem State.setRing_clk (s : State) (k : Nat) (x : Ring) : (s.setRing k x).clk = s.clk := rfl
@[simp] theorem State.setRing_ports (s : State) (k : Nat) (x : Ring) : (s.setRing k x).ports = s.ports := rfl
@[simp] theorem State.setRing_fab (s : State) (k : Nat) (x : Ring) : (s.setRing k x).fab = s.fab := rfl
@[simp] theorem State.setRing_cfg (s : State) (k : Nat) (x : Ring) : (s.setRing k x).cfg = s.cfg := rfl
@[simp] theorem State.setRing_fl (s : State) (k : Nat) (x : Ring) : (s.setRing k x).fl = s.fl := rfl
@[simp] theorem State.setRing_mss (s : State) (k : Nat) (x : Ring) : (s.setRing k x).mss = s.mss := rfl
@[simp] theorem State.setRing_pins (s : State) (k : Nat) (x : Ring) : (s.setRing k x).pins = s.pins := rfl
@[simp] theorem State.setRing_hc (s : State) (k : Nat) (x : Ring) : (s.setRing k x).hc = s.hc := rfl
@[simp] theorem State.setRing_plane (s : State) (k : Nat) (x : Ring) : (s.setRing k x).plane = s.plane := rfl
@[simp] theorem State.setRing_nextId (s : State) (k : Nat) (x : Ring) : (s.setRing k x).nextId = s.nextId := rfl
@[simp] theorem State.setRing_freeCtr (s : State) (k : Nat) (x : Ring) : (s.setRing k x).freeCtr = s.freeCtr := rfl
@[simp] theorem State.setRing_out (s : State) (k : Nat) (x : Ring) : (s.setRing k x).out = s.out := rfl

/-! ### emit -/

@[simp] theorem State.emit_pending (s : State) (o : Out) : (s.emit o).pending = s.pending := rfl
@[simp] theorem State.emit_cores (s : State) (o : Out) : (s.emit o).cores = s.cores := rfl
@[simp] theorem State.emit_hubs (s : State) (o : Out) : (s.emit o).hubs = s.hubs := rfl
@[simp] theorem State.emit_hbm (s : State) (o : Out) : (s.emit o).hbm = s.hbm := rfl
@[simp] theorem State.emit_joins (s : State) (o : Out) : (s.emit o).joins = s.joins := rfl
@[simp] theorem State.emit_jobs (s : State) (o : Out) : (s.emit o).jobs = s.jobs := rfl
@[simp] theorem State.emit_queues (s : State) (o : Out) : (s.emit o).queues = s.queues := rfl
@[simp] theorem State.emit_recNo (s : State) (o : Out) : (s.emit o).recNo = s.recNo := rfl
@[simp] theorem State.emit_mcg (s : State) (o : Out) : (s.emit o).mcg = s.mcg := rfl
@[simp] theorem State.emit_mcgJob (s : State) (o : Out) : (s.emit o).mcgJob = s.mcgJob := rfl
@[simp] theorem State.emit_qgrp (s : State) (o : Out) : (s.emit o).qgrp = s.qgrp := rfl
@[simp] theorem State.emit_qgrpJob (s : State) (o : Out) : (s.emit o).qgrpJob = s.qgrpJob := rfl
@[simp] theorem State.emit_clk (s : State) (o : Out) : (s.emit o).clk = s.clk := rfl
@[simp] theorem State.emit_ports (s : State) (o : Out) : (s.emit o).ports = s.ports := rfl
@[simp] theorem State.emit_fab (s : State) (o : Out) : (s.emit o).fab = s.fab := rfl
@[simp] theorem State.emit_host (s : State) (o : Out) : (s.emit o).host = s.host := rfl
@[simp] theorem State.emit_cfg (s : State) (o : Out) : (s.emit o).cfg = s.cfg := rfl
@[simp] theorem State.emit_fl (s : State) (o : Out) : (s.emit o).fl = s.fl := rfl
@[simp] theorem State.emit_mss (s : State) (o : Out) : (s.emit o).mss = s.mss := rfl
@[simp] theorem State.emit_pins (s : State) (o : Out) : (s.emit o).pins = s.pins := rfl
@[simp] theorem State.emit_hc (s : State) (o : Out) : (s.emit o).hc = s.hc := rfl
@[simp] theorem State.emit_plane (s : State) (o : Out) : (s.emit o).plane = s.plane := rfl
@[simp] theorem State.emit_nextId (s : State) (o : Out) : (s.emit o).nextId = s.nextId := rfl
@[simp] theorem State.emit_freeCtr (s : State) (o : Out) : (s.emit o).freeCtr = s.freeCtr := rfl

/-! ### put -/

@[simp] theorem State.put_pending (s : State) (m : Msg) : (s.put m).pending = s.pending := rfl
@[simp] theorem State.put_cores (s : State) (m : Msg) : (s.put m).cores = s.cores := rfl
@[simp] theorem State.put_hubs (s : State) (m : Msg) : (s.put m).hubs = s.hubs := rfl
@[simp] theorem State.put_hbm (s : State) (m : Msg) : (s.put m).hbm = s.hbm := rfl
@[simp] theorem State.put_joins (s : State) (m : Msg) : (s.put m).joins = s.joins := rfl
@[simp] theorem State.put_jobs (s : State) (m : Msg) : (s.put m).jobs = s.jobs := rfl
@[simp] theorem State.put_queues (s : State) (m : Msg) : (s.put m).queues = s.queues := rfl
@[simp] theorem State.put_recNo (s : State) (m : Msg) : (s.put m).recNo = s.recNo := rfl
@[simp] theorem State.put_mcg (s : State) (m : Msg) : (s.put m).mcg = s.mcg := rfl
@[simp] theorem State.put_mcgJob (s : State) (m : Msg) : (s.put m).mcgJob = s.mcgJob := rfl
@[simp] theorem State.put_qgrp (s : State) (m : Msg) : (s.put m).qgrp = s.qgrp := rfl
@[simp] theorem State.put_qgrpJob (s : State) (m : Msg) : (s.put m).qgrpJob = s.qgrpJob := rfl
@[simp] theorem State.put_clk (s : State) (m : Msg) : (s.put m).clk = s.clk := rfl
@[simp] theorem State.put_ports (s : State) (m : Msg) : (s.put m).ports = s.ports := rfl
@[simp] theorem State.put_fab (s : State) (m : Msg) : (s.put m).fab = s.fab := rfl
@[simp] theorem State.put_host (s : State) (m : Msg) : (s.put m).host = s.host := rfl
@[simp] theorem State.put_cfg (s : State) (m : Msg) : (s.put m).cfg = s.cfg := rfl
@[simp] theorem State.put_fl (s : State) (m : Msg) : (s.put m).fl = s.fl := rfl
@[simp] theorem State.put_mss (s : State) (m : Msg) : (s.put m).mss = s.mss := rfl
@[simp] theorem State.put_pins (s : State) (m : Msg) : (s.put m).pins = s.pins := rfl
@[simp] theorem State.put_hc (s : State) (m : Msg) : (s.put m).hc = s.hc := rfl
@[simp] theorem State.put_freeCtr (s : State) (m : Msg) : (s.put m).freeCtr = s.freeCtr := rfl
@[simp] theorem State.put_out (s : State) (m : Msg) : (s.put m).out = s.out := rfl

/-! ### take -/

@[simp] theorem State.take_pending (s : State) (id : Nat) : (s.take id).pending = s.pending := rfl
@[simp] theorem State.take_cores (s : State) (id : Nat) : (s.take id).cores = s.cores := rfl
@[simp] theorem State.take_hubs (s : State) (id : Nat) : (s.take id).hubs = s.hubs := rfl
@[simp] theorem State.take_hbm (s : State) (id : Nat) : (s.take id).hbm = s.hbm := rfl
@[simp] theorem State.take_joins (s : State) (id : Nat) : (s.take id).joins = s.joins := rfl
@[simp] theorem State.take_jobs (s : State) (id : Nat) : (s.take id).jobs = s.jobs := rfl
@[simp] theorem State.take_queues (s : State) (id : Nat) : (s.take id).queues = s.queues := rfl
@[simp] theorem State.take_recNo (s : State) (id : Nat) : (s.take id).recNo = s.recNo := rfl
@[simp] theorem State.take_mcg (s : State) (id : Nat) : (s.take id).mcg = s.mcg := rfl
@[simp] theorem State.take_mcgJob (s : State) (id : Nat) : (s.take id).mcgJob = s.mcgJob := rfl
@[simp] theorem State.take_qgrp (s : State) (id : Nat) : (s.take id).qgrp = s.qgrp := rfl
@[simp] theorem State.take_qgrpJob (s : State) (id : Nat) : (s.take id).qgrpJob = s.qgrpJob := rfl
@[simp] theorem State.take_clk (s : State) (id : Nat) : (s.take id).clk = s.clk := rfl
@[simp] theorem State.take_ports (s : State) (id : Nat) : (s.take id).ports = s.ports := rfl
@[simp] theorem State.take_fab (s : State) (id : Nat) : (s.take id).fab = s.fab := rfl
@[simp] theorem State.take_host (s : State) (id : Nat) : (s.take id).host = s.host := rfl
@[simp] theorem State.take_cfg (s : State) (id : Nat) : (s.take id).cfg = s.cfg := rfl
@[simp] theorem State.take_fl (s : State) (id : Nat) : (s.take id).fl = s.fl := rfl
@[simp] theorem State.take_mss (s : State) (id : Nat) : (s.take id).mss = s.mss := rfl
@[simp] theorem State.take_pins (s : State) (id : Nat) : (s.take id).pins = s.pins := rfl
@[simp] theorem State.take_hc (s : State) (id : Nat) : (s.take id).hc = s.hc := rfl
@[simp] theorem State.take_nextId (s : State) (id : Nat) : (s.take id).nextId = s.nextId := rfl
@[simp] theorem State.take_freeCtr (s : State) (id : Nat) : (s.take id).freeCtr = s.freeCtr := rfl
@[simp] theorem State.take_out (s : State) (id : Nat) : (s.take id).out = s.out := rfl

/-! ### draw -/

@[simp] theorem State.draw_pending (s : State) : (s.draw).pending = s.pending := rfl
@[simp] theorem State.draw_cores (s : State) : (s.draw).cores = s.cores := rfl
@[simp] theorem State.draw_hubs (s : State) : (s.draw).hubs = s.hubs := rfl
@[simp] theorem State.draw_hbm (s : State) : (s.draw).hbm = s.hbm := rfl
@[simp] theorem State.draw_joins (s : State) : (s.draw).joins = s.joins := rfl
@[simp] theorem State.draw_jobs (s : State) : (s.draw).jobs = s.jobs := rfl
@[simp] theorem State.draw_queues (s : State) : (s.draw).queues = s.queues := rfl
@[simp] theorem State.draw_recNo (s : State) : (s.draw).recNo = s.recNo := rfl
@[simp] theorem State.draw_mcg (s : State) : (s.draw).mcg = s.mcg := rfl
@[simp] theorem State.draw_mcgJob (s : State) : (s.draw).mcgJob = s.mcgJob := rfl
@[simp] theorem State.draw_qgrp (s : State) : (s.draw).qgrp = s.qgrp := rfl
@[simp] theorem State.draw_qgrpJob (s : State) : (s.draw).qgrpJob = s.qgrpJob := rfl
@[simp] theorem State.draw_clk (s : State) : (s.draw).clk = s.clk := rfl
@[simp] theorem State.draw_ports (s : State) : (s.draw).ports = s.ports := rfl
@[simp] theorem State.draw_fab (s : State) : (s.draw).fab = s.fab := rfl
@[simp] theorem State.draw_host (s : State) : (s.draw).host = s.host := rfl
@[simp] theorem State.draw_cfg (s : State) : (s.draw).cfg = s.cfg := rfl
@[simp] theorem State.draw_fl (s : State) : (s.draw).fl = s.fl := rfl
@[simp] theorem State.draw_mss (s : State) : (s.draw).mss = s.mss := rfl
@[simp] theorem State.draw_pins (s : State) : (s.draw).pins = s.pins := rfl
@[simp] theorem State.draw_hc (s : State) : (s.draw).hc = s.hc := rfl
@[simp] theorem State.draw_plane (s : State) : (s.draw).plane = s.plane := rfl
@[simp] theorem State.draw_nextId (s : State) : (s.draw).nextId = s.nextId := rfl
@[simp] theorem State.draw_out (s : State) : (s.draw).out = s.out := rfl

/-! ### What the accessors read -/

@[simp] theorem State.core_setCore (s : State) (k : Nat) (x : Core) : (s.setCore k x).core k = x := tget_tput_self _ _ _ _
theorem State.core_setCore_ne (s : State) {j k : Nat} (x : Core) (h : j ≠ k) : (s.setCore k x).core j = s.core j :=
  tget_tput_ne _ _ _ h
@[simp] theorem State.core_setJob (s : State) (j : Nat) (k : Nat) (x : Job) : (s.setJob k x).core j = s.core j := rfl
@[simp] theorem State.core_setPort (s : State) (j : Nat) (k : Nat) (x : Port) : (s.setPort k x).core j = s.core j := rfl
@[simp] theorem State.core_setHub (s : State) (j : Nat) (k : Nat) (x : Hub) : (s.setHub k x).core j = s.core j := rfl
@[simp] theorem State.core_setQueue (s : State) (j : Nat) (k : Nat) (x : Queue) : (s.setQueue k x).core j = s.core j := rfl
@[simp] theorem State.core_setIsland (s : State) (j : Nat) (k : Nat) (x : Island) : (s.setIsland k x).core j = s.core j := rfl
@[simp] theorem State.core_setRing (s : State) (j : Nat) (k : Nat) (x : Ring) : (s.setRing k x).core j = s.core j := rfl
@[simp] theorem State.core_emit (s : State) (j : Nat) (o : Out) : (s.emit o).core j = s.core j := rfl
@[simp] theorem State.core_put (s : State) (j : Nat) (m : Msg) : (s.put m).core j = s.core j := rfl
@[simp] theorem State.core_take (s : State) (j : Nat) (id : Nat) : (s.take id).core j = s.core j := rfl
@[simp] theorem State.core_draw (s : State) (j : Nat) : (s.draw).core j = s.core j := rfl

@[simp] theorem State.job_setJob (s : State) (k : Nat) (x : Job) : (s.setJob k x).job k = x := tget_tput_self _ _ _ _
theorem State.job_setJob_ne (s : State) {j k : Nat} (x : Job) (h : j ≠ k) : (s.setJob k x).job j = s.job j :=
  tget_tput_ne _ _ _ h
@[simp] theorem State.job_setCore (s : State) (j : Nat) (k : Nat) (c : Core) : (s.setCore k c).job j = s.job j := rfl
@[simp] theorem State.job_setPort (s : State) (j : Nat) (k : Nat) (x : Port) : (s.setPort k x).job j = s.job j := rfl
@[simp] theorem State.job_setHub (s : State) (j : Nat) (k : Nat) (x : Hub) : (s.setHub k x).job j = s.job j := rfl
@[simp] theorem State.job_setQueue (s : State) (j : Nat) (k : Nat) (x : Queue) : (s.setQueue k x).job j = s.job j := rfl
@[simp] theorem State.job_setIsland (s : State) (j : Nat) (k : Nat) (x : Island) : (s.setIsland k x).job j = s.job j := rfl
@[simp] theorem State.job_setRing (s : State) (j : Nat) (k : Nat) (x : Ring) : (s.setRing k x).job j = s.job j := rfl
@[simp] theorem State.job_emit (s : State) (j : Nat) (o : Out) : (s.emit o).job j = s.job j := rfl
@[simp] theorem State.job_put (s : State) (j : Nat) (m : Msg) : (s.put m).job j = s.job j := rfl
@[simp] theorem State.job_take (s : State) (j : Nat) (id : Nat) : (s.take id).job j = s.job j := rfl
@[simp] theorem State.job_draw (s : State) (j : Nat) : (s.draw).job j = s.job j := rfl

@[simp] theorem State.port_setPort (s : State) (k : Nat) (x : Port) : (s.setPort k x).port k = x := tget_tput_self _ _ _ _
theorem State.port_setPort_ne (s : State) {j k : Nat} (x : Port) (h : j ≠ k) : (s.setPort k x).port j = s.port j :=
  tget_tput_ne _ _ _ h
@[simp] theorem State.port_setCore (s : State) (j : Nat) (k : Nat) (c : Core) : (s.setCore k c).port j = s.port j := rfl
@[simp] theorem State.port_setJob (s : State) (j : Nat) (k : Nat) (x : Job) : (s.setJob k x).port j = s.port j := rfl
@[simp] theorem State.port_setHub (s : State) (j : Nat) (k : Nat) (x : Hub) : (s.setHub k x).port j = s.port j := rfl
@[simp] theorem State.port_setQueue (s : State) (j : Nat) (k : Nat) (x : Queue) : (s.setQueue k x).port j = s.port j := rfl
@[simp] theorem State.port_setIsland (s : State) (j : Nat) (k : Nat) (x : Island) : (s.setIsland k x).port j = s.port j := rfl
@[simp] theorem State.port_setRing (s : State) (j : Nat) (k : Nat) (x : Ring) : (s.setRing k x).port j = s.port j := rfl
@[simp] theorem State.port_emit (s : State) (j : Nat) (o : Out) : (s.emit o).port j = s.port j := rfl
@[simp] theorem State.port_put (s : State) (j : Nat) (m : Msg) : (s.put m).port j = s.port j := rfl
@[simp] theorem State.port_take (s : State) (j : Nat) (id : Nat) : (s.take id).port j = s.port j := rfl
@[simp] theorem State.port_draw (s : State) (j : Nat) : (s.draw).port j = s.port j := rfl

@[simp] theorem State.hub_setHub (s : State) (k : Nat) (x : Hub) : (s.setHub k x).hub k = x := tget_tput_self _ _ _ _
theorem State.hub_setHub_ne (s : State) {j k : Nat} (x : Hub) (h : j ≠ k) : (s.setHub k x).hub j = s.hub j :=
  tget_tput_ne _ _ _ h
@[simp] theorem State.hub_setCore (s : State) (j : Nat) (k : Nat) (c : Core) : (s.setCore k c).hub j = s.hub j := rfl
@[simp] theorem State.hub_setJob (s : State) (j : Nat) (k : Nat) (x : Job) : (s.setJob k x).hub j = s.hub j := rfl
@[simp] theorem State.hub_setPort (s : State) (j : Nat) (k : Nat) (x : Port) : (s.setPort k x).hub j = s.hub j := rfl
@[simp] theorem State.hub_setQueue (s : State) (j : Nat) (k : Nat) (x : Queue) : (s.setQueue k x).hub j = s.hub j := rfl
@[simp] theorem State.hub_setIsland (s : State) (j : Nat) (k : Nat) (x : Island) : (s.setIsland k x).hub j = s.hub j := rfl
@[simp] theorem State.hub_setRing (s : State) (j : Nat) (k : Nat) (x : Ring) : (s.setRing k x).hub j = s.hub j := rfl
@[simp] theorem State.hub_emit (s : State) (j : Nat) (o : Out) : (s.emit o).hub j = s.hub j := rfl
@[simp] theorem State.hub_put (s : State) (j : Nat) (m : Msg) : (s.put m).hub j = s.hub j := rfl
@[simp] theorem State.hub_take (s : State) (j : Nat) (id : Nat) : (s.take id).hub j = s.hub j := rfl
@[simp] theorem State.hub_draw (s : State) (j : Nat) : (s.draw).hub j = s.hub j := rfl

@[simp] theorem State.queue_setQueue (s : State) (k : Nat) (x : Queue) : (s.setQueue k x).queue k = x := tget_tput_self _ _ _ _
theorem State.queue_setQueue_ne (s : State) {j k : Nat} (x : Queue) (h : j ≠ k) : (s.setQueue k x).queue j = s.queue j :=
  tget_tput_ne _ _ _ h
@[simp] theorem State.queue_setCore (s : State) (j : Nat) (k : Nat) (c : Core) : (s.setCore k c).queue j = s.queue j := rfl
@[simp] theorem State.queue_setJob (s : State) (j : Nat) (k : Nat) (x : Job) : (s.setJob k x).queue j = s.queue j := rfl
@[simp] theorem State.queue_setPort (s : State) (j : Nat) (k : Nat) (x : Port) : (s.setPort k x).queue j = s.queue j := rfl
@[simp] theorem State.queue_setHub (s : State) (j : Nat) (k : Nat) (x : Hub) : (s.setHub k x).queue j = s.queue j := rfl
@[simp] theorem State.queue_setIsland (s : State) (j : Nat) (k : Nat) (x : Island) : (s.setIsland k x).queue j = s.queue j := rfl
@[simp] theorem State.queue_setRing (s : State) (j : Nat) (k : Nat) (x : Ring) : (s.setRing k x).queue j = s.queue j := rfl
@[simp] theorem State.queue_emit (s : State) (j : Nat) (o : Out) : (s.emit o).queue j = s.queue j := rfl
@[simp] theorem State.queue_put (s : State) (j : Nat) (m : Msg) : (s.put m).queue j = s.queue j := rfl
@[simp] theorem State.queue_take (s : State) (j : Nat) (id : Nat) : (s.take id).queue j = s.queue j := rfl
@[simp] theorem State.queue_draw (s : State) (j : Nat) : (s.draw).queue j = s.queue j := rfl

@[simp] theorem State.island_setIsland (s : State) (k : Nat) (x : Island) : (s.setIsland k x).island k = x := tget_tput_self _ _ _ _
theorem State.island_setIsland_ne (s : State) {j k : Nat} (x : Island) (h : j ≠ k) : (s.setIsland k x).island j = s.island j :=
  tget_tput_ne _ _ _ h
@[simp] theorem State.island_setCore (s : State) (j : Nat) (k : Nat) (c : Core) : (s.setCore k c).island j = s.island j := rfl
@[simp] theorem State.island_setJob (s : State) (j : Nat) (k : Nat) (x : Job) : (s.setJob k x).island j = s.island j := rfl
@[simp] theorem State.island_setPort (s : State) (j : Nat) (k : Nat) (x : Port) : (s.setPort k x).island j = s.island j := rfl
@[simp] theorem State.island_setHub (s : State) (j : Nat) (k : Nat) (x : Hub) : (s.setHub k x).island j = s.island j := rfl
@[simp] theorem State.island_setQueue (s : State) (j : Nat) (k : Nat) (x : Queue) : (s.setQueue k x).island j = s.island j := rfl
@[simp] theorem State.island_setRing (s : State) (j : Nat) (k : Nat) (x : Ring) : (s.setRing k x).island j = s.island j := rfl
@[simp] theorem State.island_emit (s : State) (j : Nat) (o : Out) : (s.emit o).island j = s.island j := rfl
@[simp] theorem State.island_put (s : State) (j : Nat) (m : Msg) : (s.put m).island j = s.island j := rfl
@[simp] theorem State.island_take (s : State) (j : Nat) (id : Nat) : (s.take id).island j = s.island j := rfl
@[simp] theorem State.island_draw (s : State) (j : Nat) : (s.draw).island j = s.island j := rfl

@[simp] theorem State.ring_setRing (s : State) (k : Nat) (x : Ring) : (s.setRing k x).ring k = x := tget_tput_self _ _ _ _
theorem State.ring_setRing_ne (s : State) {j k : Nat} (x : Ring) (h : j ≠ k) : (s.setRing k x).ring j = s.ring j :=
  tget_tput_ne _ _ _ h
@[simp] theorem State.ring_setCore (s : State) (j : Nat) (k : Nat) (c : Core) : (s.setCore k c).ring j = s.ring j := rfl
@[simp] theorem State.ring_setJob (s : State) (j : Nat) (k : Nat) (x : Job) : (s.setJob k x).ring j = s.ring j := rfl
@[simp] theorem State.ring_setPort (s : State) (j : Nat) (k : Nat) (x : Port) : (s.setPort k x).ring j = s.ring j := rfl
@[simp] theorem State.ring_setHub (s : State) (j : Nat) (k : Nat) (x : Hub) : (s.setHub k x).ring j = s.ring j := rfl
@[simp] theorem State.ring_setQueue (s : State) (j : Nat) (k : Nat) (x : Queue) : (s.setQueue k x).ring j = s.ring j := rfl
@[simp] theorem State.ring_setIsland (s : State) (j : Nat) (k : Nat) (x : Island) : (s.setIsland k x).ring j = s.ring j := rfl
@[simp] theorem State.ring_emit (s : State) (j : Nat) (o : Out) : (s.emit o).ring j = s.ring j := rfl
@[simp] theorem State.ring_put (s : State) (j : Nat) (m : Msg) : (s.put m).ring j = s.ring j := rfl
@[simp] theorem State.ring_take (s : State) (j : Nat) (id : Nat) : (s.take id).ring j = s.ring j := rfl
@[simp] theorem State.ring_draw (s : State) (j : Nat) : (s.draw).ring j = s.ring j := rfl

end Sys2Proof.Machine
end

