-- ==== Sys2Proof/Laws/Core.lean ====
section
/-!
SUPPORT. What a command on one core can do to the rest of the part: it raises faults, hands over messages, and leaves
everything else as it was.
-/

namespace Sys2Proof.Machine

/-- The state that faults and messages of a core cannot touch. -/
structure Still where
  pending : List Instr
  cores   : SMap Core
  hubs    : SMap Hub
  hbm     : Hbm
  recNo   : Nat
  mcg     : SMap (BitVec 128)
  mcgJob  : SMap Nat
  qgrp    : SMap (BitVec 128)
  qgrpJob : SMap Nat
  clk     : Clocks
  host    : HostIf
  cfg     : Cfg
  pins    : Pins
  freeCtr : Nat

def State.still (s : State) : Still :=
  ⟨s.pending, s.cores, s.hubs, s.hbm, s.recNo, s.mcg, s.mcgJob, s.qgrp, s.qgrpJob, s.clk, s.host, s.cfg, s.pins, s.freeCtr⟩

/-- A fold of operations that keep a part of the state keeps that part. -/
theorem foldl_keeps {α β σ : Type} (p : σ → α) (f : σ → β → σ) (h : ∀ s b, p (f s b) = p s) (l : List β) (s : σ) :
    p (l.foldl f s) = p s := by
  induction l generalizing s with
  | nil => rfl
  | cons b t ih => rw [List.foldl_cons, ih, h]

theorem State.alert_still (s : State) (k : Nat) : (s.alert k).still = s.still := rfl

theorem State.ledger_still (s : State) (t : Nat) (d : List Byte) : (s.ledger t d).still = s.still := by
  unfold State.ledger; split <;> rfl

theorem State.ledgerFault_still (s : State) (d : List Byte) : (s.ledgerFault d).still = s.still := by
  unfold State.ledgerFault
  dsimp only
  split <;> split <;> first
    | rfl
    | rw [State.ledger_still]; rfl

theorem State.logRec_still (s : State) (f : FRec) : (s.logRec f).1.still = s.still := by
  unfold State.logRec
  dsimp only
  rw [State.ledgerFault_still]; rfl

theorem State.logCore_still (s : State) (k : Nat) (f : RawFault) : (s.logCore k f).still = s.still := by
  unfold State.logCore State.logNamed
  split
  · rfl
  · dsimp only
    split
    all_goals
      generalize hr : s.logRec _ = r
      have h : r.1.still = s.still := hr ▸ State.logRec_still ..
      dsimp only
      split
      · exact h
      · exact h

theorem State.sendOn_still (s : State) (dev out : Nat) (x : TxPkt) : (s.sendOn dev out x).still = s.still := by
  unfold State.sendOn; split <;> rfl

theorem State.sendEntry_still (s : State) (out : Nat) (a : Nat × Bool × Nat × Nat × Nat) :
    (s.sendEntry out a).still = s.still := by
  unfold State.sendEntry; split <;> rfl

theorem State.answerTo_still (s : State) (r : Reply) (st : Status) (a b c : Nat) (d : List Byte) (p : Bool) :
    (s.answerTo r st a b c d p).still = s.still := by
  unfold State.answerTo
  split
  · rfl
  · rfl
  · split
    · rfl
    · split <;> rfl
  · rfl
  · rfl
  · split <;> rfl
  · dsimp only
    split
    · split
      · rfl
      · rw [State.sendEntry_still]; rfl
    · split
      · rfl
      · rw [State.sendOn_still]; rfl

theorem State.answer_still (s : State) (r : Reply) (st : Status) (a b c : Nat) (d : List Byte) (p : Bool) :
    (s.answer r st a b c d p).still = s.still := by
  unfold State.answer
  split
  · split
    · rfl
    · dsimp only
      split
      · rfl
      · split
        · rw [State.answerTo_still]; rfl
        · rw [State.answerTo_still]; rfl
  · exact State.answerTo_still ..

theorem State.sendFabric_still (s : State) (h : Header) (d : List Byte) (c : Bool) (r : Reply) :
    (s.sendFabric h d c r).still = s.still := by
  unfold State.sendFabric
  split
  · exact State.answer_still ..
  · dsimp only
    split
    · exact State.answer_still ..
    · split <;> rfl

theorem State.noteFirst_still (s : State) (k : Nat) : (s.noteFirst k).still = s.still := by
  unfold State.noteFirst
  dsimp only
  split
  · rfl
  · split <;> rfl

theorem State.deliver_still (s : State) (m : Msg) : (s.deliver m).still = s.still := by
  unfold State.deliver
  split
  · exact State.answer_still ..
  · split
    · rw [State.answer_still]; rfl
    · split
      · rw [State.answer_still]; rfl
      · exact State.answer_still ..
  · exact State.sendFabric_still ..
  · rfl

/-- The core that a command leaves behind, its faults and messages handed over. -/
def Core.settled (c : Core) : Core := { c with fc := 0, flt := [], tx := [] }

/-- What a command on core `k` leaves of the state that faults and messages cannot touch. -/
theorem State.onCore_still (s : State) (k : Nat) (f : Env → Core → Core) (ht : s.gated = false) :
    (s.onCore k f).still =
      { (s.setCore k (f (s.env k) { s.core k with fc := s.freeCtr }).settled).still with
        freeCtr := (f (s.env k) { s.core k with fc := s.freeCtr }).fc } := by
  unfold State.onCore
  rw [ht]
  dsimp only
  have h1 : ∀ (l : List RawFault) (t : State), (l.foldl (fun s x => s.logCore k x) t).still = t.still := fun l t =>
    foldl_keeps State.still _ (fun s b => State.logCore_still s k b) l t
  have h2 : ∀ (l : List Msg) (t : State), (l.foldl State.deliver t).still = t.still := fun l t =>
    foldl_keeps State.still _ (fun s b => State.deliver_still s b) l t
  simp only [Bool.false_eq_true, if_false]
  split
  · show State.still (State.noteFirst _ _) = _
    rw [State.noteFirst_still, h2, h1]; rfl
  · rw [State.noteFirst_still, h2, h1]; rfl

section
variable (s : State) (k : Nat) (f : Env → Core → Core) (ht : s.gated = false)
include ht

theorem State.onCore_core : (s.onCore k f).core k = (f (s.env k) { s.core k with fc := s.freeCtr }).settled := by
  have h := congrArg Still.cores (s.onCore_still k f ht)
  show tget _ (s.onCore k f).cores k = _
  rw [show (s.onCore k f).cores = _ from h]
  exact tget_tput_self _ _ _ _

theorem State.onCore_core_ne (j : Nat) (hj : j ≠ k) : (s.onCore k f).core j = s.core j := by
  have h := congrArg Still.cores (s.onCore_still k f ht)
  show tget _ (s.onCore k f).cores j = _
  rw [show (s.onCore k f).cores = _ from h]
  exact tget_tput_ne _ _ _ hj

theorem State.onCore_hbm : (s.onCore k f).hbm = s.hbm := congrArg Still.hbm (s.onCore_still k f ht)
theorem State.onCore_hubs : (s.onCore k f).hubs = s.hubs := congrArg Still.hubs (s.onCore_still k f ht)
theorem State.onCore_pending : (s.onCore k f).pending = s.pending := congrArg Still.pending (s.onCore_still k f ht)
theorem State.onCore_clk : (s.onCore k f).clk = s.clk := congrArg Still.clk (s.onCore_still k f ht)
theorem State.onCore_host : (s.onCore k f).host = s.host := congrArg Still.host (s.onCore_still k f ht)
theorem State.onCore_cfg : (s.onCore k f).cfg = s.cfg := congrArg Still.cfg (s.onCore_still k f ht)
theorem State.onCore_pins : (s.onCore k f).pins = s.pins := congrArg Still.pins (s.onCore_still k f ht)
end

/-- A core whose clock is gated takes no command. -/
theorem State.onCore_gated (s : State) (k : Nat) (f : Env → Core → Core) (ht : s.gated = true) :
    s.onCore k f = s := by simp [State.onCore, ht]

/-! ### Admission -/

theorem accept_next {i : Instr} (t : State) (hu : i.unitsOk = true) (hf : i.fieldsOk = true) : accept i t = .next t := by
  simp [accept, hu, hf]

/-- An ill-formed command is refused, whatever the state. -/
theorem accept_cases (i : Instr) (t : State) :
    (i.unitsOk = false ∧ accept i t = .refused .noSuchUnit)
      ∨ (i.unitsOk = true ∧ i.fieldsOk = false ∧ accept i t = .refused .reservedEncoding)
      ∨ (i.unitsOk = true ∧ i.fieldsOk = true ∧ accept i t = .next t) := by
  cases hu : i.unitsOk <;> cases hf : i.fieldsOk <;> simp [accept, hu, hf]

end Sys2Proof.Machine
end

