-- ==== Sys2Proof/Laws/Dispatch.lean ====
section
/-!
SUPPORT. What `exec` does with each command, by name.
-/

namespace Sys2Proof.Machine

open Sys2Proof

@[simp] theorem exec_skip (x : Issue) (e : Engine) (s : State) : exec (.skip x e) s = execSkip x e s := rfl
@[simp] theorem exec_tinc (x : Issue) (e : Engine) (t : TallyOp) (n : NSrc) (s : State) :
    exec (.tinc x e t n) s = execTinc x e t n s := rfl
@[simp] theorem exec_tdec (x : Issue) (e : Engine) (t : TallyOp) (n : NSrc) (s : State) :
    exec (.tdec x e t n) s = execTdec x e t n s := rfl
@[simp] theorem exec_tset (x : Issue) (t : TallyOp) (n : NSrc) (s : State) : exec (.tset x t n) s = execTset x t n s := rfl
@[simp] theorem exec_twait (x : Issue) (e : Engine) (t : TallyOp) (n : W32) (tmo : W32) (s : State) :
    exec (.twait x e t n tmo) s = execTwait x e t n tmo s := rfl
@[simp] theorem exec_fence (x : Issue) (e : Engine) (k : FenceKind) (arg : Scope) (s : State) :
    exec (.fence x e k arg) s = execFence x e k arg s := rfl
@[simp] theorem exec_add (x : Issue) (f : Arith) (s : State) : exec (.add x f) s = execAdd x f s := rfl
@[simp] theorem exec_sub (x : Issue) (f : Arith) (s : State) : exec (.sub x f) s = execSub x f s := rfl
@[simp] theorem exec_and (x : Issue) (f : Arith) (s : State) : exec (.and x f) s = execAnd x f s := rfl
@[simp] theorem exec_or (x : Issue) (f : Arith) (s : State) : exec (.or x f) s = execOr x f s := rfl
@[simp] theorem exec_xor (x : Issue) (f : Arith) (s : State) : exec (.xor x f) s = execXor x f s := rfl
@[simp] theorem exec_shl (x : Issue) (f : Arith) (s : State) : exec (.shl x f) s = execShl x f s := rfl
@[simp] theorem exec_shr (x : Issue) (f : Arith) (s : State) : exec (.shr x f) s = execShr x f s := rfl
@[simp] theorem exec_sar (x : Issue) (f : Arith) (s : State) : exec (.sar x f) s = execSar x f s := rfl
@[simp] theorem exec_mul (x : Issue) (f : Arith) (s : State) : exec (.mul x f) s = execMul x f s := rfl
@[simp] theorem exec_movi (x : Issue) (d : BitVec 6) (imm : W64) (s : State) : exec (.movi x d imm) s = execMovi x d imm s := rfl
@[simp] theorem exec_cmp (x : Issue) (f : Arith) (fn : BitVec 5) (s : State) : exec (.cmp x f fn) s = execCmp x f fn s := rfl
@[simp] theorem exec_plog (x : Issue) (d a b : BitVec 6) (fn : BitVec 5) (s : State) :
    exec (.plog x d a b fn) s = execPlog x d a b fn s := rfl
@[simp] theorem exec_sel (x : Issue) (f : Arith) (ps : BitVec 3) (s : State) : exec (.sel x f ps) s = execSel x f ps s := rfl
@[simp] theorem exec_aadd (x : Issue) (f : Arith) (s : State) : exec (.aadd x f) s = execAadd x f s := rfl
@[simp] theorem exec_amov (x : Issue) (d a : BitVec 6) (s : State) : exec (.amov x d a) s = execAmov x d a s := rfl
@[simp] theorem exec_sfroma (x : Issue) (d a : BitVec 6) (s : State) : exec (.sfroma x d a) s = execSfroma x d a s := rfl
@[simp] theorem exec_movia (x : Issue) (d : BitVec 6) (imm : W64) (s : State) :
    exec (.movia x d imm) s = execMovia x d imm s := rfl
@[simp] theorem exec_rdsys (x : Issue) (d : BitVec 6) (imm : W64) (s : State) :
    exec (.rdsys x d imm) s = execRdsys x d imm s := rfl
@[simp] theorem exec_ld (x : Issue) (f : MemOp) (ecc : List EccObs) (s : State) : exec (.ld x f ecc) s = execLd x f ecc s := rfl
@[simp] theorem exec_st (x : Issue) (f : MemOp) (ecc : List EccObs) (s : State) : exec (.st x f ecc) s = execSt x f ecc s := rfl
@[simp] theorem exec_lda (x : Issue) (f : MemOp) (ecc : List EccObs) (s : State) :
    exec (.lda x f ecc) s = execLda x f ecc s := rfl
@[simp] theorem exec_sta (x : Issue) (f : MemOp) (ecc : List EccObs) (s : State) :
    exec (.sta x f ecc) s = execSta x f ecc s := rfl
@[simp] theorem exec_atom (x : Issue) (f : MemOp) (aop : BitVec 3) (sgn : Bool) (c : BitVec 6) (ecc : List EccObs) (s : State) :
    exec (.atom x f aop sgn c ecc) s = execAtom x f aop sgn c ecc s := rfl
@[simp] theorem exec_br (x : Issue) (cond : BitVec 2) (sr : BitVec 6) (pr : BitVec 3) (tgtT tgtF : BitVec 16) (s : State) :
    exec (.br x cond sr pr tgtT tgtF) s = execBr x cond sr pr tgtT tgtF s := rfl
@[simp] theorem exec_mldw (x : Issue) (l : LineOp) (fmt : BitVec 4) (mx : Bool) (sline : BitVec 17) (ecc : List EccObs)
    (s : State) :
    exec (.mldw x l fmt mx sline ecc) s = execMldw x l fmt mx sline ecc s := rfl
@[simp] theorem exec_mmul (x : Issue) (l : LineOp) (fmt : BitVec 4) (mx : Bool) (sline : BitVec 17) (nm1 : BitVec 9)
    (row : BitVec 9) (acc : Bool) (ecc : List EccObs) (rods : List RodError) (s : State) :
    exec (.mmul x l fmt mx sline nm1 row acc ecc rods) s = execMmul x l fmt mx sline nm1 row acc ecc rods s := rfl
@[simp] theorem exec_mclr (x : Issue) (tile : BitVec 3) (s : State) : exec (.mclr x tile) s = execMclr x tile s := rfl
@[simp] theorem exec_manc (x : Issue) (tile : BitVec 3) (anchor : BitVec 12) (s : State) :
    exec (.manc x tile anchor) s = execManc x tile anchor s := rfl
@[simp] theorem exec_mout (x : Issue) (row : BitVec 9) (vd : BitVec 6) (ofmt : BitVec 2) (half : Bool) (s : State) :
    exec (.mout x row vd ofmt half) s = execMout x row vd ofmt half s := rfl
@[simp] theorem exec_mflg (x : Issue) (tile : BitVec 3) (vd : BitVec 6) (s : State) :
    exec (.mflg x tile vd) s = execMflg x tile vd s := rfl
@[simp] theorem exec_mraw (x : Issue) (l : LineOp) (sa : BitVec 12) (row : BitVec 9) (ecc : List EccObs) (s : State) :
    exec (.mraw x l sa row ecc) s = execMraw x l sa row ecc s := rfl
@[simp] theorem exec_vop (x : Issue) (f : VopFields) (s : State) : exec (.vop x f) s = execVop x f s := rfl
@[simp] theorem exec_vld (x : Issue) (v : BitVec 6) (l : LineOp) (col : Bool) (rl : Bool) (ecc : List EccObs) (s : State) :
    exec (.vld x v l col rl ecc) s = execVld x v l col rl ecc s := rfl
@[simp] theorem exec_vldStrided (x : Issue) (d : VDest) (l : LineOp) (stride : BitVec 14) (w : BitVec 2) (b0 : BitVec 2)
    (rl : Bool) (ecc : List EccObs) (s : State) :
    exec (.vldStrided x d l stride w b0 rl ecc) s = execVldStrided x d l stride w b0 rl ecc s := rfl
@[simp] theorem exec_vldTranspose (x : Issue) (v : BitVec 6) (l : LineOp) (tw : BitVec 2) (tshape : Bool) (rl : Bool)
    (ecc : List EccObs) (s : State) :
    exec (.vldTranspose x v l tw tshape rl ecc) s = execVldTranspose x v l tw tshape rl ecc s := rfl
@[simp] theorem exec_vst (x : Issue) (v : BitVec 6) (l : LineOp) (col : Bool) (s : State) :
    exec (.vst x v l col) s = execVst x v l col s := rfl
@[simp] theorem exec_ocfill (x : Issue) (entry : BitVec 9) (l : LineOp) (col : Bool) (rl : Bool) (ecc : List EccObs) (s : State) :
    exec (.ocfill x entry l col rl ecc) s = execOcfill x entry l col rl ecc s := rfl
@[simp] theorem exec_ocput (x : Issue) (v : BitVec 6) (entry : BitVec 9) (s : State) :
    exec (.ocput x v entry) s = execOcput x v entry s := rfl
@[simp] theorem exec_lutld (x : Issue) (slo shi : BitVec 6) (entry : BitVec 9) (s : State) :
    exec (.lutld x slo shi entry) s = execLutld x slo shi entry s := rfl
@[simp] theorem exec_dload (x : Issue) (e : Dma) (slot : BitVec 4) (tmpl : BitVec 16) (s : State) :
    exec (.dload x e slot tmpl) s = execDload x e slot tmpl s := rfl
@[simp] theorem exec_dbase (x : Issue) (e : Dma) (slot : BitVec 4) (dst : Bool) (sr : BitVec 6) (add : Bool) (s : State) :
    exec (.dbase x e slot dst sr add) s = execDbase x e slot dst sr add s := rfl
@[simp] theorem exec_dgo (x : Issue) (e : Dma) (slot : BitVec 4) (r : Raise) (inc : W32) (s : State) :
    exec (.dgo x e slot r inc) s = execDgo x e slot r inc s := rfl
@[simp] theorem exec_datom (x : Issue) (f : DatomFields) (s : State) : exec (.datom x f) s = execDatom x f s := rfl
@[simp] theorem exec_qopen (x : Issue) (ctx : BitVec 12) (cls : BitVec 2) (r : Raise) (device : BitVec 12)
    (qid : BitVec 20) (s : State) :
    exec (.qopen x ctx cls r device qid) s = execQopen x ctx cls r device qid s := rfl
@[simp] theorem exec_qclose (x : Issue) (ctx : BitVec 12) (r : Raise) (s : State) :
    exec (.qclose x ctx r) s = execQclose x ctx r s := rfl
@[simp] theorem exec_qsend (x : Issue) (ctx : BitVec 12) (r : Raise) (nwm1 : BitVec 3) (sbase : BitVec 6) (mc : Bool)
    (s : State) :
    exec (.qsend x ctx r nwm1 sbase mc) s = execQsend x ctx r nwm1 sbase mc s := rfl
@[simp] theorem exec_qcsend (x : Issue) (ctx : BitVec 12) (r : Raise) (vk : BitVec 2) (sv sk : BitVec 6) (s : State) :
    exec (.qcsend x ctx r vk sv sk) s = execQcsend x ctx r vk sv sk s := rfl
@[simp] theorem exec_holdEnd (c delta : Nat) (s : State) : exec (.holdEnd c delta) s = execHoldEnd c delta s := rfl
@[simp] theorem exec_waitTimeout (c delta : Nat) (e : Engine) (s : State) :
    exec (.waitTimeout c delta e) s = execWaitTimeout c delta e s := rfl
@[simp] theorem exec_blockBoundary (c delta : Nat) (s : State) :
    exec (.blockBoundary c delta) s = execBlockBoundary c delta s := rfl
@[simp] theorem exec_serviceBlockEnd (c delta : Nat) (s : State) :
    exec (.serviceBlockEnd c delta) s = execServiceBlockEnd c delta s := rfl
@[simp] theorem exec_handlerDispatch (c delta : Nat) (s : State) :
    exec (.handlerDispatch c delta) s = execHandlerDispatch c delta s := rfl
@[simp] theorem exec_handlerBudgetExpiry (c delta : Nat) (s : State) :
    exec (.handlerBudgetExpiry c delta) s = execHandlerBudgetExpiry c delta s := rfl
@[simp] theorem exec_frameTick (job : Nat) (s : State) : exec (.frameTick job) s = execFrameTick job s := rfl
@[simp] theorem exec_startAtTbt (job : Nat) (s : State) : exec (.startAtTbt job) s = execStartAtTbt job s := rfl
@[simp] theorem exec_runRetire (job run : Nat) (s : State) : exec (.runRetire job run) s = execRunRetire job run s := rfl
@[simp] theorem exec_dmaRequestIssue (c delta : Nat) (e : Dma) (slot : BitVec 4) (ecc : List EccObs) (s : State) :
    exec (.dmaRequestIssue c delta e slot ecc) s = execDmaRequestIssue c delta e slot ecc s := rfl
@[simp] theorem exec_dmaRequestComplete (c delta : Nat) (txn : Nat) (s : State) :
    exec (.dmaRequestComplete c delta txn) s = execDmaRequestComplete c delta txn s := rfl
@[simp] theorem exec_fillComplete (c delta : Nat) (e : Dma) (slot : BitVec 4) (s : State) :
    exec (.fillComplete c delta e slot) s = execFillComplete c delta e slot s := rfl
@[simp] theorem exec_landingArrival (c delta : Nat) (pkt : Nat) (s : State) :
    exec (.landingArrival c delta pkt) s = execLandingArrival c delta pkt s := rfl
@[simp] theorem exec_landingPlacement (c delta : Nat) (ecc : List EccObs) (s : State) :
    exec (.landingPlacement c delta ecc) s = execLandingPlacement c delta ecc s := rfl
@[simp] theorem exec_remoteReadServe (c delta : Nat) (ecc : List EccObs) (s : State) :
    exec (.remoteReadServe c delta ecc) s = execRemoteReadServe c delta ecc s := rfl
@[simp] theorem exec_landingAtomic (c delta : Nat) (ecc : List EccObs) (s : State) :
    exec (.landingAtomic c delta ecc) s = execLandingAtomic c delta ecc s := rfl
@[simp] theorem exec_schedRequestArrival (req : Nat) (s : State) :
    exec (.schedRequestArrival req) s = execSchedRequestArrival req s := rfl
@[simp] theorem exec_elasticRequestArrival (req : Nat) (s : State) :
    exec (.elasticRequestArrival req) s = execElasticRequestArrival req s := rfl
@[simp] theorem exec_runCutoff (pc run : Nat) (ecc : List EccObs) (s : State) :
    exec (.runCutoff pc run ecc) s = execRunCutoff pc run ecc s := rfl
@[simp] theorem exec_hbmReadEgress (pc slot : Nat) (s : State) :
    exec (.hbmReadEgress pc slot) s = execHbmReadEgress pc slot s := rfl
@[simp] theorem exec_hbmWriteAck (req : Nat) (s : State) : exec (.hbmWriteAck req) s = execHbmWriteAck req s := rfl
@[simp] theorem exec_hbmUePoisonStore (pc : Nat) (s : State) : exec (.hbmUePoisonStore pc) s = execHbmUePoisonStore pc s := rfl
@[simp] theorem exec_linkRetry (pkt : Nat) (s : State) : exec (.linkRetry pkt) s = execLinkRetry pkt s := rfl
@[simp] theorem exec_linkSlip (pkt : Nat) (s : State) : exec (.linkSlip pkt) s = execLinkSlip pkt s := rfl
@[simp] theorem exec_calendarFrameBoundary (s : State) : exec .calendarFrameBoundary s = execCalendarFrameBoundary s := rfl
@[simp] theorem exec_patrolScrub (hub granule : Nat) (s : State) :
    exec (.patrolScrub hub granule) s = execPatrolScrub hub granule s := rfl
@[simp] theorem exec_placerOpenRequest (req : Nat) (s : State) :
    exec (.placerOpenRequest req) s = execPlacerOpenRequest req s := rfl
@[simp] theorem exec_placerSend (req : Nat) (s : State) : exec (.placerSend req) s = execPlacerSend req s := rfl
@[simp] theorem exec_placerClose (req : Nat) (s : State) : exec (.placerClose req) s = execPlacerClose req s := rfl
@[simp] theorem exec_queueAnswer (c delta : Nat) (req : Nat) (s : State) :
    exec (.queueAnswer c delta req) s = execQueueAnswer c delta req s := rfl
@[simp] theorem exec_groupAssign (qid : Nat) (s : State) : exec (.groupAssign qid) s = execGroupAssign qid s := rfl
@[simp] theorem exec_combiningContribution (req : Nat) (s : State) :
    exec (.combiningContribution req) s = execCombiningContribution req s := rfl
@[simp] theorem exec_combiningTimeout (qid key : Nat) (s : State) :
    exec (.combiningTimeout qid key) s = execCombiningTimeout qid key s := rfl
@[simp] theorem exec_droopNotice (island delta : Nat) (s : State) :
    exec (.droopNotice island delta) s = execDroopNotice island delta s := rfl
@[simp] theorem exec_dieEventGrant (delta : Nat) (s : State) : exec (.dieEventGrant delta) s = execDieEventGrant delta s := rfl
@[simp] theorem exec_emergencyStretch (island delta : Nat) (s : State) :
    exec (.emergencyStretch island delta) s = execEmergencyStretch island delta s := rfl
@[simp] theorem exec_crossingSlip (c : Nat) (toCore : Bool) (words : Nat) (pkts : List Nat) (s : State) :
    exec (.crossingSlip c toCore words pkts) s = execCrossingSlip c toCore words pkts s := rfl
@[simp] theorem exec_timebaseCopyCorrection (island : Nat) (s : State) :
    exec (.timebaseCopyCorrection island) s = execTimebaseCopyCorrection island s := rfl
@[simp] theorem exec_ppsInEdge (s : State) : exec .ppsInEdge s = execPpsInEdge s := rfl
@[simp] theorem exec_timeMessageSend (port : Nat) (s : State) : exec (.timeMessageSend port) s = execTimeMessageSend port s := rfl
@[simp] theorem exec_ppsOutRise (s : State) : exec .ppsOutRise s = execPpsOutRise s := rfl
@[simp] theorem exec_ppsOutFall (s : State) : exec .ppsOutFall s = execPpsOutFall s := rfl
@[simp] theorem exec_referenceLoss (r : Reference) (s : State) : exec (.referenceLoss r) s = execReferenceLoss r s := rfl
@[simp] theorem exec_holdoverEnd (r : Reference) (s : State) : exec (.holdoverEnd r) s = execHoldoverEnd r s := rfl
@[simp] theorem exec_timebaseStep (s : State) : exec .timebaseStep s = execTimebaseStep s := rfl
@[simp] theorem exec_opStopBegin (s : State) : exec .opStopBegin s = execOpStopBegin s := rfl
@[simp] theorem exec_opStopResume (ticks : Nat) (s : State) : exec (.opStopResume ticks) s = execOpStopResume ticks s := rfl
@[simp] theorem exec_setOpTimeout (s : State) : exec .setOpTimeout s = execSetOpTimeout s := rfl
@[simp] theorem exec_portTrainingDone (port : Nat) (lanes : Lanes) (link : LinkTimes) (s : State) :
    exec (.portTrainingDone port lanes link) s = execPortTrainingDone port lanes link s := rfl
@[simp] theorem exec_portAuthDone (port : Nat) (trusted signed enc : Bool) (serial : List Byte) (s : State) :
    exec (.portAuthDone port trusted signed enc serial) s = execPortAuthDone port trusted signed enc serial s := rfl
@[simp] theorem exec_portJoinDone (port : Nat) (partner : BitVec 12) (partnerPort : BitVec 4) (serial : List Byte)
    (routes : List (Nat × W32)) (s : State) :
    exec (.portJoinDone port partner partnerPort serial routes) s =
      execPortJoinDone port partner partnerPort serial routes s := rfl
@[simp] theorem exec_portStateTimeout (port : Nat) (s : State) :
    exec (.portStateTimeout port) s = execPortStateTimeout port s := rfl
@[simp] theorem exec_partnerLost (port : Nat) (s : State) : exec (.partnerLost port) s = execPartnerLost port s := rfl
@[simp] theorem exec_fecWindow (port : Nat) (errors : List Nat) (s : State) :
    exec (.fecWindow port errors) s = execFecWindow port errors s := rfl
@[simp] theorem exec_laneRetrainDone (port : Nat) (s : State) : exec (.laneRetrainDone port) s = execLaneRetrainDone port s := rfl
@[simp] theorem exec_creditTimeout (port vc : Nat) (s : State) :
    exec (.creditTimeout port vc) s = execCreditTimeout port vc s := rfl
@[simp] theorem exec_apertureDropWindow (port : Nat) (s : State) :
    exec (.apertureDropWindow port) s = execApertureDropWindow port s := rfl
@[simp] theorem exec_pktWrite (p : PktIn) (s : State) : exec (.pktWrite p) s = execPktWrite p s := rfl
@[simp] theorem exec_pktRead (p : PktIn) (s : State) : exec (.pktRead p) s = execPktRead p s := rfl
@[simp] theorem exec_pktRresp (p : PktIn) (s : State) : exec (.pktRresp p) s = execPktRresp p s := rfl
@[simp] theorem exec_pktAtomic (p : PktIn) (s : State) : exec (.pktAtomic p) s = execPktAtomic p s := rfl
@[simp] theorem exec_pktAresp (p : PktIn) (s : State) : exec (.pktAresp p) s = execPktAresp p s := rfl
@[simp] theorem exec_pktAck (p : PktIn) (s : State) : exec (.pktAck p) s = execPktAck p s := rfl
@[simp] theorem exec_pktQopen (p : PktIn) (s : State) : exec (.pktQopen p) s = execPktQopen p s := rfl
@[simp] theorem exec_pktQsend (p : PktIn) (s : State) : exec (.pktQsend p) s = execPktQsend p s := rfl
@[simp] theorem exec_pktQcsend (p : PktIn) (s : State) : exec (.pktQcsend p) s = execPktQcsend p s := rfl
@[simp] theorem exec_pktQclose (p : PktIn) (s : State) : exec (.pktQclose p) s = execPktQclose p s := rfl
@[simp] theorem exec_pktQresp (p : PktIn) (s : State) : exec (.pktQresp p) s = execPktQresp p s := rfl
@[simp] theorem exec_pktTime (p : PktIn) (b : TimeBody) (s : State) : exec (.pktTime p b) s = execPktTime p b s := rfl
@[simp] theorem exec_pktMgmt (p : PktIn) (b : MgmtBody) (s : State) : exec (.pktMgmt p b) s = execPktMgmt p b s := rfl
@[simp] theorem exec_pktAuth (p : PktIn) (b : AuthBody) (s : State) : exec (.pktAuth p b) s = execPktAuth p b s := rfl
@[simp] theorem exec_pktTransit (p : PktIn) (s : State) : exec (.pktTransit p) s = execPktTransit p s := rfl
@[simp] theorem exec_linkWord (port : Nat) (w : LinkWord) (s : State) : exec (.linkWord port w) s = execLinkWord port w s := rfl
@[simp] theorem exec_linkWordSend (port : Nat) (s : State) : exec (.linkWordSend port) s = execLinkWordSend port s := rfl
@[simp] theorem exec_fabricSlot (port : Nat) (s : State) : exec (.fabricSlot port) s = execFabricSlot port s := rfl
@[simp] theorem exec_fabricFrameBoundary (s : State) : exec .fabricFrameBoundary s = execFabricFrameBoundary s := rfl
@[simp] theorem exec_heartbeatSend (s : State) : exec .heartbeatSend s = execHeartbeatSend s := rfl
@[simp] theorem exec_masterTakeover (s : State) : exec .masterTakeover s = execMasterTakeover s := rfl
@[simp] theorem exec_doorbellSqTail (ring : Nat) (v : W32) (s : State) :
    exec (.doorbellSqTail ring v) s = execDoorbellSqTail ring v s := rfl
@[simp] theorem exec_doorbellCqHead (ring : Nat) (v : W32) (s : State) :
    exec (.doorbellCqHead ring v) s = execDoorbellCqHead ring v s := rfl
@[simp] theorem exec_commandAdmission (ring : Reads) (p : Packet) (s : State) :
    exec (.commandAdmission ring p) s = execCommandAdmission ring p s := rfl
@[simp] theorem exec_commandExecute (s : State) : exec .commandExecute s = execCommandExecute s := rfl
@[simp] theorem exec_bulkDeferralExpiry (id : Nat) (s : State) :
    exec (.bulkDeferralExpiry id) s = execBulkDeferralExpiry id s := rfl
@[simp] theorem exec_completionRecordWrite (ring : Nat) (s : State) :
    exec (.completionRecordWrite ring) s = execCompletionRecordWrite ring s := rfl
@[simp] theorem exec_ringEnable (ring : Nat) (v : W32) (s : State) : exec (.ringEnable ring v) s = execRingEnable ring v s := rfl
@[simp] theorem exec_ringDisable (ring : Nat) (v : W32) (s : State) :
    exec (.ringDisable ring v) s = execRingDisable ring v s := rfl
@[simp] theorem exec_ringDeferWrite (ring : Nat) (v : W32) (s : State) :
    exec (.ringDeferWrite ring v) s = execRingDeferWrite ring v s := rfl
@[simp] theorem exec_biasFlipGo (v : W32) (s : State) : exec (.biasFlipGo v) s = execBiasFlipGo v s := rfl
@[simp] theorem exec_biasFlipDone (s : State) : exec .biasFlipDone s = execBiasFlipDone s := rfl
@[simp] theorem exec_hdmCommit (n : Bool) (base size : Nat) (s : State) :
    exec (.hdmCommit n base size) s = execHdmCommit n base size s := rfl
@[simp] theorem exec_bar2SelWrite (v : W32) (s : State) : exec (.bar2SelWrite v) s = execBar2SelWrite v s := rfl
@[simp] theorem exec_hostCxlMemRead (hpa len : Nat) (s : State) :
    exec (.hostCxlMemRead hpa len) s = execHostCxlMemRead hpa len s := rfl
@[simp] theorem exec_hostCxlMemWrite (hpa : Nat) (data : List Byte) (poison : Bool) (s : State) :
    exec (.hostCxlMemWrite hpa data poison) s = execHostCxlMemWrite hpa data poison s := rfl
@[simp] theorem exec_bar2Read (off len : Nat) (s : State) : exec (.bar2Read off len) s = execBar2Read off len s := rfl
@[simp] theorem exec_bar2Write (off : Nat) (data : List Byte) (poison : Bool) (s : State) :
    exec (.bar2Write off data poison) s = execBar2Write off data poison s := rfl
@[simp] theorem exec_hostLinkTrained (width rate : Nat) (cxl : Bool) (s : State) :
    exec (.hostLinkTrained width rate cxl) s = execHostLinkTrained width rate cxl s := rfl
@[simp] theorem exec_hostLinkReset (s : State) : exec .hostLinkReset s = execHostLinkReset s := rfl
@[simp] theorem exec_load (id : Reads) (image bindings placement : List Byte) (s : State) :
    exec (.load id image bindings placement) s = execLoad id image bindings placement s := rfl
@[simp] theorem exec_unload (id : Nat) (s : State) : exec (.unload id) s = execUnload id s := rfl
@[simp] theorem exec_reserve (id : Reads) (entries : List Byte) (s : State) :
    exec (.reserve id entries) s = execReserve id entries s := rfl
@[simp] theorem exec_arm (id : Reads) (s : State) : exec (.arm id) s = execArm id s := rfl
@[simp] theorem exec_start (id : Nat) (s : State) : exec (.start id) s = execStart id s := rfl
@[simp] theorem exec_startPeriodic (id : Nat) (s : State) : exec (.startPeriodic id) s = execStartPeriodic id s := rfl
@[simp] theorem exec_stop (id : Nat) (s : State) : exec (.stop id) s = execStop id s := rfl
@[simp] theorem exec_drain (id : Nat) (s : State) : exec (.drain id) s = execDrain id s := rfl
@[simp] theorem exec_openChannel (id : Reads) (image : List Byte) (s : State) :
    exec (.openChannel id image) s = execOpenChannel id image s := rfl
@[simp] theorem exec_closeChannel (id : Nat) (s : State) : exec (.closeChannel id) s = execCloseChannel id s := rfl
@[simp] theorem exec_setCircuits (id : Reads) (entries : List Byte) (later : List (List Nat)) (s : State) :
    exec (.setCircuits id entries later) s = execSetCircuits id entries later s := rfl
@[simp] theorem exec_setApertures (id : Reads) (table : List Byte) (s : State) :
    exec (.setApertures id table) s = execSetApertures id table s := rfl
@[simp] theorem exec_setOp (id : Nat) (s : State) : exec (.setOp id) s = execSetOp id s := rfl
@[simp] theorem exec_query (id : Nat) (s : State) : exec (.query id) s = execQuery id s := rfl
@[simp] theorem exec_faults (id : Nat) (s : State) : exec (.faults id) s = execFaults id s := rfl
@[simp] theorem exec_captureTake (id : Nat) (s : State) : exec (.captureTake id) s = execCaptureTake id s := rfl
@[simp] theorem exec_captureRead (id : Reads) (s : State) : exec (.captureRead id) s = execCaptureRead id s := rfl
@[simp] theorem exec_computeReset (id : Nat) (upTo : Nat) (r : ResetRun) (s : State) :
    exec (.computeReset id upTo r) s = execComputeReset id upTo r s := rfl
@[simp] theorem exec_portReset (id : Nat) (s : State) : exec (.portReset id) s = execPortReset id s := rfl
@[simp] theorem exec_portHoldDown (id : Nat) (s : State) : exec (.portHoldDown id) s = execPortHoldDown id s := rfl
@[simp] theorem exec_portWriteCfg (id : Nat) (s : State) : exec (.portWriteCfg id) s = execPortWriteCfg id s := rfl
@[simp] theorem exec_loadClusterMap (id : Reads) (map : List Byte) (s : State) :
    exec (.loadClusterMap id map) s = execLoadClusterMap id map s := rfl
@[simp] theorem exec_timeCtrlStep (id : Nat) (clusterBusy : Bool) (s : State) :
    exec (.timeCtrlStep id clusterBusy) s = execTimeCtrlStep id clusterBusy s := rfl
@[simp] theorem exec_timeCtrlRead (id : Nat) (s : State) : exec (.timeCtrlRead id) s = execTimeCtrlRead id s := rfl
@[simp] theorem exec_mss (id : Reads) (msg : List Byte) (s : State) : exec (.mss id msg) s = execMss id msg s := rfl
@[simp] theorem exec_runHalt (job : Nat) (s : State) : exec (.runHalt job) s = execRunHalt job s := rfl
@[simp] theorem exec_haltQuiesced (job : Nat) (s : State) : exec (.haltQuiesced job) s = execHaltQuiesced job s := rfl
@[simp] theorem exec_watchdogNoProgress (c delta : Nat) (s : State) :
    exec (.watchdogNoProgress c delta) s = execWatchdogNoProgress c delta s := rfl
@[simp] theorem exec_runDeadline (job run : Nat) (s : State) : exec (.runDeadline job run) s = execRunDeadline job run s := rfl
@[simp] theorem exec_quiesceTimeout (c : Nat) (s : State) : exec (.quiesceTimeout c) s = execQuiesceTimeout c s := rfl
@[simp] theorem exec_captureDone (s : State) : exec .captureDone s = execCaptureDone s := rfl
@[simp] theorem exec_autoReset (upTo : Nat) (r : ResetRun) (s : State) :
    exec (.autoReset upTo r) s = execAutoReset upTo r s := rfl
@[simp] theorem exec_sensorSample (arg : Sample) (s : State) : exec (.sensorSample arg) s = execSensorSample arg s := rfl
@[simp] theorem exec_throttleReturn (s : State) : exec .throttleReturn s = execThrottleReturn s := rfl
@[simp] theorem exec_pcapApply (s : State) : exec .pcapApply s = execPcapApply s := rfl
@[simp] theorem exec_ledgerFlush (s : State) : exec .ledgerFlush s = execLedgerFlush s := rfl
@[simp] theorem exec_remapFlashCopy (s : State) : exec .remapFlashCopy s = execRemapFlashCopy s := rfl
@[simp] theorem exec_hashComplete (idx : Reads) (s : State) : exec (.hashComplete idx) s = execHashComplete idx s := rfl
@[simp] theorem exec_digestSign (idx : Nat) (s : State) : exec (.digestSign idx) s = execDigestSign idx s := rfl
@[simp] theorem exec_mbGo (v : W32) (s : State) : exec (.mbGo v) s = execMbGo v s := rfl
@[simp] theorem exec_mgPcapWrite (v : W32) (s : State) : exec (.mgPcapWrite v) s = execMgPcapWrite v s := rfl
@[simp] theorem exec_mgAlertClear (v : Clearing) (s : State) : exec (.mgAlertClear v) s = execMgAlertClear v s := rfl
@[simp] theorem exec_capLockRelease (v : Clearing) (s : State) : exec (.capLockRelease v) s = execCapLockRelease v s := rfl
@[simp] theorem exec_wdLimitWrite (v : W32) (s : State) : exec (.wdLimitWrite v) s = execWdLimitWrite v s := rfl
@[simp] theorem exec_tmTbtLowRead (s : State) : exec .tmTbtLowRead s = execTmTbtLowRead s := rfl
@[simp] theorem exec_rcRegisterRead (off : Nat) (x : Access0) (s : State) :
    exec (.rcRegisterRead off x) s = execRcRegisterRead off x s := rfl
@[simp] theorem exec_registerWrite (off : Nat) (x : Access0) (v : W64) (s : State) :
    exec (.registerWrite off x v) s = execRegisterWrite off x v s := rfl
@[simp] theorem exec_getStatus (t : Transport) (s : State) : exec (.getStatus t) s = execGetStatus t s := rfl
@[simp] theorem exec_ledgerRead (t : Transport) (first count : Nat) (s : State) :
    exec (.ledgerRead t first count) s = execLedgerRead t first count s := rfl
@[simp] theorem exec_mssRestart (own : Bool) (t : Transport) (done : Bool) (s : State) :
    exec (.mssRestart own t done) s = execMssRestart own t done s := rfl
@[simp] theorem exec_setRoots (t : Transport) (secured : Bool) (certs : List (List Byte)) (s : State) :
    exec (.setRoots t secured certs) s = execSetRoots t secured certs s := rfl
@[simp] theorem exec_clearAlert (t : Transport) (mask : Clearing) (s : State) :
    exec (.clearAlert t mask) s = execClearAlert t mask s := rfl
@[simp] theorem exec_getVersion (t : Transport) (s : State) : exec (.getVersion t) s = execGetVersion t s := rfl
@[simp] theorem exec_getCapabilities (t : Transport) (s : State) : exec (.getCapabilities t) s = execGetCapabilities t s := rfl
@[simp] theorem exec_negotiateAlgorithms (t : Transport) (rsa4096 sha512 ffdhe4096 aes256 : Bool) (s : State) :
    exec (.negotiateAlgorithms t rsa4096 sha512 ffdhe4096 aes256) s =
      execNegotiateAlgorithms t rsa4096 sha512 ffdhe4096 aes256 s := rfl
@[simp] theorem exec_getDigests (t : Transport) (s : State) : exec (.getDigests t) s = execGetDigests t s := rfl
@[simp] theorem exec_getCertificate (t : Transport) (slot off len : Nat) (s : State) :
    exec (.getCertificate t slot off len) s = execGetCertificate t slot off len s := rfl
@[simp] theorem exec_challenge (t : Transport) (slot : Nat) (nonce : List Byte) (s : State) :
    exec (.challenge t slot nonce) s = execChallenge t slot nonce s := rfl
@[simp] theorem exec_getMeasurements (t : Transport) (indices : List Nat) (s : State) :
    exec (.getMeasurements t indices) s = execGetMeasurements t indices s := rfl
@[simp] theorem exec_keyExchange (t : Transport) (exchange nonce : List Byte) (s : State) :
    exec (.keyExchange t exchange nonce) s = execKeyExchange t exchange nonce s := rfl
@[simp] theorem exec_finish (t : Transport) (verify : List Byte) (s : State) :
    exec (.finish t verify) s = execFinish t verify s := rfl
@[simp] theorem exec_endSession (t : Transport) (s : State) : exec (.endSession t) s = execEndSession t s := rfl
@[simp] theorem exec_pldmBase (t : Transport) (cmd : Nat) (body : List Byte) (s : State) :
    exec (.pldmBase t cmd body) s = execPldmBase t cmd body s := rfl
@[simp] theorem exec_pldmSensorRead (t : Transport) (sensor : Nat) (s : State) :
    exec (.pldmSensorRead t sensor) s = execPldmSensorRead t sensor s := rfl
@[simp] theorem exec_pldmFirmwareUpdate (t : Transport) (image : List Byte) (sig : List Byte) (powerLost : Bool) (s : State) :
    exec (.pldmFirmwareUpdate t image sig powerLost) s = execPldmFirmwareUpdate t image sig powerLost s := rfl
@[simp] theorem exec_mctpUnsupported (t : Transport) (msgType code : Nat) (s : State) :
    exec (.mctpUnsupported t msgType code) s = execMctpUnsupported t msgType code s := rfl
@[simp] theorem exec_packageReset (p : PinLevels) (s : State) : exec (.packageReset p) s = execPackageReset p s := rfl
@[simp] theorem exec_boot (p : PinLevels) (refPresent : Bool) (xlat : List (Nat × Nat)) (s : State) :
    exec (.boot p refPresent xlat) s = execBoot p refPresent xlat s := rfl
@[simp] theorem exec_bootImageVerified (image : List Byte) (sig : List Byte) (micros : Nat) (s : State) :
    exec (.bootImageVerified image sig micros) s = execBootImageVerified image sig micros s := rfl
@[simp] theorem exec_brownOut (r : WatchedRail) (s : State) : exec (.brownOut r) s = execBrownOut r s := rfl
@[simp] theorem exec_thermtrip (sensor : Nat) (s : State) : exec (.thermtrip sensor) s = execThermtrip sensor s := rfl
@[simp] theorem exec_jtagExtest (levels : List (Nat × Bool)) (s : State) :
    exec (.jtagExtest levels) s = execJtagExtest levels s := rfl
@[simp] theorem exec_drainTimeout (s : State) : exec .drainTimeout s = execDrainTimeout s := rfl
@[simp] theorem exec_laneLossOfLock (port lane : Nat) (s : State) :
    exec (.laneLossOfLock port lane) s = execLaneLossOfLock port lane s := rfl
@[simp] theorem exec_uncorrectableCodeword (port : Nat) (s : State) :
    exec (.uncorrectableCodeword port) s = execUncorrectableCodeword port s := rfl
@[simp] theorem exec_snoop (hpa : Nat) (s : State) : exec (.snoop hpa) s = execSnoop hpa s := rfl
@[simp] theorem exec_endpointIdAssignment (t : Transport) (eid : BitVec 8) (s : State) :
    exec (.endpointIdAssignment t eid) s = execEndpointIdAssignment t eid s := rfl
@[simp] theorem exec_ideKeyManagement (t : Transport) (secured : Bool) (key : List Byte) (s : State) :
    exec (.ideKeyManagement t secured key) s = execIdeKeyManagement t secured key s := rfl

end Sys2Proof.Machine
end

