-- ==== Sys2Proof/Laws/Memory.lean ====
section
/-!
SUPPORT. Memory keeps its canonical form under every operation that changes it: the scratchpads under stores, landing lines and
free content, HBM under its writes and captures.
-/

namespace Sys2Proof.Machine

/-! ### Scratchpads -/

/-- The bytes and the marks of a scratchpad are in canonical form. -/
def Core.memWf (c : Core) : Prop := Memory.wf c.mem = true ∧ twf false c.pois = true

theorem Core.reset_memWf : Core.reset.memWf := ⟨rfl, rfl⟩

theorem Core.storeBytes_memWf (c : Core) (addr : Nat) (d : List Byte) (p : Bool) (h : c.memWf) :
    (c.storeBytes addr d p).memWf := by
  refine ⟨twf_writeBytes _ _ _ h.1, ?_⟩
  show twf false (if p then _ else _) = true
  split
  · exact twf_tput _ _ _ _ h.2
  · split
    · exact twf_tput _ _ _ _ h.2
    · exact h.2

theorem Core.bumpAudit_memWf (c : Core) (r : Res) (h : c.memWf) : (c.bumpAudit r).memWf := by
  unfold Core.bumpAudit
  cases c.rn.audit
  · exact h
  · exact ⟨h.1, h.2⟩

theorem Core.junk_memWf (c : Core) (r : Res) (h : c.memWf) : (c.junk r).memWf := by
  unfold Core.junk
  dsimp only
  split
  · exact ⟨h.1, h.2⟩
  · exact ⟨h.1, h.2⟩
  · exact ⟨h.1, h.2⟩
  · exact ⟨h.1, h.2⟩
  · exact ⟨h.1, h.2⟩
  · have h1 := twf_writeBytes c.mem (256 * r.index) (freeBytes c.fc 0 256) h.1
    generalize freeBytes c.fc 0 256 = d at h1 ⊢
    exact ⟨h1, h.2⟩

/-- A write that takes effect keeps the form, whatever it writes. -/
theorem Core.commit_memWf (c : Core) (w : PWrite) (h : c.memWf) : (c.commit w).memWf := by
  have h' := Core.bumpAudit_memWf c w.res h
  unfold Core.commit
  dsimp only
  split
  · exact h'
  · exact h'
  · exact h'
  · split <;> exact h'
  · exact Core.storeBytes_memWf _ _ _ _ h'
  · exact Core.junk_memWf _ _ h'

/-! ### HBM -/

theorem twf_burstMarks (pois : SMap Bool) (addr : Nat) (marks : List Bool) (b n : Nat) (h : twf false pois = true) :
    twf false (burstMarks pois addr marks b n) = true := by
  induction n generalizing b with
  | zero => exact h
  | succ n ih =>
    unfold burstMarks
    dsimp only
    split
    · exact twf_tput _ _ _ _ (ih _)
    · split
      · exact twf_tput _ _ _ _ (ih _)
      · exact ih _

/-- The bytes and the marks of HBM are in canonical form. -/
def Hbm.memWf (h : Hbm) : Prop := Memory.wf h.mem = true ∧ twf false h.pois = true

theorem State.reset_hbm_memWf : State.reset.hbm.memWf := ⟨rfl, rfl⟩

theorem Hbm.write_memWf (h : Hbm) (addr : Nat) (d : List Byte) (marks : List Bool) (hw : h.memWf) :
    (h.write addr d marks).memWf := by
  unfold Hbm.write
  split
  · exact hw
  · exact ⟨twf_writeBytes _ _ _ hw.1, twf_burstMarks _ _ _ _ _ hw.2⟩

theorem Hbm.put_memWf (h : Hbm) (addr : Nat) (d : List Byte) (p : Bool) (hw : h.memWf) : (h.put addr d p).memWf :=
  h.write_memWf _ _ _ hw

theorem Hbm.putCapture_memWf (h : Hbm) (parts : List (Nat × List Byte)) (hw : h.memWf) : (h.putCapture parts).memWf := by
  refine ⟨?_, twf_tdrop _ _ _ hw.2⟩
  show Memory.wf (parts.foldl _ _) = true
  have h0 := twf_tdrop _ (inCapture 1) _ hw.1
  generalize tdrop (inCapture 1) h.mem = m at h0
  induction parts generalizing m with
  | nil => exact h0
  | cons p t ih => exact ih _ (twf_writeBytes _ _ _ h0)

/-- A write of HBM reads as its bytes, and every byte outside it reads as before. -/
theorem Hbm.write_bytes (h : Hbm) (addr : Nat) (d : List Byte) (marks : List Bool) :
    readBytes (h.write addr d marks).mem addr d.length = d
      ∧ ∀ a, a < addr ∨ addr + d.length ≤ a → tget 0 (h.write addr d marks).mem a = tget 0 h.mem a := by
  unfold Hbm.write
  split
  · next he => simp at he; subst he; exact ⟨rfl, fun _ _ => rfl⟩
  · exact ⟨readBytes_writeBytes _ _ _, fun a ha => tget_writeBytes_out _ _ _ _ ha⟩

end Sys2Proof.Machine
end

