-- ==== Sys2Proof/Tests/Slice0.lean ====
section
/-!
SUPPORT. Tests: ill-formed commands that each check refuses, words and values of the spec's examples, and for each statement
with hypotheses a state and operands that meet them, clause by clause.
-/

open Sys2Proof Sys2Proof.Machine Sys2Proof.Safety Sys2Proof.Claims

namespace Sys2Proof.Tests

set_option Elab.async false

/-! ### Small states -/

/-- A core image: blocks 0 and 1 of 64 ccyc, a service block, one chain, one template, two handlers. -/
def img : CoreImage where
  streams := []
  blocks := [⟨64, 1, 0, []⟩, ⟨64, 0xFFFF, 0, []⟩, ⟨0, 0xFFFE, 1, []⟩, ⟨0, 0xFFFF, 1, []⟩, ⟨0, 1, 1, []⟩]
  chains := [0]
  descs := [[List.replicate 128 0]]
  windows := []
  handlers := [⟨2, true, 50⟩]
  audit := []

def job1 : Job := { Job.empty with state := 4, placement := [0], images := [img], base := [img] }

/-- Core 0 computes run 0 of job 0, in block 0, with values in some registers. -/
def core1 : Core := { Core.reset with
  regs := ⟨[(2, ⟨7, false⟩), (3, ⟨2, false⟩), (4, ⟨0xFFFFFFFFFFFFFFFF, false⟩)], [(2, ⟨0x1FFFFF8, false⟩)], [(1, ⟨true, false⟩)], [], []⟩
  rn := { Core.reset.rn with mode := 1, c0 := ⟨true, 0, 0, false⟩ } }

def at1 (c : Core) : State := { State.reset with cores := [(0, c)], jobs := [(0, job1)] }

def s1 : State := at1 core1

/-- The same core in service mode, in block 2 of a handler. -/
def core2 : Core := { core1 with rn := { core1.rn with mode := 2, block := 2 } }

def s2 : State := at1 core2

/-- A word for core 0 without a guard, and one whose guard P1 = 0 does not hold. -/
def x0 : Issue := ⟨0, 0, 0, none⟩
def xg : Issue := ⟨0, 0, 0, some ⟨true, 1⟩⟩

def f0 : Arith := ⟨1, 2, 3, false, 0⟩
def fi : Arith := ⟨1, 2, 0, true, 5⟩
def t3 : TallyOp := ⟨false, 3, false⟩

/-- The words issue, and their guards let them act. -/
def allAct (s : State) (e : Engine) (lead : Bool) (l : List Instr) : Bool := l.all fun i => acts i s x0 e lead

/-! ### Operations of any engine -/

theorem test_idle : State.reset.pending = [] := rfl

theorem test_tally_ops : acts (.skip x0 .mxe) s1 x0 .mxe false = true
    ∧ nClean (issuing s1 x0 .vxe false) (.reg 3) = true ∧ acts (.tinc x0 .vxe t3 (.reg 3)) s1 x0 .vxe false = true
    ∧ nClean (issuing s1 x0 .dma1 false) (.imm 0) = true ∧ acts (.tdec x0 .dma1 ⟨true, 127, true⟩ (.imm 0)) s1 x0 .dma1 false = true
    ∧ nClean (issuing s1 x0 .seq false) (.imm 9) = true ∧ acts (.tset x0 ⟨true, 127, true⟩ (.imm 9)) s1 x0 .seq false = true := by
  decide +kernel

/-- A core whose tally 3 holds `v`, with one change waiting. -/
def coreTally (v : W32) (x : TChange) : Core := { Core.reset with tl := { Core.reset.tl with t := [(3, v)], chg := [x] } }
def chg (k : TKind) (n : W32) : TChange := ⟨false, 3, k, n, .seq, 0⟩

theorem test_tally_changes :
    (coreTally 5 (chg .set 0)).tl.chg = [chg .set 0]
    ∧ (tget 0 (coreTally 0xFFFFFFFF (chg .inc 0)).tl.t (tallyKey false 3)).toNat + 0 = 0xFFFFFFFF
    ∧ 0xFFFFFFFF < (tget 0 (coreTally 0xFFFFFFFF (chg .inc 1)).tl.t (tallyKey false 3)).toNat + (1 : W32).toNat
    ∧ (5 : W32).toNat ≤ (tget 0 (coreTally 5 (chg .dec 5)).tl.t (tallyKey false 3)).toNat
    ∧ (tget 0 (coreTally 5 (chg .dec 6)).tl.t (tallyKey false 3)).toNat < (6 : W32).toNat
    ∧ (coreTally 5 (chg .dec 6)).rn.stop = .no := by
  decide +kernel

theorem test_waits :
    (acts (.twait x0 .mxe t3 0 5) s1 x0 .mxe false = true
      ∧ (0 : W32).toNat ≤ ((issuing s1 x0 .mxe false).seenTally false (tallyIdx t3)).toNat)
    ∧ (acts (.twait x0 .mxe t3 1 5) s1 x0 .mxe false = true ∧ (issuing s1 x0 .mxe false).rn.mode = 1
      ∧ ((issuing s1 x0 .mxe false).seenTally false (tallyIdx t3)).toNat < (1 : W32).toNat
      ∧ (issuing s1 x0 .mxe false).tmo (tmoOf 5) ≠ some 0)
    ∧ (acts (.twait x0 .vxe t3 1 1) s2 x0 .vxe false = true ∧ (issuing s2 x0 .vxe false).rn.mode = 2
      ∧ ((issuing s2 x0 .vxe false).seenTally false (tallyIdx t3)).toNat < (1 : W32).toNat
      ∧ (issuing s2 x0 .vxe false).tmo (tmoOf 1) ≠ some 0)
    ∧ acts (.fence x0 .seq .full .core) s1 x0 .seq false = true
      ∧ (issuing s1 x0 .seq false).fenceOk (s1.env 0) .seq (fenceCode .full) (scopeCode .core) = true := by
  decide +kernel

/-- A core with a request of DMA1 that is not complete, and one that a wait of the MXE holds since this ccyc. -/
def sBusy (c : Core) : State := at1 { c with dm := { c.dm with txns := [⟨9, true, 3, 0, 0, false, false, 1, 1, 1, 0, 256, 0x700, 0, 0, false, false, 0, 0,
  none, true, [], false, [], none⟩] } }
def sShare : State := at1 { core1 with rn := { core1.rn with hold := some ⟨.mxe, .tally false 3 1, 0, none, 0⟩ } }

theorem test_waits_hold :
    (∀ s ∈ [sBusy core1, sBusy core2], acts (.fence x0 .dma1 .full .core) s x0 .dma1 false = true
      ∧ (issuing s x0 .dma1 false).rn.det = false ∧ scopeCode .core < 2
      ∧ (issuing s x0 .dma1 false).fenceOk (s.env 0) .dma1 (fenceCode .full) (scopeCode .core) = false)
    ∧ (acts (.twait x0 .vxe t3 1 5) sShare x0 .vxe false = true ∧ (issuing sShare x0 .vxe false).rn.mode = 1
      ∧ (issuing sShare x0 .vxe false).rn.hold ≠ none
      ∧ ((issuing sShare x0 .vxe false).seenTally false (tallyIdx t3)).toNat < (1 : W32).toNat
      ∧ (issuing sShare x0 .vxe false).tmo (tmoOf 5) ≠ some 0) := by
  decide +kernel

/-- The word's guard does not let it act. -/
def hushed (i : Instr) (e : Engine) : Bool :=
  fit i s1 && (arrived s1 xg e false).canIssue (s1.env 0) e && !(guarded s1 xg e false).2

theorem test_suppressed : hushed (.add xg f0) .seq = true ∧ hushed (.movi xg 1 5) .seq = true
    ∧ hushed (.st xg ⟨0, 2, 3, 3, false, false, 0⟩ []) .seq = true ∧ hushed (.ld xg ⟨1, 2, 0, 3, false, false, 0⟩ []) .seq = true
    ∧ hushed (.tinc xg .mxe t3 (.imm 1)) .mxe = true ∧ hushed (.twait xg .mse t3 1 0) .mse = true
    ∧ hushed (.dgo xg .inbound 3 ⟨true, 4⟩ 1) .dma0 = true ∧ hushed (.qsend xg 5 ⟨false, 0⟩ 0 2 false) .mse = true := by
  decide +kernel

/-! ### SEQ -/

theorem test_arithmetic : allAct s1 .seq false ([Instr.add, .sub, .and, .or, .xor, .shl, .shr, .sar, .mul].flatMap fun c =>
      [c x0 f0, c x0 fi]) = true
    ∧ allAct s1 .seq false [.movi x0 63 0x8000000000000000] = true
    ∧ clean (issuing s1 x0 .seq false) ⟨0, 2⟩ = true ∧ clean (issuing s1 x0 .seq false) ⟨0, 3⟩ = true := by
  decide +kernel

theorem test_comparisons : allAct s1 .seq false [.cmp x0 f0 0, .cmp x0 fi 5, .plog x0 7 1 2 0, .plog x0 0 1 0 4, .sel x0 f0 1] = true
    ∧ clean (issuing s1 x0 .seq false) ⟨0, 2⟩ = true ∧ clean (issuing s1 x0 .seq false) ⟨0, 3⟩ = true
    ∧ clean (issuing s1 x0 .seq false) ⟨2, 1⟩ = true ∧ clean (issuing s1 x0 .seq false) ⟨2, 2⟩ = true := by
  decide +kernel

theorem test_address_arithmetic : allAct s1 .seq false [.aadd x0 f0, .aadd x0 ⟨31, 2, 0, true, 8⟩, .amov x0 31 2, .sfroma x0 1 2,
      .movia x0 31 0xFFFFFFFFFFFF, .rdsys x0 1 0, .rdsys x0 1 7] = true
    ∧ clean (issuing s1 x0 .seq false) ⟨1, 2⟩ = true ∧ clean (issuing s1 x0 .seq false) ⟨0, 2⟩ = true
    ∧ clean (issuing s1 x0 .seq false) ⟨0, 3⟩ = true := by
  decide +kernel

/-- The last eight bytes of the scratchpad, at A2, and the byte beyond them. -/
def mTop : MemOp := ⟨1, 2, 3, 3, false, false, 0⟩
def mPast : MemOp := ⟨1, 2, 2, 3, false, false, 8⟩
def mOdd : MemOp := ⟨1, 2, 2, 3, false, false, 0xFFFFFFFF⟩

theorem test_loads_stores : allAct s1 .seq false [.ld x0 mTop [], .lda x0 mTop [], .st x0 mTop [], .sta x0 { mTop with b := 2 } [],
      .atom x0 mTop 0 false 0 [], .atom x0 mTop 4 true 3 []] = true
    ∧ (let k := issuing s1 x0 .seq false
       clean k ⟨1, 2⟩ = true ∧ clean k ⟨0, 3⟩ = true ∧ clean k ⟨5, 131071⟩ = true ∧ localAddr k mTop = 0x1FFFFF8
         ∧ localAddr k mTop % 8 = 0 ∧ localAddr k mTop / 256 = 131071) := by
  decide +kernel

theorem test_bad_addresses : allAct s1 .seq false [.ld x0 mPast [], .lda x0 mPast [], .st x0 mPast [], .sta x0 mPast [], .ld x0 mOdd []] = true
    ∧ (let k := issuing s1 x0 .seq false
       clean k ⟨1, 2⟩ = true ∧ clean k ⟨0, 2⟩ = true ∧ k.rn.stop = .no ∧ localAddr k mPast = 0x2000000
         ∧ localAddr k mOdd % 8 ≠ 0) := by
  decide +kernel

/-- A write under way of each kind that the statement names, and one at the end of its line. -/
def wAt (p : Payload) : PWrite := ⟨0, ⟨5, 131071⟩, 0, 2, .seq, 0, p, false⟩

theorem test_writes : core1.rn.audit = false ∧ (wAt (.bytes 255 [1] false)).pay = .bytes 255 [1] false ∧ 255 + [1].length ≤ 256
    ∧ (wAt (.s 1 true)).pay = .s 1 true ∧ (wAt (.a 1 true)).pay = .a 1 true ∧ (wAt (.pr true true)).pay = .pr true true := by
  decide

theorem test_branch : allAct s1 .seq false [.br x0 0 5 0 1 2, .br x0 1 2 0 1 2, .br x0 2 4 0 1 2, .br x0 3 0 1 1 2] = true
    ∧ (let k := issuing s1 x0 .seq false
       clean k ⟨0, 5⟩ = true ∧ clean k ⟨0, 2⟩ = true ∧ clean k ⟨0, 4⟩ = true ∧ clean k ⟨2, 1⟩ = true ∧ (sVal k 5).v = 0
         ∧ (sVal k 2).v ≠ 0 ∧ 2 ^ 63 ≤ (sVal k 4).v.toNat ∧ (pVal k 1).v = true) := by
  decide +kernel

/-! ### MXE and VXE -/

def l0 : LineOp := ⟨false, 0, 0⟩
/-- A line operand whose A register holds the byte address of line 131,071, with its offset 1: line 0. -/
def lWrap : LineOp := ⟨true, 2, 1⟩

theorem test_array_operations :
    allAct s1 .mxe true [.mldw x0 l0 0 false 0 [], .mldw x0 lWrap 3 true 131068 [], .mmul x0 l0 8 false 0 0 511 true [] [],
      .mmul x0 l0 4 true 131056 511 511 false [] [], .mraw x0 l0 0x800 511 []] = true
    ∧ (let k := issuing s1 x0 .mxe true
       k.rn.mode = 1 ∧ lineClean k l0 = true ∧ lineClean k lWrap = true ∧ lineOf k lWrap lWrap.line = 0
         ∧ lineOf k lWrap 131068 + 4 ≤ 131072 ∧ lineOf k l0 131056 + (511 + 32) / 32 ≤ 131072) := by
  decide +kernel

/-- An operation of two vectors in the array, of the 16-bit class or of the narrow one. -/
def mop (fmt : Nat) : MxOp := ⟨7, 1, 0, fmt, false, 0, 0, 2, 511, true, 0, 0, [], [], 0, false, true, false, [], []⟩
def coreArray (fmt : Nat) : Core := { core1 with mx := { core1.mx with ops := [mop fmt] } }

theorem test_vectors : (coreArray 8).mxOp 7 = some (mop 8) ∧ (coreArray 0).mxOp 7 = some (mop 0) ∧ (mop 8).kind = 1
    ∧ 0 + 1 < (mop 8).n := by decide +kernel

theorem test_results : (List.replicate 128 (⟨[], 0x3F800000, false⟩ : ColRes)).length = 128
    ∧ (tget TileMode.reset core1.mx.modes (511 / 64)).fp32 = true := by decide +kernel

theorem test_tile_clears : allAct s1 .mxe false [.mclr x0 7, .manc x0 0 0x800] = true ∧ (issuing s1 x0 .mxe false).rn.mode = 1
    ∧ ({ core1 with pev := [(0, .clear 7 ⟨false, -2048⟩)] } : Core).pev = [(core1.tm.p, .clear 7 ⟨false, -2048⟩)] := by
  decide +kernel

theorem test_beam_outputs : allAct s1 .mxe false [.mout x0 511 63 0 true, .mout x0 0 0 1 false, .mout x0 64 62 2 false,
      .mflg x0 7 63] = true ∧ (issuing s1 x0 .mxe false).rn.mode = 1 := by
  decide +kernel

theorem test_vector_loads : allAct s1 .vxe false [.vld x0 63 ⟨false, 0, 60⟩ false true [], .ocfill x0 511 ⟨false, 0, 130816⟩ true false [],
      .vldStrided x0 (.oc 511) l0 1 2 3 false [], .vldStrided x0 (.v 0) ⟨false, 0, 131071⟩ 0x3FFF 0 0 true [],
      .vldTranspose x0 48 l0 0 false false [], .vldTranspose x0 0 ⟨false, 0, 126976⟩ 2 true true []] = true
    ∧ (let k := issuing s1 x0 .vxe false
       lineClean k l0 = true ∧ (∀ y ∈ fourFrom 60 false ++ fourFrom 130816 true ++ [0, 1, 2, 3, 131068, 131069, 131070, 131071],
         clean k ⟨5, y⟩ = true) ∧ 60 % 64 ≤ 60 ∧ 130816 / 64 ≤ 2044 ∧ (0 : Int) ≤ 131071 + 3 * (0x3FFF : BitVec 14).toInt
         ∧ 126976 / 64 + 64 ≤ 2048) := by
  decide +kernel

theorem test_transposed : (List.replicate 64 LineVal.zero).length = 64 ∧ 15 < 16 ∧ 3 < 4 ∧ 63 < 64 := by decide

theorem test_vector_stores : allAct s1 .vxe false [.vst x0 63 ⟨false, 0, 60⟩ false, .vst x0 0 ⟨false, 0, 130816⟩ true, .ocput x0 63 511,
      .lutld x0 2 3 511] = true
    ∧ (let k := issuing s1 x0 .vxe false
       clean k ⟨3, 63⟩ = true ∧ clean k ⟨3, 0⟩ = true ∧ clean k ⟨0, 2⟩ = true ∧ clean k ⟨0, 3⟩ = true ∧ clean k ⟨4, 511⟩ = true
         ∧ (sVal k 2).p = false ∧ (sVal k 3).p = false) := by
  decide +kernel

def vop0 : VopFields := ⟨0, 63, ⟨1, 0⟩, ⟨0, 0⟩, ⟨0, 0⟩, ⟨0, 0⟩, 63, true, 0, false, 0⟩

theorem test_chain : acts (.vop x0 vop0) s1 x0 .vxe true = true
    ∧ (s1.env 0).img.chains[vop0.chain.toNat]? = some 0 ∧ vop0.srca.kind ≠ 3 := by
  decide +kernel

def lanes0 : List Lane := List.replicate 256 ⟨0x3F800000, false⟩

theorem test_lanes : lanes0.length = 256 ∧ 255 < 256 ∧ 15 < 16 := by decide +kernel

/-- SHF with the pattern that reverses a group: lane 0 of each group takes lane 15 (04 R119). -/
theorem test_shuffle : ((stageShf 0x0123456789ABCDEF ((List.range 256).map fun i => ⟨BitVec.ofNat 32 i, false⟩))[32]?.map
    fun x => x.1.v.toNat) = some 47 := by decide +kernel

/-! ### DMA0, DMA1 and MSE -/

/-- A descriptor of one fill: `src`, `dst` and `len` in bytes, with the word at 0x14, PACE and FPACE 1, and CSLOT 8. -/
def desc (src dst len flags : Nat) : List Byte :=
  leBytes src 8 ++ leBytes dst 8 ++ ([len, flags, 1, 1, 1, 1, 1] ++ List.replicate 10 0 ++ [1, 1, 0, 8, 0, 0, 0] ++
    List.replicate 4 0).flatMap fun w => leBytes w 4

/-- A slot in a state, with an ELASTIC descriptor. -/
def slotAt (n : Nat) : Slot := { Slot.idle with state := n, desc := desc 0x700 0x1FFFF00 256 1 }
def slotSched (n : Nat) : Slot := { Slot.idle with state := n, desc := desc 0x700 0x1FFFF00 256 0 }
def coreSlot (x : Slot) : Core := { core1 with dm := { core1.dm with slots := [(3, x), (19, x)] } }
def sSlot (x : Slot) : State := at1 (coreSlot x)

def dl (e : Dma) : Instr := .dload x0 e 3 0
def db (e : Dma) : Instr := .dbase x0 e 3 true 2 true
def dg (e : Dma) : Instr := .dgo x0 e 3 ⟨true, 5⟩ 1

theorem test_slot_operations : (desc 0 0 0 0).length = 128
    ∧ (∀ e ∈ [Dma.inbound, .outbound],
      (acts (dl e) (sSlot (slotAt 0)) x0 e.engine false = true ∧ ((issuing (sSlot (slotAt 0)) x0 e.engine false).slot e 3).state = 0)
      ∧ (acts (dl e) (sSlot (slotAt 1)) x0 e.engine false = true ∧ ((issuing (sSlot (slotAt 1)) x0 e.engine false).slot e 3).state = 1)
      ∧ ((sSlot (slotAt 0)).env 0).img.descs[0]?.isSome = true ∧ ((sSlot (slotAt 0)).env 0).set < 1
      ∧ acts (db e) (sSlot (slotAt 1)) x0 e.engine false = true
      ∧ acts (.dbase x0 e 3 false 4 false) (sSlot (slotAt 1)) x0 e.engine false = true
      ∧ clean (issuing (sSlot (slotAt 1)) x0 e.engine false) ⟨0, 2⟩ = true
      ∧ clean (issuing (sSlot (slotAt 1)) x0 e.engine false) ⟨0, 4⟩ = true
      ∧ acts (dg e) (sSlot (slotAt 1)) x0 e.engine false = true ∧ dSched (slotAt 1).desc = false
      ∧ (issuing (sSlot (slotAt 1)) x0 e.engine false).rn.det = false
      ∧ acts (dg e) (sSlot (slotSched 1)) x0 e.engine false = true ∧ dSched (slotSched 1).desc = true
      ∧ (issuing (sSlot (slotSched 1)) x0 e.engine false).rn.mode = 1) := by
  decide +kernel

theorem test_wrong_slot : ∀ e ∈ [Dma.inbound, .outbound], ∀ n ∈ [0, 2, 3],
    ([dl e, db e, dg e].all fun i => acts i (sSlot (slotAt n)) x0 e.engine false) = true
      ∧ (issuing (sSlot (slotAt n)) x0 e.engine false).rn.stop = .no
      ∧ ((issuing (sSlot (slotAt n)) x0 e.engine false).slot e 3).state = n := by
  decide +kernel

/-- S4 holds the address of the last 8 bytes of user HBM, S2 and S3 the operands. -/
def sAtom : State := at1 { core1 with regs := { core1.regs with s := [(2, ⟨7, false⟩), (3, ⟨2, false⟩), (4, ⟨0x011DFFFFFFF8, false⟩)] } }
def da (op : BitVec 3) (w8 : Bool) (sc : Scope) : DatomFields := ⟨4, 2, 3, w8, op, true, sc, 131071, true, 127⟩

theorem test_datom : (∀ f ∈ [da 0 true .dev, da 4 false .fab], acts (.datom x0 f) sAtom x0 .dma1 false = true)
    ∧ (let k := issuing sAtom x0 .dma1 false
       clean k ⟨0, 4⟩ = true ∧ clean k ⟨0, 2⟩ = true ∧ clean k ⟨0, 3⟩ = true
         ∧ remotePlace (sAtom.env 0) (sVal k 4).v.toNat = .hbm 0x011DFFFFFFF8 ∧ (sVal k 4).v.toNat % 8 = 0
         ∧ k.elasOut < 512 ∧ k.dm.txns = []) := by
  decide +kernel

def sDma (x : Slot) (t : List Txn) (now : Nat) : State :=
  let c := coreSlot x
  at1 { c with tm := ⟨now, now⟩, dm := { c.dm with txns := t } }

theorem test_request_issue : ∀ x ∈ [slotAt 2, slotSched 2],
    (let s := sDma x [] 4
     let k := requesting s 0 0 .inbound
     let sl := k.slot .inbound 3
     fit (.dmaRequestIssue 0 0 .inbound 3 []) s = true ∧ sl.state = 2 ∧ sl.fault = false ∧ sl.pos < dBytes sl.desc ∧ k.rn.stop = .no
       ∧ k.gateOk sl.desc false (sl.pos / dFill sl.desc) = true ∧ dMcast sl.desc = false
       ∧ nextRequest (s.env 0) sl.desc false sl.pos = (.hbm 0x700, 0x700, 0x1FFFF00, 256) ∧ 0x1FFFF00 + 256 ≤ 0x2000000
       ∧ k.held = false ∧ k.schedOut < 1536 ∧ k.tm.p = sl.at0 + 4 + sl.pos / dFill sl.desc * dFpace sl.desc + sl.rix * dPace sl.desc
       ∧ k.elasOut < 512 ∧ k.overlapped (s.env 0) .inbound 0x700 256 = false) := by
  decide +kernel

/-- An outbound request of one piece that waits for its acknowledgement. -/
def txnOut : Txn :=
  ⟨9, true, 3, 0, 0, false, false, 1, 0, 0, 0, 256, 0x700, 0, 0, false, false, 0, 0, none, true, [], false, [], none⟩

theorem test_request_complete :
    (let s := { sDma (slotAt 2) [txnOut] 4 with plane := [(1, some (.answer 0 ⟨9, .ok, 0, 0, 0⟩))] }
     fit (.dmaRequestComplete 0 0 9) s = true ∧ findAnswer 0 9 s.plane = some (1, ⟨9, .ok, 0, 0, 0⟩)
       ∧ (reached s 0 0).txn 9 = some txnOut ∧ (reached s 0 0).dm.txns.all (·.sent) = true) := by
  decide +kernel

theorem test_fill_complete : ∀ e ∈ [Dma.inbound, .outbound],
    (let s := sDma { slotAt 2 with pos := 256, head := 1, raise := true, tally := 127, inc := 5 } [] 4
     fit (.fillComplete 0 0 e 3) s = true ∧ (reached s 0 0).fillDone e 3 = true) := by
  decide +kernel

def sctx (state cls : Nat) (mcast : Bool) (l : List SMember) : SCtx := ⟨state, cls, 5, 0xFFFFFFFF, mcast, l⟩
def sMs (x : SCtx) (outs : List SendOut) : State :=
  at1 { core1 with ms := { core1.ms with ctx := [(4095, x)], outs := outs } }

theorem test_contexts : (∀ cls ∈ [(0 : BitVec 2), 1, 2, 3],
      acts (.qopen x0 4095 cls ⟨true, 5⟩ 4095 0xFFFFF) (sMs SCtx.closed []) x0 .mse false = true)
    ∧ ((issuing (sMs SCtx.closed []) x0 .mse false).sctx 4095).state = 0
    ∧ (issuing (sMs SCtx.closed []) x0 .mse false).elasticSends < 256
    ∧ (let s := sMs (sctx 2 1 false []) []
       acts (.qclose x0 4095 ⟨false, 0⟩) s x0 .mse false = true ∧ ((issuing s x0 .mse false).sctx 4095).state = 2
         ∧ ((issuing s x0 .mse false).sctx 4095).mcast = false ∧ (issuing s x0 .mse false).ms.outs = []) := by
  decide +kernel

theorem test_sends :
    (∀ x ∈ [sctx 2 0 false [⟨64, 5, 80⟩], sctx 2 1 true [⟨0, 5, 0⟩, ⟨1, 6, 0⟩]],
      (let s := sMs x []
       let k := issuing s x0 .mse false
       acts (.qsend x0 4095 ⟨true, 3⟩ 7 56 x.mcast) s x0 .mse false = true ∧ (k.sctx 4095) = x ∧ k.elasticSends < 256
         ∧ (∀ j ∈ List.range 8, clean k ⟨0, 56 + j⟩ = true) ∧ (x.cls = 0 → ∀ m ∈ x.members, 16 * ((8 + 8 * 8 + 15) / 16) ≤ m.credit)))
    ∧ (∀ x ∈ [sctx 2 2 false [⟨64, 5, 0⟩], sctx 2 3 false [⟨64, 5, 0⟩]], ∀ vk ∈ [(0 : BitVec 2), 1],
      (let s := sMs x []
       let k := issuing s x0 .mse false
       acts (.qcsend x0 4095 ⟨true, 3⟩ vk 3 2) s x0 .mse false = true ∧ (k.sctx 4095) = x ∧ k.elasticSends < 256
         ∧ clean k ⟨0, 3⟩ = true ∧ clean k ⟨0, 4⟩ = true ∧ clean k ⟨0, 2⟩ = true)) := by
  decide +kernel

def qans (op : Nat) (st : Status) : QAns := ⟨0, 4095, 64, op, st, 80, 7, none⟩
def sendOut (op : Nat) : SendOut := ⟨4095, 7, op, true, 127, 1, 0, 0, true, false⟩

/-- Credit that comes back, and the last answers of a QSEND and of a QCSEND, which accept it or refuse it. -/
theorem test_queue_answer : ∀ x ∈ [(5, Status.ok, ([] : List SendOut)), (2, .ok, [sendOut 2]), (3, .erefused, [sendOut 3])],
    (let s := { sMs (sctx 2 0 false [⟨64, 5, 0⟩]) x.2.2 with plane := [(1, some (.qans (qans x.1 x.2.1)))] }
     fit (.queueAnswer 0 0 1) s = true ∧ s.msg 1 = some (.qans (qans x.1 x.2.1)) ∧ (reached s 0 0).rn.stop = .no
       ∧ ((reached s 0 0).sctx 4095).state = 2 ∧ (qans x.1 x.2.1).core = 0
       ∧ (reached s 0 0).ms.outs.find? (isFor (qans x.1 x.2.1)) = x.2.2.head?) := by
  decide +kernel

/-! ### Holds, blocks, handlers and runs -/

/-- Core 0 in ccyc `now`, with a value in T3. -/
def coreT (c : Core) (now : Nat) (v : W32) : Core := { c with tm := ⟨now, now⟩, tl := { c.tl with t := [(3, v)] } }
def w3 : Wait := ⟨.mxe, .tally false 3 1, 0, some 5, 0⟩
def sHold (v : W32) (now : Nat) : State := at1 { coreT core1 now v with rn := { core1.rn with hold := some w3 } }
def sWait : State := at1 { coreT core2 5 1 with rn := { core2.rn with waits := [w3] } }

theorem test_holds :
    (let s := sHold 1 1
     let k := reached s 0 0
     fit (.holdEnd 0 0) s = true ∧ (1 : W32).toNat ≤ (k.seenTally false 3).toNat ∧ w3.live k.tm.now = true ∧ k.rn.hold = some w3
       ∧ k.rn.waits = [] ∧ w3.start < k.tm.now)
    ∧ (let k := reached sWait 0 0
     fit (.holdEnd 0 0) sWait = true ∧ (1 : W32).toNat ≤ (k.seenTally false 3).toNat ∧ w3.live k.tm.now = true ∧ k.rn.hold = none
       ∧ k.rn.waits = [w3])
    ∧ (let s := sHold 0 5
     let k := reached s 0 0
     fit (.waitTimeout 0 0 .mxe) s = true ∧ (k.seenTally false 3).toNat < (1 : W32).toNat ∧ k.rn.hold = some w3
       ∧ 5 ≤ k.tm.now - w3.start ∧ k.rn.stop = .no) := by
  decide +kernel

/-- Core 0 at the end of a block: scheduled in ccyc 64, or in service mode. -/
def sBlock (c : Core) (n : Nat) : State := at1 { c with tm := ⟨64, 64⟩, rn := { c.rn with block := n } }

theorem test_blocks : (∀ n ∈ [0, 1],
      (let k := reached (sBlock core1 n) 0 0
       fit (.blockBoundary 0 0) (sBlock core1 n) = true ∧ img.blocks[k.rn.block]?.map (·.next) = some (if n = 0 then 1 else 0xFFFF)
         ∧ k.rn.mode = 1 ∧ k.held = false ∧ k.rn.begin0 + 64 ≤ k.tm.p ∧ k.rn.stop = .no))
    ∧ ∀ n ∈ [3, 4],
      (let s := sBlock core2 n
       let k := reached s 0 0
       fit (.serviceBlockEnd 0 0) s = true ∧ img.blocks[k.rn.block]?.map (·.next) = some (if n = 4 then 1 else 0xFFFF)
         ∧ k.rn.mode = 2 ∧ k.rn.waits = [] ∧ k.pend = [] ∧ k.pev = [] ∧ k.rn.begin0 ≤ k.tm.p ∧ k.rn.stop = .no
         ∧ k.ms.handler = none ∧ (s.core 0).ms.handler = none ∧ (s.env 0).opWait = false ∧ k.rn.hnext = none ∧ k.rn.startCtx = none
         ∧ (s.assignAt 0).nextRecord 0 s.recNo = none) := by
  decide +kernel

def hand : Handler := ⟨0, 5, 0, 0, 50⟩
def sHandler (now : Nat) : State :=
  at1 { core2 with tm := ⟨now, now⟩, ms := { core2.ms with handler := some hand } }

theorem test_handler_end :
    (let s := sHandler 64
     let k := reached s 0 0
     fit (.serviceBlockEnd 0 0) s = true ∧ img.blocks[k.rn.block]?.map (·.next) = some 0xFFFE ∧ k.rn.mode = 2 ∧ k.rn.waits = []
       ∧ k.pend = [] ∧ k.pev = [] ∧ k.rn.begin0 ≤ k.tm.p ∧ k.rn.stop = .no ∧ k.ms.handler = some hand
       ∧ (s.core 0).ms.handler = some hand ∧ k.rn.startCtx = none ∧ k.rn.after = none) := by
  decide +kernel

/-- A record of eight words of queue 5 that core 0 may dispatch. -/
def rec0 : PRec := ⟨0, 0x1000, 80, 0x89, List.replicate 8 0xFFFFFFFFFFFFFFFF, false, some 0, none, false, true, false⟩
def sRec : State :=
  { at1 { core1 with rn := { core1.rn with mode := 0 } } with queues := [(5, { Queue.zero with state := 1, recs := [rec0] })], recNo := 2 }

theorem test_dispatch :
    (let s1 := sRec.onCore 0 fun env k => k.comeTo env 0
     let k := s1.core 0
     fit (.handlerDispatch 0 0) sRec = true ∧ k.rn.mode = 0 ∧ k.ms.handler = none ∧ k.rn.stop = .no ∧ k.rn.startCtx = none
       ∧ s1.nextRecord 0 (s1.dispatchLimit 0) = some (5, rec0) ∧ rec0.ready = true ∧ (s1.queue 5).hmode = false ∧ (s1.queue 5).hidx = 0
       ∧ (s1.env 0).img.handlers[0]? = some ⟨2, true, 50⟩ ∧ s1.mayHandle k.rn.job 50 = true)
    ∧ (let s := sHandler 51
       let k := reached s 0 0
       fit (.handlerBudgetExpiry 0 0) s = true ∧ k.ms.handler = some hand ∧ hand.budget < k.tm.now - hand.at0
         ∧ k.rn.stop = .no) := by
  decide +kernel

/-- A run of job 0, begun and at END, on set 1. -/
def run0 (n : Nat) : Run := ⟨n, 0, 1, 0, 0, [], [], 0, 0, none, 0, none, none, false, none, 0, 0, 0, 7, 0⟩
def per0 : Periodic := ⟨60, 1, 0, 2, 0, 100, 3, 0, 0, false⟩
def sJob (j : Job) (tbt : W64) : State :=
  { at1 { core1 with rn := { core1.rn with mode := 0, c0 := { core1.rn.c0 with done := true } } } with
    jobs := [(0, j)], clk := { State.reset.clk with tbt := tbt } }
def jPer (l : List Run) : Job := { job1 with per := some per0, live := l, runIdx := 3 }

/-- A core's copy of the timebase is within 8 ticks of the count, whatever its skew. -/
theorem copy_range (s : State) (n t : Nat) (h : s.clk.tbt = BitVec.ofNat 64 t) (h8 : 8 ≤ t) (ht : t < 2 ^ 32) :
    t ≤ (s.copyTbt n).toNat + 8 ∧ (s.copyTbt n).toNat ≤ t + 8 := by
  unfold State.copyTbt
  rw [h]
  have hr := Nat.mod_lt (Config.copySkew n (s.island n).skew) (show 0 < 17 by decide)
  generalize Config.copySkew n (s.island n).skew % 17 = r at hr
  have h3 : (8 : W64).toNat = 8 := rfl
  split
  · simp only [BitVec.toNat_sub, BitVec.toNat_add, BitVec.toNat_ofNat, h3]
    omega
  · simp only [BitVec.toNat_ofNat]
    omega

theorem reached_late (s : State) (job k n t : Nat) (hk : k ∈ (s.job job).placement) (h : s.clk.tbt = BitVec.ofNat 64 n) (hn : n < 2 ^ 32)
    (h8 : 8 ≤ n) (ht : t + 8 ≤ n) : s.reached job t = true := by
  have := copy_range s (s.phys k) n h h8 hn
  simp only [State.reached, List.any_eq_true, decide_eq_true_eq]
  exact ⟨k, hk, by omega⟩

theorem test_starts : per0.epoch + per0.tick * per0.den * 4000000000 / per0.num = 200000000
    ∧ (∀ l ∈ [[], [run0 1, run0 2]],
      (let s := sJob (jPer l) 200000008
       fit (.frameTick 0) s = true ∧ s.pins.trip = false ∧ s.clk.stopped = false ∧ (s.job 0).per = some per0 ∧ (s.job 0).state = 4
         ∧ (s.job 0).live = l))
    ∧ (let s := sJob { job1 with starts := [⟨7, 100, 1, 50⟩] } 108
       fit (.startAtTbt 0) s = true ∧ (s.job 0).starts = [⟨7, 100, 1, 50⟩] ∧ (s.job 0).live = []) := by
  decide +kernel

theorem test_reached (l : List Run) : (sJob (jPer l) 200000008).reached 0 200000000 = true
    ∧ (sJob { job1 with starts := [⟨7, 100, 1, 50⟩] } 108).reached 0 100 = true :=
  ⟨reached_late _ 0 0 200000008 _ (List.mem_singleton.2 rfl) rfl (by decide) (by decide) (by decide),
    reached_late _ 0 0 108 _ (List.mem_singleton.2 rfl) rfl (by decide) (by decide) (by decide)⟩

theorem test_retire :
    (let s := sJob { job1 with live := [run0 0] } 100
     let s := s.setRing 0 { Ring.zero with ctrl := 1 ||| 4 <<< 7 }
     fit (.runRetire 0 0) s = true ∧ (s.job 0).live.find? (fun y => y.idx = 0) = some (run0 0) ∧ s.canRetire 0 (run0 0) = true
       ∧ (s.ring 0).en = true ∧ (s.ring 0).full = false) := by
  decide +kernel

/-! ### The landing unit -/

def pkt0 (kind : PktKind) : LinePkt := ⟨0x1FFFF80, [1, 2, 3], false, false, ⟨1, 2, true⟩, kind, .core 0 9, none, none⟩
/-- The last line is in window 5, open to SRC `n`; packet 1 is under way to core 0. -/
def sLand (kind : PktKind) (n : Nat) : State :=
  { at1 { core1 with lu := { core1.lu with win := [(5, ⟨131071, 1, n, false⟩)] } } with plane := [(1, some (.line 0 (pkt0 kind)))] }

theorem test_arrival : ∀ kind ∈ [PktKind.dma, .datom, .host, .write, .record 5],
    (let s := sLand kind 3
     fit (.landingArrival 0 0 1) s = true ∧ s.msg 1 = some (.line 0 (pkt0 kind)) ∧ s.inTurn 1 (.line 0 (pkt0 kind)) = true
       ∧ s.fenced = false ∧ (s.core 0).lu.level + (splitLines 0x1FFFF80 [1, 2, 3]).length ≤ 256
       ∧ ((reached s 0 0).lu.check 0x1FFFF80 3 true).toOption = some 5) := by
  decide +kernel

theorem test_rejected : (((reached (sLand .write 1) 0 0).lu.check 0x1FFFF80 3 true).toOption = none)
    ∧ ((reached (sLand .write 0) 0 0).lu.check 0x1FFFF80 3 true).toOption = none
    ∧ ((reached (sLand .write 3) 0 0).lu.check 0 3 true).toOption = none := by
  decide +kernel

/-- What a core does for the planes at the end of a ccyc: nothing is under way but what `f` puts there. -/
def sEnd (f : Landing → Landing) : State := at1 { core1 with lu := f core1.lu }

def held0 : Held := ⟨4, pkt0 .write, [(0x1FFFF80, [1, 2, 3])], some 5⟩

theorem test_placement :
    (fit (.landingPlacement 0 0 []) (sEnd id) && fit (.remoteReadServe 0 0 []) (sEnd id) && fit (.landingAtomic 0 0 []) (sEnd id)) = true
    ∧ (let c := (sEnd fun l => { l with buf := [held0], place := some [] }).core 0
       c.lu.place = some [] ∧ c.lu.serve = none ∧ c.lu.atom = none ∧ c.lu.atomW = none
         ∧ c.lu.order.head? = some (held0, 0x1FFFF80, [1, 2, 3]) ∧ held0.pkt.walk = none ∧ c.lu.earlier 4 (0x1FFFF80 / 256) = false
         ∧ c.atomOn (0x1FFFF80 / 256) = false ∧ c.portFree true (0x1FFFF80 / 256) = true)
    ∧ (pkt0 .write).kind = .write := by
  decide +kernel

def remote0 (m : MemReq) : Request := ⟨0x100001FFFF80, m, false, none, 0, ⟨1, 2, true⟩, [], .core 0 9⟩
def op8 (n : BitVec 3) (w8 : Bool) : AtomOp := ⟨w8, n, true, 5, 6, false⟩
def atomW0 : AtomW := ⟨0x1FFFF80, [1, 2, 3, 4], false, .core 0 9, [0, 0, 0, 0, 0, 0, 0, 0], false⟩

theorem test_remote :
    (let r := remote0 (.read 128)
     let c := (sEnd fun l => { l with remote := [(4, r)], serve := some [] }).core 0
     c.lu.remote = [(4, r)] ∧ c.lu.place = none ∧ c.lu.atomW = none ∧ c.lu.serve = some [] ∧ c.lu.atom = none
       ∧ r.dpa % 0x2000000 = 0x1FFFF80 ∧ c.portFree false (0x1FFFF80 / 256) = true ∧ 0x1FFFF80 % 256 + 128 ≤ 256)
    ∧ (∀ o ∈ [op8 0 true, op8 4 false],
      (let r := remote0 (.atom o)
       let c := (sEnd fun l => { l with remote := [(4, r)], atom := some [] }).core 0
       c.lu.remote = [(4, r)] ∧ c.lu.place = none ∧ c.lu.atomW = none ∧ c.lu.serve = none ∧ c.lu.atom = some []
         ∧ r.dpa % 0x2000000 % 8 = 0 ∧ c.portFree false (0x1FFFF80 / 256) = true ∧ c.landingOn (0x1FFFF80 / 256) = false
         ∧ c.lu.earlier 4 (0x1FFFF80 / 256) = false))
    ∧ (let c := (sEnd fun l => { l with atomW := some atomW0 }).core 0
       c.lu.atomW = some atomW0 ∧ c.portFree true (0x1FFFF80 / 256) = true ∧ c.lu.place = none ∧ c.lu.serve = none
         ∧ c.lu.atom = none) := by
  decide +kernel

/-! ### HBM and its calendars -/

/-- A request to the last bytes of a granule of pseudo-channel 767, in hub 3. -/
def dpa0 : Nat := 2048 * 767 + 2040
def req0 (m : MemReq) (slot : Option Nat) : Request :=
  ⟨dpa0, m, slot.isSome, slot, 0, ⟨0, 0, false⟩, [], .none⟩
def resv0 (q : List Request) : Resv := { Resv.free with valid := true, dir := 2, queues := [(767, q)] }
/-- Message 1 is for a hub; entry 62 of the pseudo-channel is RESERVED to reservation 9. -/
def sHub (r : Request) (q : List Request) : State :=
  { State.reset with
    plane := [(1, some (.hub r))]
    hbm := { State.reset.hbm with cal := [(64 * 767 + 62, ⟨1, 9, false, 0, 0⟩)], resv := [(9, resv0 q)] } }

def rd8 : Request := req0 (.read 8) (some 496)
def wr8 : Request := req0 (.write (List.replicate 8 7) (List.replicate 8 false)) (some 503)

theorem test_hub_arrivals :
    (∀ r ∈ [rd8, wr8], ∀ q ∈ [[], List.replicate 8 rd8],
      (let s := sHub r q
       let slot := r.resv.getD 0
       s.msg 1 = some (.hub r) ∧ s.inTurn 1 (.hub r) = true ∧ (s.hub 3).cfence = false ∧ r.reply = .none ∧ (Instr.schedRequestArrival 1).wf = true ∧ r.dpa / 2048 % 768 = 767
         ∧ (s.hbm.entry 767 (slot / 8)).kind = 1 ∧ (s.hbm.res (s.hbm.entry 767 (slot / 8)).res).admits r.req = true
         ∧ r.dpa % 2048 + r.req.len ≤ 2048 ∧ (tget [] (s.hbm.res 9).queues 767).length = q.length))
    ∧ (sHub (req0 (.read 8) (some 8)) []).hbm.entry 767 1 = CalEntry.elastic
    ∧ (let s := sHub (req0 (.read 8) none) []
       s.msg 1 = some (.hub (req0 (.read 8) none)) ∧ s.inTurn 1 (.hub (req0 (.read 8) none)) = true ∧ (Instr.elasticRequestArrival 1).wf = true
         ∧ (s.hbm.queueOf 767).reqs.length < 64) := by
  decide +kernel

/-- At the cut-off of run 62 after TBT 0. -/
def cutting (s : State) : State :=
  { s with clk := { s.clk with run := true, tbt := 256 * 62 - 128 }, hubs := [(3, { Hub.reset with calRun := true })] }
def sRes (r : Request) : State := cutting (sHub r [r])
def sEl (r : Request) : State :=
  cutting { State.reset with hbm := { State.reset.hbm with el := [(767, ⟨[⟨3, r⟩], 3⟩)] } }

theorem test_cutoff : ∀ r ∈ [rd8, wr8, req0 (.atom (op8 4 true)) none],
    (∀ s ∈ [sRes r, sEl r], (Instr.runCutoff 767 62 []).wf = true ∧ s.clk.run = true ∧ (s.clk.tbt.toNat + 128) / 2 % 128 = 0
      ∧ (s.clk.tbt.toNat + 128) / 256 % 64 = 62 ∧ tget 0 s.hbm.last 767 ≤ 62 ∧ (s.hub (767 % 12 / 3)).calRun = true)
    ∧ ((sRes r).hbm.entryAt 767 62).kind = 1 ∧ tget [] ((sRes r).hbm.res 9).queues 767 = [r]
    ∧ ((sEl r).hbm.entryAt 767 62).kind = 0 ∧ (sEl r).hbm.queueOf 767 = ⟨[⟨3, r⟩], 3⟩
    ∧ 3 < 4 ∧ 0 < 8 ∧ r.dpa % 2048 + 8 ≤ 2048 ∧ r.dpa < 0x011E00000000 ∧ r.dests = [] := by
  decide +kernel

def egr0 : Egress := ⟨767, 511, 256, 0, [1, 2], false, { req0 (.read 2) none with dests := [⟨5, 64, .dma⟩] }⟩
def ack0 : WrAck := ⟨4, 256, 767, 511, true, .core 0 9, 8⟩
def sLeave : State :=
  { sDma (slotAt 2) [txnOut] 4 with
    clk := { State.reset.clk with tbt := 976 }
    plane := [(1, some (.line 0 { pkt0 .dma with sched := true, cal := some (767, 511) }))]
    hbm := { State.reset.hbm with egress := [egr0], acks := [ack0], store := [(767, 12)] }, nextId := 2 }

theorem test_leaves : (Instr.hbmReadEgress 767 511).wf = true ∧ egr0.tbt + 720 ≤ sLeave.clk.tbt.toNat
    ∧ (Instr.hbmWriteAck 4).wf = true ∧ ack0.tbt ≤ sLeave.clk.tbt.toNat ∧ (sLeave.core 0).txn 9 = some txnOut
    ∧ (Instr.hbmUePoisonStore 767).wf = true ∧ (sLeave.hbm.entry 767 (sLeave.clk.tbt.toNat / 256 % 64)).kind = 0
    ∧ (Instr.linkRetry 1).wf = true ∧ (Instr.linkSlip 1).wf = true
    ∧ sLeave.msg 1 = some (.line 0 { pkt0 .dma with sched := true, cal := some (767, 511) }) ∧ sLeave.fl.mutes = false := by
  decide +kernel

/-- A change of entry 62 of the last pseudo-channel is pending when frame 1 begins. -/
def sFrame : State :=
  { sHub rd8 [] with
    clk := { State.reset.clk with run := true, tbt := 16384 }
    hbm := { State.reset.hbm with cal := [(64 * 767 + 62, ⟨1, 9, true, 0, 0⟩)], resv := [(9, { resv0 [] with gone := true })] } }

theorem test_frames : Instr.calendarFrameBoundary.wf = true ∧ sFrame.clk.run = true
    ∧ (sFrame.hub 0).frame.toNat < sFrame.clk.tbt.toNat / 16384 ∧ twf CalEntry.elastic sFrame.hbm.cal = true
    ∧ (sFrame.hbm.entry 767 62).pend = true
    ∧ (Instr.patrolScrub (hubOf (0x23FFFFFF % 768)) 0x23FFFFFF).wf = true ∧ 2048 * 0x23FFFFFF < 0x012000000000
    ∧ (sFrame.hbm.queueOf (0x23FFFFFF % 768)).reqs.length < 64 := by
  decide +kernel

/-! ### Placers -/

def qreq (core : Nat) (op : QOp) : QReq := ⟨0xFFFFF, 0, core, 5, 64, 0, op, .queue 7 5 64 2 9, 8000⟩
def conn0 (cls : Nat) : Conn := ⟨0, 7, 5, 64, cls⟩
/-- Queue 0xFFFFF: PLAIN, of 1 KiB, with 160 bytes of credit for each scheduled connection. -/
def q0 : Queue := { Queue.zero with state := 1, rlog := 10, rbase := 0x4000, scred := 160, maxconn := 2, hbm := true }
def sQueue (q : Queue) (op : QOp) (core : Nat := 7) : State :=
  { State.reset with queues := [(0xFFFFF, q)], plane := [(1, some (.queue (qreq core op)))], nextId := 2 }

theorem test_opens :
    (∀ x ∈ [(q0, 7, 0), (q0, 7, 1), ({ q0 with kind := 1 }, 7, 2), ({ q0 with kind := 1 }, 7, 3), (q0, 0xFF, 3),
        ({ q0 with scred := 0 }, 0xFF, 3)],
      (let q := x.1
       let s := sQueue q (.opn x.2.2) x.2.1
       let c := if x.2.1 = 0xFF then (if q.scred ≠ 0 then 0 else 1) else x.2.2
       s.queueReq 1 = some (qreq x.2.1 (.opn x.2.2)) ∧ s.forDie (qreq x.2.1 (.opn x.2.2)) = false
         ∧ (Instr.placerOpenRequest 1).wf = true ∧ (s.queue 0xFFFFF).state = 1 ∧ (s.job q.job).state ≠ 2 ∧ 0 = s.fab.devId
         ∧ (c < 2 ↔ q.kind ≠ 1) ∧ q.conns.length < q.maxconn ∧ s.readerFree q 0xFFFFF = true
         ∧ (c = 0 → q.scred ≠ 0 ∧ q.reserved + q.scred + 64 ≤ 2 ^ q.rlog / 2)
         ∧ s.memberCause q (qreq x.2.1 (.opn x.2.2)) c = none))
    ∧ (∀ n ∈ [0, 2], ((sQueue { q0 with state := n } (.opn 0)).queue 0xFFFFF).state ≠ 1
      ∧ (sQueue { q0 with state := n } (.opn 0)).queueReq 1 = some (qreq 7 (.opn 0)))
    ∧ (sQueue q0 .close).queueReq 1 = some (qreq 7 .close) ∧ (Instr.placerClose 1).wf = true := by
  decide +kernel

def words2 : List W64 := [5, 6]
def send2 : QOp := .send 9 words2 true

theorem test_places : 16 * ((8 + 8 * words2.length + 15) / 16) = 32 ∧ (Instr.placerSend 1).wf = true
    ∧ (∀ x ∈ [(0, 0, 0), (1, 0, 0), (1, 0, 1), (1, 1, 1)],
      (let s := sQueue { q0 with
        conns := [conn0 x.1], policy := x.2.1, tail := if x.2.2 = 0 then 2016 else 1984, head := if x.2.2 = 0 then 1024 else 960 } send2
       let q := s.queue 0xFFFFF
       s.queueReq 1 = some (qreq 7 send2) ∧ s.forDie (qreq 7 send2) = false ∧ s.firstOfCycle (qreq 7 send2) = true ∧ q.conn (qreq 7 send2) = some (conn0 x.1) ∧ q.state = 1
         ∧ q.kind = 0 ∧ q.tail % 2 ^ q.rlog + 32 ≤ 2 ^ q.rlog
         ∧ (x.1 = 0 → q.spent (conn0 0) + 32 ≤ q.scred ∧ 32 ≤ 2 ^ q.rlog - (q.tail - q.head))
         ∧ (x.1 = 1 → x.2.2 = 0 → 32 + q.unused ≤ 2 ^ q.rlog - (q.tail - q.head) ∧ q.shead = q.stail)
         ∧ (x.1 = 1 → x.2.2 ≠ 0 → 2 ^ q.rlog - (q.tail - q.head) < 32 + q.unused ∧ q.policy = x.2.1))) := by
  decide +kernel

def recg : PRec := { rec0 with core := none, hdr := 0x0000000700500000 }
/-- A queue of group 3, whose members are cores 0 and 127. -/
def sGroup (bal : Bool) : State :=
  { State.reset with
    queues := [(5, { q0 with group := true, reader := 3, bal := bal, recs := [recg] })], qgrp := [(3, 1 ||| 1 <<< 127)] }

theorem test_groups : ∀ bal ∈ [true, false],
    (let s := sGroup bal
     let q := s.queue 5
     let ms := (List.range 128).filter fun m => (tget 0 s.qgrp q.reader).getLsbD m
     (Instr.groupAssign 5).wf = true ∧ q.group = true ∧ q.bal = bal
       ∧ q.recs.find? (fun y => y.core = none && !y.pad && !y.done) = some recg
       ∧ ms.find? (fun m => (s.core m).atDispatch && !s.hasAssigned m) = some 0
       ∧ ms[(recg.hdr.toNat / 2 ^ 20 % 256 + recg.hdr.toNat / 2 ^ 32) % ms.length]? = some 0) := by
  decide +kernel

/-- A combining queue of hub 3 that expects `n` contributions, and an entry of key 4 with one. -/
def qComb (n : Nat) : Queue := { q0 with kind := 1, home := 3, expect := n, ctmo := 2, dq := 7, conns := [conn0 3] }
def entry4 : CombEntry := ⟨0xFFFFF, 4, -5, 1, .none, false, 0, false⟩
def sComb (n : Nat) (l : List CombEntry) : State :=
  { sQueue (qComb n) (.csend 4 false 7 false) with
    hubs := [(3, { Hub.reset with comb := l })], clk := { State.reset.clk with tbt := 8000 } }

theorem test_combining : ∀ n ∈ [1, 2, 3], ∀ l ∈ [[], [entry4]],
    (let s := sComb n l
     let q := s.queue 0xFFFFF
     let old := (s.hub q.home).comb.find? fun y => y.qid = 0xFFFFF && y.key = 4
     s.queueReq 1 = some (qreq 7 (.csend 4 false 7 false)) ∧ q.conn (qreq 7 (.csend 4 false 7 false)) = some (conn0 3) ∧ q.state = 1
       ∧ q.kind = 1 ∧ (Instr.combiningContribution 1).wf = true ∧ old = l.head? ∧ (conn0 3).cls = 3
       ∧ ((s.hub q.home).comb.filter fun y => !y.resv).length < 65536 - (s.hub q.home).combRes
       ∧ q.dq / 2 ^ 20 = s.fab.devId ∧ q.exact = false ∧ (q.ctmo = 0 ∨ 8000 / 2 ≤ (entry4.first + 4000 * q.ctmo) / 2)
       ∧ (sComb n l).contribWaits 0xFFFFF 5 (entry4.first + 4000 * q.ctmo) = false
       ∧ (Instr.combiningTimeout 0xFFFFF 4).wf = true ∧ q.ctmo ≠ 0 ∧ entry4.first + 4000 * q.ctmo ≤ s.clk.tbt.toNat) := by
  decide +kernel

/-! ### Clocks and time -/

def isl (last indep : Option Nat) (pend taken : Nat) (notice slipped : Bool) : Island :=
  ⟨true, true, pend, slipped, false, 0, last, indep, taken, notice, 0⟩
/-- Core 0's island, that of PL, and two more that run, in ccyc 20 of both. -/
def sIsl (a b : Island) : State :=
  { at1 { core1 with tm := ⟨20, 20⟩ } with
    clk := { State.reset.clk with
      isl := [(0, a), (1, isl none none 1 0 false false), (2, isl none none 0 0 false false), (136, b)], plNow := 20, plLast := some 4 } }
def calm : Island := isl (some 4) none 0 0 false false

theorem test_notice : ∀ i ∈ [0, 136],
    (let s := sIsl calm calm
     fit (.droopNotice i 0) s = true ∧ (if i = 136 then (20 = s.clk.plNow + 0) else s.logical i = some 0 ∧ (reached s 0 0).tm.now = 20)
       ∧ (s.island i).runs = true ∧ (s.island i).rested 20 = true) := by
  decide +kernel

def stirred : Island := isl (some 17) (some 17) 0 0 true false

theorem test_emergency : ∀ i ∈ [0, 136],
    (let s := sIsl stirred stirred
     fit (.emergencyStretch i 0) s = true ∧ (s.island i).runs = true ∧ (s.island i).rested 20 = false
       ∧ (s.island i).indep = some 17 ∧ 17 + 4 ≤ 20 + 1) := by
  decide +kernel

theorem test_die_event : ∀ i ∈ [0, 1],
    (let s := sIsl stirred calm
     (Instr.dieEventGrant 0).wf = true ∧ (s.island i).runs = true ∧ ((s.island i).notice = true ∨ (s.island i).pend ≠ 0)
       ∧ s.clk.plLast = some 4 ∧ 4 + 16 ≤ s.clk.plNow + 0 ∧ s.clk.stopped = false) := by
  decide +kernel

theorem test_slip : ∀ slipped ∈ [true, false],
    (let s := { sIsl (isl none none 0 9 false slipped) calm with plane := [(1, some (.line 0 (pkt0 .dma)))] }
     fit (.crossingSlip 0 true 3 [1]) s = true ∧ 8 < s.clk.slack (s.phys 0) ∧ s.msg 1 = some (.line 0 (pkt0 .dma))
       ∧ (Msg.line 0 (pkt0 .dma)).crosses s.fab.devId 0 true = true ∧ s.fl.mutes = false ∧ (s.island (s.phys 0)).slipped = slipped) := by
  decide +kernel

/-- The timebase at one second and `e` ticks, with a port that is UP. -/
def sTime (e : Nat) (master : Bool) (last : Option Nat) : State :=
  { State.reset with
    clk := { State.reset.clk with
      tbt := BitVec.ofNat 64 (8000000000 + e), run := true, aligned := true, master := master, lastPps := last, valid := 3
      isl := [(136, calm)] }
    ports := [(15, { Port.reset with state := 4 })] }

theorem test_pps : Instr.ppsInEdge.wf = true ∧ (sTime 8 true none).clk.lost = []
    ∧ (sTime 8 true none).clk.tbt.toNat = 2 * 4000000000 + 8
    ∧ (sTime 8 true (some 4000000008)).clk.lastPps = some (8000000008 - 4000000000)
    ∧ (sTime 9 false none).clk.master = false ∧ (sTime 9 true (some 4004000010)).clk.lastPps = some 4004000010
    ∧ 8000000009 < 4004000010 + 3996000000
    ∧ (sTime 0 true none).clk.aligned = true := by
  decide +kernel

theorem test_time_events :
    (Instr.ppsOutRise.wf = true ∧ (sTime 7 true none).clk.run = true ∧ (sTime 7 true none).clk.tbt.toNat % 4000000000 < 8)
    ∧ (Instr.ppsOutFall.wf = true ∧ 400000000 ≤ (sTime 400000000 true none).clk.tbt.toNat % 4000000000)
    ∧ ((Instr.timeMessageSend 15).wf = true ∧ ((sTime 0 true none).port 15).state = 4
      ∧ (sTime 0 true none).clk.master = true)
    ∧ (fit (.timebaseCopyCorrection 136) (sTime 0 true none) = true ∧ ((sTime 0 true none).island 136).runs = true) := by
  decide +kernel

/-- References are lost, and silent since reset but for the upstream device, whose last message came at `heard`. -/
def sLost (l : List Reference) (locked : Bool) (master : Bool) (heard : Option Nat := none) : State :=
  let s := sTime 8000000000 master none
  { s with clk := { s.clk with lost := l, locked := locked, holdover := !l.isEmpty, timeAt := heard } }

theorem test_references :
    (∀ r ∈ [Reference.sysclk, .fref 3, .cxlclk, .pps],
      (Instr.referenceLoss r).wf = true ∧ r ∉ (sLost [] true true).clk.lost ∧ (sLost [] true true).clk.silent r = true)
    ∧ (sLost [] true true).clk.master = true ∧ (sLost [] true true).mss.ledBuf.length < 256
    ∧ ((Instr.referenceLoss .upstream).wf = true ∧ (sLost [] true false).clk.master = false
      ∧ (sLost [] true false).clk.silent .upstream = true)
    ∧ (let s := sLost [.pps, .sysclk, .upstream] true true (some 15999999999)
       (∀ r ∈ [Reference.sysclk, .pps, .upstream], (Instr.holdoverEnd r).wf = true ∧ r ∈ s.clk.lost) ∧ s.clk.locked = true
         ∧ s.clk.silent .upstream = false) := by
  decide +kernel

def sStep : State :=
  { sFrame with clk := { sFrame.clk with steps := [(16384, -1), (32768, 2)] }, cores := [(0, core1), (3, core2)] }

theorem test_step : Instr.timebaseStep.wf = true ∧ sStep.clk.steps = [(16384, -1), (32768, 2)] ∧ 16384 ≤ sStep.clk.tbt.toNat
    ∧ twf CalEntry.elastic sStep.hbm.cal = true ∧ (sStep.hbm.entry 767 62).pend = true
    ∧ (sStep.hbm.entry 767 61).pend = false ∧ twf Core.reset sStep.cores = true := by
  decide +kernel

/-! ### The change of the operating point -/

def packet (opc : BitVec 8) (job : BitVec 8) (p0 p1 p2 p3 : W64) (p4 : W64 := 0) (p5 : W64 := 0) (p6 : W64 := 0) : Packet :=
  ⟨opc, 1, 77, job, p0, p1, p2, p3, p4, p5, p6⟩
/-- Command 5 of ring 255, in execution. -/
def cmdOf (p : Packet) : Cmd := ⟨5, 255, p, 1, 0, 0, 0, 0, 100, false, false⟩
def acting (p : Packet) : Cmd := { cmdOf p with acted := true }
def sOp (stopped : Bool) (now : Nat) : State :=
  { State.reset with
    clk := { State.reset.clk with
      change := some (3, some 5, 100), stopped := stopped, stopAt := 200, tbt := BitVec.ofNat 64 now, isl := [(0, calm), (136, calm)] }
    host := { State.reset.host with exec := [acting (packet 0x0D 0xFF 3 0 0 0)] } }

theorem test_op_stop :
    (Instr.opStopBegin.wf = true ∧ (sOp false 300).clk.change.isSome = true ∧ (sOp false 300).clk.stopped = false
      ∧ (sOp false 300).mayStop = true
      ∧ twf Island.off (sOp false 300).clk.isl = true)
    ∧ ((Instr.opStopResume 20000).wf = true ∧ (sOp true 20200).clk.stopped = true ∧ 19600 ≤ 20000
      ∧ (sOp true 20200).clk.stopAt + 20000 ≤ (sOp true 20200).clk.tbt.toNat ∧ twf Island.off (sOp true 20200).clk.isl = true ∧ (sOp true 20200).cmd 5 = some (acting (packet 0x0D 0xFF 3 0 0 0)))
    ∧ (Instr.setOpTimeout.wf = true ∧ (sOp false 400000100).clk.tbt.toNat = 100 + 400000000
      ∧ (sOp false 400000100).clk.stopped = false ∧ (acting (packet 0x0D 0xFF 3 0 0 0)).mute = false) := by
  decide +kernel

/-! ### NDX ports -/

def sPort (p : Port) (tbt : Nat := 4000000000) : State :=
  { State.reset with
    ports := [(15, p)], clk := { State.reset.clk with tbt := BitVec.ofNat 64 tbt }
    fab := { State.reset.fab with idValid := true, role := 2, devId := 3 } }
def pIn (st : Nat) : Port := { Port.reset with state := st }
def pLanes (width : Nat) (active failed : BitVec 5) : Port := { pIn 4 with width := width, active := active, failed := failed }

theorem test_bring_up :
    (∀ lanes ∈ [(31 : BitVec 5), 6, 16],
      (Instr.portTrainingDone 15 ⟨lanes, 0⟩ ⟨40, (-3)⟩).wf = true ∧ 1 ≤ ((List.range 5).filter fun i => lanes.getLsbD i).length)
    ∧ ((sPort (pIn 1)).port 15).state = 1
    ∧ (∀ x ∈ [(true, true), (true, false), (false, true)], (Instr.portAuthDone 15 true x.1 x.2 []).wf = true)
    ∧ (∀ x ∈ [(false, true, true, 0), (true, false, true, 0), (true, true, false, 2)],
      (x.1 && x.2.1 && (x.2.2.1 || !(BitVec.ofNat 32 x.2.2.2).getLsbD 1)) = false)
    ∧ ((sPort (pIn 2)).port 15).state = 2 ∧ ((sPort (pIn 2)).port 15).cfg.getLsbD 1 = false
    ∧ (Instr.portJoinDone 15 7 9 [1, 2] ([(5, 1)] ++ [(4095, 9)])).wf = true ∧ ((sPort (pIn 3)).port 15).state = 3
    ∧ (sPort (pIn 3)).fab.idValid = true ∧ (sPort (pIn 3)).fab.role ≠ 1
    ∧ { (sPort (pIn 3)).fab with role := 1, ids := [([1, 2], 7)] }.idFor [1, 2] = some 7
    ∧ (Instr.partnerLost 15).wf = true := by
  decide +kernel

theorem test_state_timeouts : ∀ x ∈ [(1, 2000000000), (2, 400000000), (3, 200000000)],
    (let s := sPort (pIn x.1) x.2
     (Instr.portStateTimeout 15).wf = true ∧ (s.port 15).state = x.1 ∧ (s.port 15).since + x.2 ≤ s.clk.tbt.toNat) := by
  decide +kernel

/-- Lane 3 fails: a spare one, an active one with the spare, without it, of two lanes, and the last one. -/
theorem test_lanes_fail :
    (∀ p ∈ [pLanes 4 0b10111 0, pLanes 4 0b01111 0, pLanes 4 0b01111 0b10000, pLanes 4 0b11011 0, pLanes 2 0b11000 0,
        pLanes 1 0b01000 0],
      (let s := sPort { p with bad := [0, 0, 0, 2, 0] }
       let x := s.port 15
       x.state ≠ 0 ∧ x.failed.getLsbD 3 = false ∧ (Instr.laneLossOfLock 15 3).wf = true
         ∧ (Instr.fecWindow 15 [0, 0, 0, 10001, 10000]).wf = true ∧ x.bad.length = 5 ∧ x.bad.getD 3 0 = 2
         ∧ (p = pLanes 1 0b01000 0 → x.active.getLsbD 3 = true ∧ x.width = 1)
         ∧ (p = pLanes 2 0b11000 0 → x.active.getLsbD 3 = true ∧ x.width = 2 ∧ x.active.getLsbD 4 = true)
         ∧ (p = pLanes 4 0b01111 0b10000 → x.active.getLsbD 3 = true ∧ x.width = 4 ∧ x.failed.getLsbD 4 = true)
         ∧ (p = pLanes 4 0b01111 0 → x.active.getLsbD 3 = true ∧ x.width = 4 ∧ x.active.getLsbD 4 = false
           ∧ x.failed.getLsbD 4 = false)
         ∧ (p = pLanes 4 0b10111 0 → x.active.getLsbD 3 = false)))
    ∧ (∀ k ∈ [0, 1, 2, 4], [0, 0, 0, 10001, 10000].getD k 0 ≤ 10000) ∧ 10000 < [0, 0, 0, 10001, 10000].getD 3 0 := by
  decide +kernel

def hdr0 : Header := ⟨0, 1, 1, false, 0, 7, 9, 0, false, 0, 0, 3, 0, 0, false, false, 0, 0, 0, 0⟩
def txp (vc : BitVec 2) (seq : BitVec 12) : TxPkt := ⟨{ hdr0 with vc := vc, seq := seq, circ := 5 }, [1], false, 0, none, 0, .none, none⟩

theorem test_port_events :
    ((Instr.uncorrectableCodeword 15).wf = true
      ∧ (([1, 2, 3, 4].filter fun u => 4000000003 < u + 4000000000)).length < 4)
    ∧ (let x := (sPort { pIn 4 with retrain := true, busy := 4000000000 }).port 15
       (Instr.laneRetrainDone 15).wf = true ∧ x.retrain = true ∧ x.busy ≤ 4000000000)
    ∧ (let x := (sPort { pIn 4 with credit := [32, 0, 64, 8], txq := [txp 1 0] } 800000).port 15
       (Instr.creditTimeout 15 1).wf = true ∧ x.state = 4 ∧ x.credit.getD 1 0 = 0 ∧ x.credAt.getD 1 0 + 800000 ≤ 800000
         ∧ (x.txq ++ x.waitq).any (fun y => y.hdr.vc.toNat = 1 && y.at0 + 800000 ≤ 800000) = true)
    ∧ (Instr.apertureDropWindow 15).wf = true
    ∧ (∀ x ∈ [(0, 9), (5, 5), (5, 6)],
      (let p := (sPort { pIn 4 with cfg := BitVec.ofNat 32 (2 ^ 18 * x.1), drops := x.2 }).port 15
       p.cfg.toNat / 2 ^ 18 % 256 = x.1 ∧ p.drops = x.2 ∧ p.state ≠ 0 ∧ p.state ≠ 5)) := by
  decide +kernel

/-! ### Packets -/

/-- A packet at port 15, with its length and its CRC. -/
def pk (h : Header) (data : List Byte) : PktIn :=
  let h := if h.type = 2 then h else { h with len := BitVec.ofNat 9 data.length }
  ⟨15, { h with crc := h.crcOf data }, data, true, false⟩

/-- A header of a type and a VC to a DPA of this device. -/
def ph (type : BitVec 5) (vc : BitVec 2) (dpa : Nat) : Header := { hdr0 with type := type, vc := vc, addr := BitVec.ofNat 64 (3 * 2 ^ 48 + dpa) }

/-- A header of an answer to core 0. -/
def pa (type : BitVec 5) : Header := { ph type 2 0x100000000000 with tag := 3 }

/-- Port 15 is UP, device 7 comes by it, and its aperture takes every access to all memory. -/
def sPkt : State :=
  let s := sPort { pIn 4 with ap := [(2, ⟨0xFFF0003F, 0, 0xFFFFFFFFF⟩)], seqRx := 4095 } 4000000000
  { s with fab := { s.fab with rt := [(7, 61)] }, queues := [(5, { Queue.zero with state := 1, rlog := 16, hbm := true })] }

def sqn (x : PktIn) : PktIn := { x with hdr := { x.hdr with seq := 4095 } }

theorem test_packets_in :
    (∀ x ∈ [(1, pk (ph 1 1 0x1000) [1, 2]), (1, pk { ph 1 0 0x1000 with tsen := true, tslot := 511, budget := 5 } [1]),
        (1, pk (ph 1 1 0x100000000040) [1, 2])],
      accepted sPkt (sqn x.2) x.1 ∧ (Instr.pktWrite (sqn x.2)).wf = true ∧ x.2.data ≠ []
        ∧ (let dpa := x.2.hdr.addr.toNat % 2 ^ 48
          (sPkt.port 15).admits 7 dpa (dpa + max 1 x.2.hdr.len.toNat - 1) .wr (x.2.hdr.vc = 0) = true))
    ∧ (∀ vc ∈ [0, 1], (let x := sqn (pk { ph 2 vc 0x011DFFFFFFF0 with len := 256, tsen := true, tslot := 5 } [])
      accepted sPkt x 2 ∧ (Instr.pktRead x).wf = true ∧ x.hdr.len ≠ 0
        ∧ (sPkt.port 15).admits 7 0x011DFFFFFFF0 (0x011DFFFFFFF0 + 255) .rd (x.hdr.vc = 0) = true))
    ∧ (let x := sqn (pk (ph 4 1 0x1000) (List.replicate 16 1))
      accepted sPkt x 4 ∧ (Instr.pktAtomic x).wf = true ∧ (sPkt.port 15).admits 7 0x1000 0x100F .atom false = true)
    ∧ sPkt.fenced = false := by
  unfold accepted
  decide +kernel

theorem test_queue_packets : ∀ x ∈ [(8, pk (ph 8 1 5) (List.replicate 4 3)), (9, pk (ph 9 1 5) (0x21 :: List.replicate 23 1)),
      (10, pk (ph 10 1 5) (List.replicate 24 1)), (11, pk (ph 11 1 5) [])],
    accepted sPkt (sqn x.2) x.1 ∧ (x.1 = 9 → leAt x.2.data 0 8 % 4 = 1)
      ∧ ((Instr.pktQopen (sqn x.2)).wf && (Instr.pktQsend (sqn x.2)).wf && (Instr.pktQcsend (sqn x.2)).wf && (Instr.pktQclose (sqn x.2)).wf)
        = true
      ∧ (sPkt.queue 5).kind = 0 ∧ (sPkt.queue 5).state = 1
      ∧ (sPkt.port 15).admits 7 (sPkt.queue 5).ring.1 (sPkt.queue 5).ring.2 .queue false = true := by
  unfold accepted
  decide +kernel

/-- Core 0 awaits the answer to its request with tag 3. -/
def sAwait (type : Nat) (datom : Bool) : State :=
  { sPkt with
    fab := { sPkt.fab with out := [⟨3, 0, 15, .core 0 9, false, 7, type⟩] }
    cores := [(0, { core1 with dm := { core1.dm with txns := [{ txnOut with datom := datom }] } })] }

theorem test_answer_packets :
    (∀ x ∈ [(3, 2, false, pk (pa 3) [1]), (5, 4, true, pk (pa 5) (List.replicate 8 1)), (6, 1, false, pk (pa 6) [3, 0, 0, 0])],
      (let s := sAwait x.2.1 x.2.2.1
       let p := sqn x.2.2.2
       accepted s p x.1 ∧ ((Instr.pktRresp p).wf && (Instr.pktAresp p).wf && (Instr.pktAck p).wf) = true
         ∧ addrAgent p.hdr.addr.toNat = 0 ∧ s.outReply 0 3 = some ⟨3, 0, 15, .core 0 9, false, 7, x.2.1⟩
         ∧ (s.core 0).txn 9 = some { txnOut with datom := x.2.2.1 } ∧ s.fab.moved = [] ∧ p.hdr.status = 0 ∧ p.data ≠ []
         ∧ (x.1 = 5 → p.data.length = 8)
         ∧ (x.1 = 6 → p.data.length = 4 ∧ leAt p.data 0 4 / 2 ^ 16 % 256 = 0 ∧ leAt p.data 0 4 % 2 ^ 16 = 3 ∧ leAt p.data 0 4 / 2 ^ 24 = 0)))
    ∧ (let x := sqn (pk (pa 12) [1, 0, 0, 0, 2, 0, 127, 0])
      accepted sPkt x 12 ∧ x.data.length = 8 ∧ (Instr.pktQresp x).wf = true) := by
  unfold accepted
  decide +kernel

def pm (type : BitVec 5) : PktIn := sqn (pk (ph type 3 0) [])
def sMgmt (f : Fabric → Fabric) (c : Clocks → Clocks) : State := { sPkt with fab := f sPkt.fab, clk := c sPkt.clk }

theorem test_time_packets :
    (let s := sMgmt id fun c => { c with aligned := true, master := false, upstream := 0x8000000F }
     accepted s (pm 0x10) 0x10 ∧ (Instr.pktTime (pm 0x10) (.request true)).wf = true ∧ s.clk.follows 15 = true ∧ s.clk.lost = [])
    ∧ (let s := { sPkt with ports := [(15, { sPkt.port 15 with tDep := some 5 })] }
       accepted s (pm 0x10) 0x10 ∧ (Instr.pktTime (pm 0x10) .answer).wf = true ∧ s.clk.follows 15 = false
         ∧ (s.port 15).tDep.isSome = true) := by
  unfold accepted
  decide +kernel

theorem test_management_packets :
    (∀ f ∈ [sPkt.fab, { sPkt.fab with role := 1, epoch := 8 }, { sPkt.fab with role := 1, epoch := 9, devId := 3 },
        { sPkt.fab with role := 1, epoch := 9, devId := 2 }, { sPkt.fab with idValid := false }],
      (let s := sMgmt (fun _ => f) id
       let x := sqn (pk { ph 0x11 3 0 with addr := BitVec.ofNat 64 (f.devId * 2 ^ 48) } [])
       accepted s x 0x11
         ∧ (∀ b ∈ [MgmtBody.heartbeat 9 2 [], .assignId 4 9 2, .routes [(4095, 61), (4096, 1)], .circuit 4095 (2 ^ 60 - 1) 3 [0, 15, 1022],
            .removeCircuit 4095, .timeUpstream 15 7 1, .step 5 (-3)], (Instr.pktMgmt x b).wf = true)
         ∧ (f.role = 1 → f.epoch < (9 : BitVec 16).toNat ∨ f.epoch = (9 : BitVec 16).toNat ∧ (2 : BitVec 12).toNat ≤ f.devId)))
    ∧ serialNum [] < serialNum [1] := by
  unfold accepted
  decide +kernel

theorem test_forwarded_packets :
    (let s := { sPkt with ports := [(15, { sPkt.port 15 with state := 2 })] };
       (pm 0x12).hdr.type = 0x12 ∧ (s.port 15).state = 2 ∧ (pm 0x12).hdr.seq.toNat = (s.port 15).seqRx ∧ (pm 0x12).stomp = false
         ∧ PktGood (pm 0x12) (s.port 15).enc = true ∧ (pm 0x12).hdr.vc = 3 ∧ (pm 0x12).hdr.hops ≠ 15
         ∧ (Instr.pktAuth (pm 0x12) (.chain [1] 4)).wf = true ∧ (Instr.pktAuth (pm 0x12) (.nonce [1])).wf = true)
    ∧ ∀ h ∈ [ph 1 1 0x1000, { pa 3 with hops := 14 }, ph 0x11 3 0],
      (let s := { sPkt with fab := { sPkt.fab with rt := [(7, 61), (8, 57)] }, ports := [(14, pIn 4), (15, sPkt.port 15)] }
       let x := sqn (pk { h with addr := h.addr + 5 * 2 ^ 48 } [])
       (s.port 15).state = 4 ∧ x.hdr.seq.toNat = (s.port 15).seqRx ∧ x.stomp = false ∧ PktGood x (s.port 15).enc = true
         ∧ typeOk x.hdr.type.toNat x.hdr.vc.toNat = true ∧ x.hdr.hops ≠ 15 ∧ fabDev x.hdr.addr.toNat ≠ s.fab.devId ∧ x.hdr.vc ≠ 0
         ∧ s.route (fabDev x.hdr.addr.toNat) = some 14 ∧ 14 ≠ x.port ∧ (s.port 14).state = 4 ∧ s.fab.moved = []
         ∧ (Instr.pktTransit x).wf = true) := by
  decide +kernel

def sTx (p : Port) (tbt : Nat := 4000000000) : State := sPort { pIn 4 with txq := p.txq, replayQ := p.replayQ, cal := p.cal, again := p.again } tbt

theorem test_link_words : ∀ st ∈ [2, 3, 4],
    (let q := [txp 1 4094, txp 1 4095, txp 1 0, txp 2 1]
     let s := sPort { pIn st with replayQ := q, nak := some 7, owed := [1, 0, 0, 2] }
     let w : LinkWord := ⟨4095, some 0, [1, 0, 2, 0], none⟩
     (Instr.linkWord 15 w).wf = true ∧ s.fab.moved = [] ∧ (s.port 15).state = st
       ∧ (s.port 15).replayQ = [txp 1 4094] ++ txp 1 4095 :: [txp 1 0, txp 2 1] ∧ (txp 1 4095).hdr.seq = w.ackSeq
       ∧ (txp 1 4094).hdr.seq ≠ w.ackSeq ∧ (txp 1 0).hdr.seq = 0 ∧ 3 < (s.port 15).credit.length ∧ (Instr.linkWordSend 15).wf = true) := by
  decide +kernel

/-- The upstream device's stamps come by a link word: the count is behind, right, and ahead. -/
theorem test_stamps : ∀ t4 ∈ [120, 130, 140],
    (let s := sPort { pIn 4 with tArr := some 110, tDep := some 120, asym := 0 }
     let s := { s with clk := { s.clk with aligned := true, master := false, upstream := 0x8000000F } }
     (Instr.linkWord 15 ⟨4095, none, [0, 0, 0, 0], some (100, t4)⟩).wf = true ∧ (s.port 15).state = 4 ∧ s.fab.moved = []
       ∧ (s.port 15).tArr = some 110 ∧ (s.port 15).tDep = some 120 ∧ s.clk.follows 15 = true ∧ s.clk.aligned = true) := by
  decide +kernel

theorem test_fabric_slots :
    (let p : Port := { Port.reset with txq := [txp 1 0, { txp 0 0 with sched := true }], cal := [(0, ⟨true, 5, false, false, 0⟩)] }
     let s := sTx p 16384
     let x := s.port 15
     (Instr.fabricSlot 15).wf = true ∧ x.state = 4 ∧ x.retrain = false ∧ x.busy ≤ 16384 ∧ x.waitq = []
       ∧ (txp 0 0).own = none ∧ (txp 0 0).via = none ∧ x.slotCirc (16384 / 16 % 1024) = some 5 ∧ x.slotSeen ≤ 16384 / 16
       ∧ x.txq.find? (fun z => z.hdr.vc = 0 && z.hdr.circ.toNat = 5 && z.at0 ≤ 16 * (16384 / 16)) = some { txp 0 0 with sched := true })
    ∧ (let s := sTx { Port.reset with txq := [txp 1 0], replayQ := [txp 2 4095, txp 1 0], again := [0, 4095, 0] } 16384
       let x := s.port 15
       x.slotCirc (16384 / 16 % 1024) = none ∧ x.fits 16384 = true ∧ x.again = 0 :: [4095, 0] ∧ x.waitq = []
         ∧ x.replayQ.find? (fun z => z.hdr.seq.toNat = 0) = some (txp 1 0)) := by
  decide +kernel

theorem test_fabric_frames :
    (let s := sPort { pIn 4 with cal := [(0, ⟨true, 5, true, false, 0⟩), (1022, ⟨false, 0, true, true, 9⟩), (1023, ⟨true, 1, false, false, 0⟩)] } 16384
     let s := { s with clk := { s.clk with run := true }, fab := { s.fab with circ := [(5, { Circ.none with valid := true, gone := true })] } }
     Instr.fabricFrameBoundary.wf = true ∧ s.clk.run = true ∧ s.fab.frame < s.clk.tbt.toNat / 16384 ∧ s.fab.newRt = []
       ∧ twf FCal.free (s.port 15).cal = true ∧ twf Port.reset s.ports = true)
    ∧ (let s := sMgmt (fun f => { f with role := 1, sent := 3996000000 }) id
       Instr.heartbeatSend.wf = true ∧ s.fab.role = 1 ∧ s.fab.sent + 4000000 ≤ s.clk.tbt.toNat ∧ (s.port 15).state = 4)
    ∧ (let s := sMgmt (fun f => { f with role := 2, heard := 3960000000, epoch := 65535 }) id
       Instr.masterTakeover.wf = true ∧ s.fab.role = 2 ∧ s.fab.heard + 40000000 ≤ s.clk.tbt.toNat ∧ s.fab.idValid = true) := by
  decide +kernel

/-! ### The host interface -/

def crec : CRec := ⟨65535, .delayed, true, 2, true, true, 7, 8, 9, true⟩
def sRing (r : Ring) : State := { State.reset with host := { State.reset.host with rings := [(255, r)], fwrun := true, state := 2 } }
/-- CTRL of a ring: EN, its sizes 2^SQ and 2^CQ, and vector 511. -/
def rctl (en sq cq : Nat) : W32 := BitVec.ofNat 32 (en + 4 * sq + 128 * cq + 4096 * 511)

theorem test_rings : ∀ en ∈ [0, 1],
    (let s := sRing { Ring.zero with ctrl := rctl en 6 12, waiting := [crec], cqtail := 4096, cqHead := 1, sqTail := 3, head := 2 }
     let r := s.ring 255
     (∀ n ∈ [0, 1, 60000, 60001, 0xFFFFFFFF], let v : W32 := BitVec.ofNat 32 n
       (Instr.doorbellSqTail 255 v).wf = true ∧ (Instr.doorbellCqHead 255 v).wf = true ∧ (Instr.ringDeferWrite 255 v).wf = true)
     ∧ (∀ n ∈ [0, 0x3FFFFF], let v : W32 := BitVec.ofNat 32 n; (Instr.ringEnable 255 v).wf = true ∧ (Instr.ringDisable 255 v).wf = true ∧ v.toNat < 2 ^ 22)
     ∧ r.en = decide (en = 1) ∧ (Instr.completionRecordWrite 255).wf = true ∧ r.waiting = [crec] ∧ r.full = false ∧ r.inDevice = false) := by
  decide +kernel

/-- Command 5 waits in a queue. -/
def sQd (c : Cmd) (st : Nat) : State :=
  { sRing { Ring.zero with ctrl := rctl 1 6 12 } with
    host := { (sRing { Ring.zero with ctrl := rctl 1 6 12 }).host with state := st, elastic := [c], bulk := [{ c with id := 6 }] }
    clk := { State.reset.clk with tbt := 400000001 } }

theorem test_admission :
    (let s := sRing { Ring.zero with ctrl := rctl 1 6 12, sqTail := 1 }
     ∀ p ∈ [packet 0x0E 0xFF 0 0 0 32, { packet 0x0E 0xFF 0 0 0 32 with cflags := 2 }],
       (Instr.commandAdmission ⟨255, []⟩ p).wf = true ∧ s.mayFetch 255 = true ∧ (s.ring 255).inDevice = false ∧ p.opcode ≠ 0x11 ∧ (p.cls = 1 ∨ p.cls = 2)
         ∧ s.host.elastic.length < 1024 ∧ s.host.bulk.length < 1024
         ∧ (s.writeDefer 255 0).mayFetch 255 = true ∧ (s.writeDefer 255 60001).host.bulk.length < 1024)
    ∧ (let s := sRing { Ring.zero with ctrl := rctl 1 6 12 ||| 2, sqTail := 1 }
       (s.ring 255).inDevice = true ∧ s.hbm.poisoned ((s.ring 255).sqbase.toNat % 2 ^ 48) 64 = false)
    ∧ (∀ x ∈ [(packet 0x0E 0xFF 0 0 0 32, 2, none, false), (packet 0x0E 0xFF 6 0 0 32, 2, some 0, false),
        (packet 0x0D 0xFF 5 0 0 0, 5, some 0, true), (packet 0x0D 0xFF 4 0 0 0, 5, none, true), (packet 0x01 0 0 64 0 0, 2, none, false)],
      (let c := cmdOf x.1
       let s := sQd c x.2.1
       let b : Cmd := { c with begin0 := 400000001, delay := (400000001 - c.admitAt) * clock10 s.clk.op / 40 }
       Instr.commandExecute.wf = true ∧ s.host.stalled = [] ∧ s.canBegin c = true ∧ s.host.exec = []
         ∧ s.paramFault b = x.2.2.1 ∧ (b.p.opcode ≠ 1 → b.p.hasList = false) ∧ s.stateFault b = x.2.2.2))
    ∧ (let c := { cmdOf (packet 0x0E 0xFF 0 0 0 32) with id := 6 }
       let s := sQd c 2
       (Instr.bulkDeferralExpiry 6).wf = true ∧ s.host.bulk.find? (fun y => y.id = 6) = some c
         ∧ c.admitAt + c.defer * 4000000 < s.clk.tbt.toNat ∧ s.host.exec = []) := by
  decide +kernel

theorem test_drain_timeout :
    (let c := acting (packet 0x08 0xFF 5 0 0 0)
       let s := sQd c 4
       let s := { s with host := { s.host with drain := some (5, 400000001), exec := [c] } }
       Instr.drainTimeout.wf = true ∧ s.cmd 5 = some c ∧ 400000001 ≤ s.clk.tbt.toNat) := by
  decide +kernel

/-- In CXL mode decoder 0 maps the last page of the user HBM at host address 2^40. -/
def sHost (f : HostIf → HostIf) : State := { State.reset with
  host := f { State.reset.host with cxl := true, state := 2, hdm0 := ⟨0x011DF0000000, 2 ^ 40, 0x10000000, true, false, 0x011DF0000000⟩ } }

theorem test_host_link :
    (∀ w ∈ [1, 16], ∀ r ∈ [1, 5], ∀ c ∈ [true, false], (Instr.hostLinkTrained w r c).wf = true)
    ∧ Instr.hostLinkReset.wf = true ∧ (Instr.snoop (2 ^ 40)).wf = true ∧ (sHost id).host.cxl = true ∧ State.reset.host.cxl = false
    ∧ (∀ size ∈ [0x10000000, 0x10000001],
      (let s := sHost fun h => { h with hdm1 := ⟨0x011DF0000000, 0, 0, false, false, 0⟩, hdm0 := ⟨0, 0, 0, false, false, 0⟩ }
       (Instr.hdmCommit true 0 size).wf = true ∧ s.host.cxl = true ∧ (s.host.hdm !true).commit = false ∧ size ≤ 2 ^ 40)) := by
  decide +kernel

def sBias (a n : Nat) : State := sHost fun h => { h with biasPage := BitVec.ofNat 64 a, biasN := BitVec.ofNat 32 n }

theorem test_bias :
    (∀ x ∈ [(0x011DF0000, 1, true), (0x011DFFFFF, 1, true), (0x011DFFFFF, 2, false), (0x011DEFFFF, 1, false)], ∀ n ∈ [1, 3],
      (let h := (sBias x.1 x.2.1).host
       let v : W32 := BitVec.ofNat 32 n
       (Instr.biasFlipGo v).wf = true ∧ v.toNat < 16 ∧ h.flip = none ∧ v.getLsbD 0 = true
         ∧ h.mapsPages x.1 (x.1 + x.2.1) = x.2.2 ∧ h.biasPage.toNat % 2 ^ 36 = x.1 ∧ h.biasN.toNat % 2 ^ 29 = x.2.1))
    ∧ Instr.biasFlipDone.wf = true ∧ (sHost fun h => { h with flip := some (5, 2, true) }).host.flip = some (5, 2, true) := by
  decide +kernel

theorem test_host_memory :
    (∀ hpa ∈ [2 ^ 40, 2 ^ 40 + 0xFFFFF00],
      (Instr.hostCxlMemRead hpa 256).wf = true ∧ ((sHost id).host.dpaOf hpa 256).isSome = true
        ∧ (Instr.hostCxlMemWrite hpa (List.replicate 256 1) true).wf = true)
    ∧ (∀ n ∈ [0, 63], let v : W32 := BitVec.ofNat 32 n; (Instr.bar2SelWrite v).wf = true ∧ v.toNat < 64)
    ∧ (∀ st ∈ [2, 6], ∀ x ∈ [(0, 256), (0x3FFFFFF, 1), (0x1FFFFF0, 16)],
      (Instr.bar2Read x.1 x.2).wf = true ∧ x.2 ≠ 0 ∧ x.1 + x.2 ≤ 0x4000000 ∧ x.1 % 256 + x.2 ≤ 256
        ∧ (Instr.bar2Write x.1 (List.replicate x.2 1) true).wf = true ∧ (sHost fun h => { h with state := st }).host.state = st) := by
  decide +kernel

/-! ### The command set -/

/-- The device is in state `st`, job 0 as given, and command 5 executes. -/
def sCmd (p : Packet) (st : Nat) (j : Job) : State :=
  { State.reset with
    jobs := if j = Job.empty then [] else [(0, j)]
    clk := { State.reset.clk with tbt := 4000000001 }
    host := { State.reset.host with state := st, exec := [cmdOf p], rings := [(255, { Ring.zero with ctrl := rctl 1 6 12 })] } }

/-- The slot that a LOAD holds in LOADING. -/
def jLdg : Job := { Job.empty with state := 1 }

/-- A byte of HBM whose burst is marked: the first of the device's buffer at 0x8000_0000_0000_0000. -/
def marked (s : State) : State := { s with hbm := { s.hbm with pois := [(0, true)] } }
def devBuf : W64 := 0x8000000000000000

/-- An image of one core: its BLOCKS section has one block of 64 ccyc that ends the run, its streams have no words. -/
def image1 : List Byte :=
  let sect := fun (ty eng off size : Nat) =>
    leBytes ty 2 ++ leBytes 0 2 ++ leBytes eng 1 ++ leBytes 0 3 ++ leBytes off 4 ++ leBytes size 4
  leBytes 0x3249564B 4 ++ leBytes 3 2 ++ leBytes 64 2 ++ leBytes 1 2 ++ leBytes 7 2 ++ leBytes 64 4 ++ leBytes 4 4 ++ leBytes 1 2
    ++ List.replicate 42 0
    ++ sect 2 0 176 32 ++ (upFrom 0 6).flatMap (fun e => sect 1 e 208 0)
    ++ leBytes 64 4 ++ leBytes 0xFFFF 2 ++ leBytes 0 26

/-- A binding that asks for reads of 2 runs on pseudo-channel 767 for core image 0. -/
def bind1 (pc : Nat) : List Byte :=
  leBytes 4 8 ++ leBytes (pc + 1024 + 2 ^ 20) 8 ++ leBytes (2 + 64 * 34) 8 ++ leBytes 0 8

def pLoad (n flags : Nat) : Packet := packet 0x01 0 0x1000 208 0x2000 (BitVec.ofNat 64 n) 0x3000 (BitVec.ofNat 64 flags) 77

/-- What LOAD makes of its program, once its reservations have their places. -/
def loads (s : State) (c : Cmd) (x : LoadIn) : Option Bool :=
  (s.hbm.reserveAll c.p.job.toNat (wanted x)).map fun r =>
    (s.loadProgram c x ⟨imgIsa x.img, boundTo x r.2, x.place, (groupsOf x.binds).zip s.freeGroups⟩).isOk

theorem test_load :
    (let p := pLoad 1 3
     let s := sCmd p 2 jLdg
     let x := s.loadIn (cmdOf p) image1 (bind1 767) [127]
     (Instr.load ⟨5, []⟩ image1 (bind1 767) [127]).wf = true ∧ executing s 5 (cmdOf p) 0x01 ∧ s.loader (cmdOf p) = true
       ∧ (s.touchBuffers [] (loadBufs s (cmdOf p) image1)).2 = false ∧ s.loadParam (cmdOf p) x = none ∧ groupsOf x.binds = []
       ∧ x.binds = [bindingAt (bind1 767) 0] ∧ (bindingAt (bind1 767) 0).kind = 4 ∧ p.p5.getLsbD 2 = false
       ∧ loads s (cmdOf p) x = some true) := by
  unfold executing
  decide +kernel

/-- A poisoned buffer, lists that are refused, reservations that find no place, an image that is not one, and one without its
signature. -/
theorem test_load_refused :
    (let p := { pLoad 1 3 with p0 := devBuf }
     let s := marked (sCmd p 2 jLdg)
     executing s 5 (cmdOf p) 0x01 ∧ s.loader (cmdOf p) = true ∧ (s.touchBuffers [] (loadBufs s (cmdOf p) image1)).2 = true)
    ∧ (let p := pLoad 1 3
     let s := sCmd p 2 jLdg
     let c := cmdOf p
     s.loadParam c (s.loadIn c image1 (bind1 768) [127]) = some 2 ∧ s.loadParam c (s.loadIn c image1 (bind1 767) [128]) = some 4
       ∧ (let s := { s with hbm := { s.hbm with cal := (upFrom 0 64).map fun n => (64 * 767 + n, ⟨1, 9, false, 0, 0⟩) } }
          executing s 5 c 0x01 ∧ s.loader c = true ∧ s.loadParam c (s.loadIn c image1 (bind1 767) [127]) = none
            ∧ loads s c (s.loadIn c image1 (bind1 767) [127]) = none))
    ∧ (let p := pLoad 0 3
       let s := sCmd p 2 jLdg
       let x := s.loadIn (cmdOf p) (List.replicate 208 0) [] []
       executing s 5 (cmdOf p) 0x01 ∧ s.loader (cmdOf p) = true ∧ s.loadParam (cmdOf p) x = none ∧ p.p5.getLsbD 2 = false
         ∧ (groupsOf x.binds).length ≤ s.freeGroups.length ∧ loads s (cmdOf p) x = some false)
    ∧ (let p := { pLoad 0 4 with p1 := 700 }
       let s := sCmd p 2 jLdg
       let x := s.loadIn (cmdOf p) image1 [] [127]
       executing s 5 (cmdOf p) 0x01 ∧ s.loader (cmdOf p) = true ∧ s.loadParam (cmdOf p) x = none ∧ wanted x = [] ∧ p.p5.getLsbD 2 = true
         ∧ x.sig.length = 512) := by
  unfold executing
  decide +kernel

/-- A program with no signature of 512 bytes is not signed. -/
theorem test_unsigned : ¬ signed { (sCmd (pLoad 0 4) 2 jLdg).loadIn (cmdOf (pLoad 0 4)) image1 [] [127] with sig := [] } :=
  fun h => absurd h.1 (by decide)

/-- A job with what UNLOAD releases. -/
def jLoad : Job := { job1 with state := 2, placement := [127], circuits := [(0, 5)], bindings := [bindingAt (bind1 767) 0] }
def pRes (n : Nat) : Packet := packet 0x03 0 0x1000 (BitVec.ofNat 64 n) 0 0

theorem test_unload_reserve :
    (let p := packet 0x02 0 0 0 0 0
     let s := sCmd p 2 jLoad
     let s := { s with
       hbm := { s.hbm with resv := [(7, { Resv.free with valid := true })] }, mcgJob := [(3, 0)]
       queues := [(9, { Queue.zero with state := 1 })] }
     (Instr.unload 5).wf = true ∧ executing s 5 (cmdOf p) 0x02 ∧ (s.job 0).live = [] ∧ (s.queue 9).state = 1 ∧ (s.queue 9).job = 0)
    ∧ (let s := sCmd (pRes 1) 2 jLoad
       let b := bindingAt (s.buffer 0x1000 32 (bind1 767)) 0
       (Instr.reserve ⟨5, []⟩ (bind1 767)).wf = true ∧ executing s 5 (cmdOf (pRes 1)) 0x03 ∧ b.kind = 4 ∧ b.calOk = true ∧ b.param < 0x8000
         ∧ (s.touchBuffers [] [((pRes 1).p0, 32)]).2 = false ∧ b.dir ≠ 1
         ∧ b.param < (s.job 0).placement.length ∧ (s.hbm.reserveAll 0 [(b, calCores b (s.job 0).placement (s.job 0).bindings)]).isSome = true
         ∧ (let s := { s with hbm := { s.hbm with cal := (upFrom 0 64).map fun n => (64 * 767 + n, ⟨1, 9, false, 0, 0⟩) } }
            executing s 5 (cmdOf (pRes 1)) 0x03
              ∧ (s.hbm.reserveAll 0 [(b, calCores b (s.job 0).placement (s.job 0).bindings)]).isNone = true))
    ∧ (let s := marked (sCmd { pRes 1 with p0 := devBuf } 2 jLoad)
       executing s 5 (cmdOf { pRes 1 with p0 := devBuf }) 0x03 ∧ (s.touchBuffers [] [(devBuf, 32)]).2 = true) := by
  unfold executing
  decide +kernel

def pArm : Packet := packet 0x04 0 0 0 0 0
def circ0 : Circ := { Circ.none with valid := true, origin := true, out := 15 }

theorem test_arm :
    (∀ d ∈ [true, false],
      (let s := sCmd pArm 2 { jLoad with det := d }
       let s := { s with fab := { s.fab with circ := [(5, circ0)] }, ports := [(15, { pIn 4 with calSusp := true })] }
       (Instr.arm ⟨5, []⟩).wf = true ∧ executing s 5 (cmdOf pArm) 0x04 ∧ (s.port (tget Circ.none s.fab.circ 5).out).calSusp = true))
    ∧ (let s := sCmd pArm 2 jLoad
       s.armFault (s.job 0) = none ∧ (s.job 0).placement.Nodup ∧ (s.job 0).placement = [127] ∧ (s.job 0).base = [img]
         ∧ (s.job 0).det = false ∧ (s.touch [] ((s.job 0).ranges 1 0)).2 = false ∧ (s.job 0).mcGroups = [])
    ∧ (let s := sCmd pArm 2 { jLoad with calRel := [(3, 0)], bindings := [⟨5, 0, 0, 1, 0, 9, 0⟩] }
       executing s 5 (cmdOf pArm) 0x04 ∧ (s.armFault (s.job 0)).isSome = true) := by
  unfold executing
  decide +kernel

def pStart (opc : BitVec 8) (p0 p1 p2 p3 : W64) : Packet := packet opc 0 p0 p1 p2 p3

theorem test_start_commands :
    (∀ x ∈ [(0, []), (0, [run0 1, run0 2]), (0, [{ run0 1 with toEnd := [0] }]), (3199, []), (3200, [])],
      (let p := pStart 0x05 15 9 (BitVec.ofNat 64 x.1) 0
       let s := sCmd p 3 { job1 with live := x.2 }
       (Instr.start 5).wf = true ∧ executing s 5 (cmdOf p) 0x05 ∧ s.clk.stopped = false ∧ s.pins.trip = false
         ∧ ((s.job 0).forbids = decide (x.2 ≠ [])) ∧ (cmdOf p).bell = 0))
    ∧ (let p := pStart 0x06 (0x0001003C) 3999999999 16 0
       let s := sCmd p 2 { job1 with state := 3 }
       (Instr.startPeriodic 5).wf = true ∧ executing s 5 (cmdOf p) 0x06)
    ∧ (∀ l ∈ [[], [run0 1]],
      (let p := pStart 0x07 0 0 0 0
       let s := sCmd p 3 { jPer l with starts := [⟨9, 5000000000, 0, 0⟩] }
       (Instr.stop 5).wf = true ∧ executing s 5 (cmdOf p) 0x07 ∧ (s.job 0).live = l ∧ ∀ x ∈ (s.job 0).starts, x.cmd ≠ 5)) := by
  unfold executing
  decide +kernel

theorem test_drain :
    (let p := packet 0x08 0xFF 5 0 0 0
     (Instr.drain 5).wf = true ∧ executing (sCmd p 2 Job.empty) 5 (cmdOf p) 0x08 ∧ (sCmd p 2 Job.empty).jobs = []
       ∧ (let s := sCmd p 3 { jPer [run0 1] with starts := [⟨9, 5000000000, 0, 0⟩] }
          executing s 5 (cmdOf p) 0x08 ∧ (s.job 0).state = 4 ∧ (s.job 0).live = [run0 1] ∧ s.jobs.length = 1))
    ∧ ∀ x ∈ [none, some (3, some 4, 5)],
      (let p := packet 0x0D 0xFF 4 0 0 0
       let s := sCmd p 3 Job.empty
       let s := { s with clk := { s.clk with change := x } }
       (Instr.setOp 5).wf = true ∧ executing s 5 (cmdOf p) 0x0D) := by
  unfold executing
  decide +kernel

/-- A descriptor image: CTRL, the reader, and the fields that each kind needs. -/
def qImage (ctl reader keys : Nat) : List Byte :=
  leBytes ctl 4 ++ leBytes reader 2 ++ leBytes 0 2 ++ leBytes 0x10000 8 ++ leBytes 0 8 ++ leBytes 64 4 ++ leBytes 4096 2 ++ leBytes 12 2
    ++ leBytes 0 32 ++ leBytes 1 4 ++ leBytes 0 4 ++ leBytes 0 4 ++ leBytes 0 2 ++ leBytes keys 2 ++ List.replicate 944 0
def pOpen : Packet := packet 0x09 0 0xFFFFF 0x1000 5 6

theorem test_channels :
    (qImage 0 0 0).length = 1024
    ∧ (∀ x ∈ [(0x1A80, 127, 0, false), (0x1A90, 63 * 256, 0, false), (0x60C04, 127, 65535, false), (0x1A83, 127, 0, true)],
      (let s := sCmd pOpen 2 jLoad
       let i := qImage x.1 x.2.1 x.2.2.1
       let d := s.buffer 0x1000 1024 i
       let q := queueOf d 0
       (Instr.openChannel ⟨5, []⟩ i).wf = true ∧ executing s 5 (cmdOf pOpen) 0x09 ∧ s.queueBad d q = x.2.2.2 ∧ (s.queue 0xFFFFF).state ≠ 1
         ∧ (s.touchBuffers [] [(pOpen.p1, 1024)]).2 = false
         ∧ (q.group = true → tget 0xFF s.qgrpJob q.reader = 0xFF) ∧ (q.kind = 1 → (s.hub q.home).combTaken + q.keys ≤ 65536)))
    ∧ (let s := sCmd pOpen 2 jLoad
       let s := { s with hubs := [(3, { Hub.reset with combRes := 2 })] }
       let d := s.buffer 0x1000 1024 (qImage 0x60C04 127 65535)
       let q := queueOf d 0
       executing s 5 (cmdOf pOpen) 0x09 ∧ s.queueBad d q = false ∧ q.group = false ∧ q.kind = 1 ∧ 65536 < (s.hub q.home).combTaken + q.keys)
    ∧ (let s := marked (sCmd { pOpen with p1 := devBuf } 2 jLoad)
       executing s 5 (cmdOf { pOpen with p1 := devBuf }) 0x09 ∧ (s.touchBuffers [] [(devBuf, 1024)]).2 = true)
    ∧ ∀ n ∈ [0, 1, 2],
      (let p := packet 0x0A 0 0xFFFFF 0 0 0
       let s := sCmd p 5 jLoad
       let s := { s with queues := [(0xFFFFF, { Queue.zero with state := n, kind := 1 })] }
       (Instr.closeChannel 5).wf = true ∧ executing s 5 (cmdOf p) 0x0A ∧ (s.queue 0xFFFFF).state = n) := by
  unfold executing
  decide +kernel

/-- A circuit of core image 0 to device 5 over 2 hops by port 14: slots 1022 and 5 of each 1,024. -/
def circ1 : List Byte :=
  leBytes 0 2 ++ leBytes 5 2 ++ leBytes 2 2 ++ leBytes 2 2 ++ leBytes 1022 2 ++ leBytes 7 2 ++ leBytes 0 4 ++ leBytes 14 8 ++ leBytes 0 8
def pCirc : Packet := packet 0x0B 0 0x1000 1 0x2000 0
def ap1 : List Byte := leBytes 0 (24 * 63) ++ leBytes 0xFFF0003F 8 ++ leBytes 0x011DFFFFF 8 ++ leBytes 0x011DFFFFF 8
def pAp : Packet := packet 0x0C 0xFF 15 0x1000 0x8000000000000000 0

theorem test_circuits_apertures :
    (let s := sCmd pCirc 2 jLoad
     let l := [circEntryAt (s.buffer 0x1000 32 circ1) 0]
     (Instr.setCircuits ⟨5, []⟩ circ1 [[4095]]).wf = true ∧ executing s 5 (cmdOf pCirc) 0x0B
       ∧ (State.installAll 0 (l.zipIdx.map fun (x : CircEntry × Nat) => (x.1, [[4095]].getD x.2 [])) 1 s).isOk = true
       ∧ (s.job 0).circuits.length = 1 ∧ (s.touchBuffers [] [(pCirc.p0, 32 * pCirc.p1.toNat)]).2 = false)
    ∧ (let s := sCmd pAp 2 Job.empty
       (Instr.setApertures ⟨5, []⟩ ap1).wf = true ∧ executing s 5 (cmdOf pAp) 0x0C
         ∧ (apertureAt (s.buffer 0x1000 1536 ap1) 63).ok = true
         ∧ (apertureAt (s.buffer 0x1000 1536 (leBytes 0 (24 * 63) ++ leBytes 1 8 ++ leBytes 0x011E00000 8 ++ leBytes 0x011E00000 8)) 63).ok = false
         ∧ (upFrom 0 64).filter (fun k => pAp.p2.getLsbD k) = [63] ∧ (s.touchBuffers [] [(pAp.p1, 1536)]).2 = false) := by
  unfold executing
  decide +kernel

def pQ (subject index : Nat) : Packet := packet 0x0E 0xFF (BitVec.ofNat 64 subject) (BitVec.ofNat 64 index) 0x8000011F40000000 1024
def frec : FRec := ⟨11, true, false, false, 256, 1, 2, 3, 4, 5, 6, 7, 8, 9⟩

theorem test_queries :
    (∀ x ∈ [(0, 0), (1, 63), (2, 0x7F + 256 * 4095), (3, 0xFFFFF), (4, 4095), (5, 65535)],
      (let s := sCmd (pQ x.1 x.2) 7 Job.empty
       let s := { s with host := { s.host with state := if x.1 = 0 then 7 else 5 } }
       (Instr.query 5).wf = true ∧ executing s 5 (cmdOf (pQ x.1 x.2)) 0x0E))
    ∧ (∀ f ∈ [0, 1],
      (let p := packet 0x0F 0xFF (BitVec.ofNat 64 f) 0x1000 2 0
       let s := sCmd p 5 Job.empty
       let s := { s with fl := { s.fl with log := [(0, some frec), (1, some { frec with ack := true }), (2, some frec)], head := 3 } }
       (Instr.faults 5).wf = true ∧ executing s 5 (cmdOf p) 0x0F
         ∧ (s.fl.oldest.filter fun x => !x.2.ack).take (cmdOf p).p.p2.toNat = [(0, frec), (2, frec)])) := by
  unfold executing
  decide +kernel

theorem test_captures :
    (let p := packet 0x10 0xFF 0 1 0x8000000000000000 0
     let s := sCmd p 5 Job.empty
     (Instr.captureTake 5).wf = true ∧ executing s 5 (cmdOf p) 0x10 ∧ p.p0.getLsbD 0 = false ∧ s.fl.capB = false)
    ∧ (let p := packet 0x10 0xFF 1 0x7FFFF00 0x1000 0x100
       (Instr.captureRead ⟨5, []⟩).wf = true ∧ executing (sCmd p 5 Job.empty) 5 (cmdOf p) 0x10 ∧ p.p0.getLsbD 0 = true
         ∧ ((sCmd p 5 Job.empty).touch [] [(0x011F50000000 + p.p1.toNat, p.p3.toNat)]).2 = false)
    ∧ (∀ t ∈ [1, 2],
      (let p := packet 0x10 0xFF 0 1 0 0
       let s := sCmd p 5 Job.empty
       let s := { s with
         fl := { s.fl with capB := true, capT := t, capCores := [0, 127], capCmd := some 5, log := [(4095, some frec)] }
         host := { s.host with exec := [acting p] } }
       Instr.captureDone.wf = true ∧ s.fl.capB = true ∧ (∀ k ∈ s.fl.capCores, k < 128 ∧ (s.core k).ms.readers.length ≤ 1024)
         ∧ (∀ x ∈ s.fl.log, x.1 < 4096) ∧ s.cmd 5 = some (acting p)))
    ∧ ∀ n ∈ [0, 2, 63], (Instr.capLockRelease ⟨(BitVec.ofNat 32 n), true⟩).wf = true ∧ (BitVec.ofNat 32 n).toNat < 64 := by
  unfold executing
  decide +kernel

def pPort (n : Nat) (p1 p2 : W64) : Packet := packet 0x12 0xFF (BitVec.ofNat 64 n) p1 p2 0

theorem test_port_commands :
    (∀ x ∈ [(0, 2), (0, 3), (1, 2), (2, 2)],
      (let p := pPort (16 * x.1 + 15) 0x3FFFFFF 0
       let s := sCmd p 2 Job.empty
       let s := { s with ports := [(15, pIn 4)], fab := { s.fab with role := x.2 } }
       ((Instr.portReset 5).wf && (Instr.portHoldDown 5).wf && (Instr.portWriteCfg 5).wf) = true
         ∧ executing s 5 (cmdOf p) 0x12 ∧ p.p0.toNat % 16 = 15 ∧ p.p0.toNat / 16 % 16 = x.1))
    ∧ (∀ r ∈ [1, 2],
      (let p := pPort 48 0x1000 2
       let s := sCmd p 2 Job.empty
       let s := { s with fab := { s.fab with role := r, ids := [(List.replicate 20 7, 4095)] }, mss := { s.mss with serial := List.replicate 20 1 } }
       let map := List.replicate 20 1 ++ leBytes 0 4 ++ List.replicate 20 7 ++ leBytes 4095 4
       let d := s.buffer 0x1000 48 map
       let entry := fun (k : Nat) => ((d.drop (24 * k)).take 20, leAt d (24 * k + 20) 2)
       (Instr.loadClusterMap ⟨5, []⟩ map).wf = true ∧ executing s 5 (cmdOf p) 0x12
         ∧ (∀ k ∈ [0, 1], (entry k).2 < 4096 ∧ leAt d (24 * k + 22) 2 = 0 ∧ ((entry k).1 = s.mss.serial → (entry k).2 = 0)
           ∧ ∀ y ∈ s.fab.ids, y.2 = (entry k).2 → y.1 = (entry k).1)
         ∧ (entry 0).1 ≠ (entry 1).1 ∧ (entry 0).2 ≠ (entry 1).2 ∧ p.p0.toNat / 16 % 16 = 3
         ∧ (s.touchBuffers [] [(p.p1, 24 * p.p2.toNat)]).2 = false ∧ s.fab.role = r)) := by
  unfold executing
  decide +kernel

theorem test_time_commands :
    (let p := packet 0x13 0xFF 0 8192 0 0
     let s := sCmd p 2 Job.empty
     let s := { s with hbm := { s.hbm with resv := [(0, { Resv.free with valid := true })] } }
     (Instr.timeCtrlStep 5 false).wf = true ∧ (Instr.timeCtrlStep 5 true).wf = true ∧ executing s 5 (cmdOf p) 0x13 ∧ s.timeBusy = true)
    ∧ (∀ x ∈ [((1 : Int), (8192 : Int)), (1, 24575), (-1, -24576), (-1, -8193)],
      (let p := packet 0x13 0xFF 0 (BitVec.ofInt 64 x.2) 0 0
       executing (sCmd p 2 Job.empty) 5 (cmdOf p) 0x13 ∧ (sCmd p 2 Job.empty).timeBusy = false ∧ 16384 * x.1 - 8192 ≤ p.p1.toInt
         ∧ p.p1.toInt < 16384 * x.1 + 8192))
    ∧ (let p := packet 0x13 0xFF 1 0 0x1000 0
       (Instr.timeCtrlRead 5).wf = true ∧ executing (sCmd p 2 Job.empty) 5 (cmdOf p) 0x13)
    ∧ ∀ b ∈ [true, false],
      (let p := packet 0x14 0xFF 0x1000 4096 0x2000 0
       let s := sCmd p 7 Job.empty
       let s := { s with mss := { s.mss with restart := b } }
       (Instr.mss ⟨5, []⟩ [1]).wf = true ∧ executing s 5 (cmdOf p) 0x14 ∧ s.mss.restart = b
         ∧ (s.touchBuffers [] [(p.p0, p.p1.toNat % 2 ^ 16)]).2 = false) := by
  unfold executing
  decide +kernel

/-! ### Faults of runs and the compute reset -/

def hurt (n : Nat) : Run := { run0 n with toEnd := [0], fault := some (50, 0, 3, .efault) }
def sFlt (l : List Run) (c : Core) : State := { at1 c with
  jobs := [(0, { jPer l with starts := [⟨9, 5000000000, 0, 0⟩] })], clk := { State.reset.clk with tbt := 400000 }
  host := { State.reset.host with rings := [(0, { Ring.zero with ctrl := rctl 1 6 12 })] } }
def core3 (st : Stop) : Core := { core1 with rn := { core1.rn with stop := st } }

theorem test_run_faults :
    (let s := sFlt [hurt 1, run0 2] core1
     fit (.runHalt 0) s = true ∧ (s.job 0).live.find? (fun x => x.fault.isSome && !x.halted) = some (hurt 1)
       ∧ s.fl.capB = false ∧ s.fl.capL = false)
    ∧ (let s := sFlt [{ hurt 1 with halted := true }, run0 2] (core3 .job)
       (Instr.haltQuiesced 0).wf = true ∧ (∃ x ∈ (s.job 0).live, x.halted = true)
         ∧ (∀ k ∈ (s.job 0).placement, (s.core k).rn.stop = .no ∨ (s.core k).quiet = true) ∧ s.fl.capB = false
         ∧ (s.ring 0).en = true ∧ (s.ring 0).full = false)
    ∧ (let s := sFlt [{ run0 1 with deadline := 100 }, run0 2] core1
       (Instr.runDeadline 0 1).wf = true ∧ (s.job 0).live.find? (fun x => x.idx = 1) = some { run0 1 with deadline := 100 }
         ∧ 4000 * 100 ≤ s.clk.tbt.toNat)
    ∧ (let s := sFlt [{ run0 1 with deadline := 101 }, run0 2] core1
       (s.job 0).live.find? (fun x => x.idx = 1) = some { run0 1 with deadline := 101 } ∧ s.clk.tbt.toNat < 4000 * 101)
    ∧ (let s := sFlt [run0 1] { core3 .own with dm := { core1.dm with txns := [txnOut] } }
       let s := { s with fl := { s.fl with stops := [(0, 0)] }, clk := { s.clk with tbt := 4000000 }, cfg := { s.cfg with rsAuto := true } }
       (Instr.quiesceTimeout 0).wf = true ∧ s.fl.stops.find? (fun x => x.1 = 0) = some (0, 0) ∧ 4000000 ≤ s.clk.tbt.toNat
         ∧ (s.core 0).quiet = false ∧ (s.core 0).rn.stop ≠ .no ∧ s.cfg.rsAuto = true) := by
  decide +kernel

def sWd (limit : Nat) (c : Core) (tbt : Nat) : State := { at1 c with
  cfg := { State.reset.cfg with wdLimit := limit }, clk := { State.reset.clk with tbt := BitVec.ofNat 64 tbt } }

theorem test_watchdog_states :
    (∀ tbt ∈ [39000, 41000],
      (let s := sWd 10 core1 tbt
       let k := reached s 0 0
       fit (.watchdogNoProgress 0 0) s = true ∧ (k.ctx k.rn.ctx).used = true ∧ (k.ctx k.rn.ctx).done = false ∧ k.rn.stop = .no
         ∧ k.rn.progress + 4000 * s.cfg.wdLimit = 40000))
    ∧ (let s := sWd 0 core1 41000
       fit (.watchdogNoProgress 0 0) s = true ∧ 4000 * s.cfg.wdLimit = 0)
    ∧ (let s := sWd 10 { core1 with rn := { core1.rn with c0 := ⟨false, 0, 0, false⟩ } } 41000
       let k := reached s 0 0
       fit (.watchdogNoProgress 0 0) s = true ∧ k.ms.handler = none ∧ (k.ctx k.rn.ctx).used = false) := by
  decide +kernel

theorem test_watchdog_instants :
    ((sWd 10 core1 39000).copyTbt ((sWd 10 core1 39000).phys 0)).toNat < 40000
      ∧ 40000 ≤ ((sWd 10 core1 41000).copyTbt ((sWd 10 core1 41000).phys 0)).toNat := by
  have h1 := copy_range (sWd 10 core1 39000) ((sWd 10 core1 39000).phys 0) 39000 rfl (by decide) (by decide)
  have h2 := copy_range (sWd 10 core1 41000) ((sWd 10 core1 41000).phys 0) 41000 rfl (by decide) (by decide)
  omega

def rr0 : ResetRun := ⟨[], [], false, 20000⟩
def pCr (n : W64) : Packet := packet 0x11 0xFF n 0 0 0

theorem test_compute_reset :
    rr0.micros ≤ 20000 ∧ (∀ n ∈ [1, 2, 8], (Instr.computeReset 5 n rr0).wf = true ∧ (Instr.autoReset n rr0).wf = true)
    ∧ (∀ n ∈ [0, 1],
      (let s := sCmd (pCr (BitVec.ofNat 64 n)) 5 Job.empty
       executing s 5 (cmdOf (pCr (BitVec.ofNat 64 n))) 0x11 ∧ s.fl.rsBusy = 0 ∧ s.fl.capB = false ∧ (s.host.exec.map (·.id)).Nodup))
    ∧ (let s := sCmd (pCr 1) 6 Job.empty
       let s := { s with fl := { s.fl with rsBusy := 1, rsCmds := [5] }, host := { s.host with exec := [acting (pCr 1)] } }
       s.cmd 5 = some (acting (pCr 1)) ∧ 5 ∈ s.fl.rsCmds ∧ s.fl.capB = false ∧ (s.host.exec.map (·.id)).Nodup)
    ∧ (let s := sCmd (pCr 1) 6 Job.empty
       let s := { s with fl := { s.fl with rsBusy := 1 } }
       executing s 5 (cmdOf (pCr 1)) 0x11 ∧ s.fl.rsBusy ≠ 0)
    ∧ ∀ t ∈ [4000000001, 4000000002],
      (let s := sCmd (pCr 1) 5 Job.empty
       let s := { s with fl := { s.fl with autoAt := some t } }
       s.fl.autoAt = some t ∧ s.fl.rsBusy = 0 ∧ s.host.state = 5 ∧ s.fl.capB = false ∧ (s.host.exec.map (·.id)).Nodup
         ∧ s.clk.tbt.toNat = 4000000001) := by
  unfold executing
  decide +kernel

/-! ### The MSS and the registers -/

/-- MSS firmware runs. -/
def sMss (f : MssState → MssState) : State := { State.reset with
  mss := f { State.reset.mss with up := true }, clk := { State.reset.clk with tbt := 400000000 } }

/-- Every sensor reads 20 °C, and some others. -/
def sample (l : List (Nat × Option Int)) : Sample where
  temps := (upFrom 0 164).map fun n => ((l.find? fun x => x.1 = n).map (·.2)).getD (some 20)
  rails := [(800, 65535, 3, true)]
  avg1 := 1000
  avg10 := 900

theorem test_samples :
    (∀ x ∈ [(sample [(3, some 100), (150, some 115), (154, some 105)], 3, 100), (sample [(3, none), (154, some 106), (163, some (-40))], 154, 106)],
      (Instr.sensorSample x.1).wf = true ∧ (sMss id).mss.awake = true ∧ x.1.temps.getD x.2.1 none = some x.2.2 ∧ x.2.2 ≤ 150)
    ∧ (∀ i ∈ [0, 1, 2], ∃ u ∈ [(20 : Int), 106], (sample [(3, none), (154, some 106)]).temps.getD (152 + i) none = some u)
    ∧ (sample [(3, none)]).temps.getD 3 none = none := by
  decide +kernel

theorem test_hot_sample :
    let u := (sMss id).sampleRegs (sample [(3, some 100)])
    u.critical = none ∧ u.mss.hot 10 = some 3 ∧ (sMss id).detArmed = false ∧ (sMss id).mss.lastThr = none ∧ (sMss id).targetOp < 4 := by
  decide +kernel

theorem test_throttle_cap :
    (∀ bad ∈ [0, 1],
      (let s := sMss fun m => { m with throttle := 4, lastBad := bad }
       Instr.throttleReturn.wf = true ∧ s.mss.awake = true ∧ s.clk.hostOp < s.mss.throttle
         ∧ (decide (s.mss.lastBad + 400000000 ≤ s.clk.tbt.toNat) = decide (bad = 0))))
    ∧ ∀ l ∈ [[], [run0 1]],
      (let s := sMss fun m => { m with pcapPend := some 24 }
       let s := { s with jobs := [(0, { job1 with det := true, live := l })] }
       Instr.pcapApply.wf = true ∧ s.mss.pcapPend = some 24 ∧ s.mss.awake = true ∧ s.detRun = decide (l ≠ [])
         ∧ ∀ n ∈ [0, 24, 25, 31], (Instr.mgPcapWrite (BitVec.ofNat 32 n)).wf = true ∧ (BitVec.ofNat 32 n).toNat < 32) := by
  decide +kernel

theorem test_ledger_digests :
    (∀ lost ∈ [0, 5],
      (let s := sMss fun m => { m with ledNext := 262143, ledBuf := [⟨1, 2, 3, []⟩, ⟨1, 3, 3, [1]⟩], ledLost := lost }
       Instr.ledgerFlush.wf = true ∧ s.mss.awake = true ∧ s.mss.ledNext < 262144 ∧ s.mss.ledBuf.length < 262144
         ∧ s.mss.ledBuf[1]? = some ⟨1, 3, 3, [1]⟩ ∧ s.mss.ledLost = lost))
    ∧ (let s := { at1 { core1 with mx := { core1.mx with rodPend := 5 } } with mss := (sMss id).mss, fl := { State.reset.fl with pendCore := [135] } }
       Instr.remapFlashCopy.wf = true ∧ s.mss.awake = true ∧ 135 ∈ s.fl.pendCore ∧ (s.core 0).mx.rodPend.getLsbD 2 = true)
    ∧ (let d : Digest := { Digest.empty with state := 1, sign := true, ins := [(0x1000, 5)] }
       let s := sMss fun m => { m with digests := [(7, d)], hashing := [7], signing := [9, 7] }
       (Instr.hashComplete ⟨7, []⟩).wf = true ∧ 7 ∈ s.mss.hashing ∧ (Instr.digestSign 9).wf = true ∧ s.mss.signing = 9 :: [7]
         ∧ (tget Digest.empty s.mss.digests 7).sign = true) := by
  decide +kernel

theorem test_register_writes :
    (∀ n ∈ [0, 1], ∀ busy ∈ [0, 1],
      (let s := sMss fun m => { m with mbStatus := BitVec.ofNat 32 busy }
       (Instr.mbGo (BitVec.ofNat 32 n)).wf = true ∧ (BitVec.ofNat 32 n).toNat < 2 ∧ s.mss.mbStatus.getLsbD 0 = decide (busy = 1)
         ∧ s.mss.awake = true))
    ∧ (∀ n ∈ [0, 127], (Instr.mgAlertClear ⟨(BitVec.ofNat 32 n), true⟩).wf = true ∧ (BitVec.ofNat 32 n).toNat < 128)
    ∧ (∀ n ∈ [0, 9, 4000001], (Instr.wdLimitWrite (BitVec.ofNat 32 n)).wf = true)
    ∧ (∀ off ∈ [0x6000020, 0x6000030, 0x5000004, 0x5000008, 0x5000024, 0x1C, 0x10800C, 0x200000 + 0x1000 * 255, 0x200004 + 0x1000 * 255,
        0x10201C + 0x40 * 255, 0x102010 + 0x40 * 255, 0x6000040, 0x5000020, 0x1000000, 0x40FFFFC],
      (Instr.registerWrite off ⟨4, false, .whole⟩ 1).wf = true ∧ (Instr.registerWrite off ⟨8, false, .low⟩ 1).wf = true ∧ off + 8 ≤ 0x10000000 ∧ off % 4 = 0)
    ∧ (∀ h ∈ [Half.whole, .low, .high], (Instr.registerWrite 0x6000022 ⟨4, true, h⟩ 1).wf = true
      ∧ (Instr.registerWrite 0x6000020 ⟨8, false, h⟩ 1).wf = true) ∧ 0x6000020 % 8 = 0 ∧ isWide 0x6000020 = false := by
  decide +kernel

theorem test_register_reads :
    (∀ off ∈ [0, 2, 0x4000008, 0x400000C, 0x3000028 + 0x80000 * 15, 0x100D008 + 0x10000 * 127, 0x600000C],
      (Instr.rcRegisterRead off ⟨4, false, .whole⟩).wf = true ∧ off + 4 ≤ 0x10000000)
    ∧ foreign 0 = false ∧ Instr.tmTbtLowRead.wf = true ∧ State.reset.host.state ≠ 6
    ∧ { State.reset.clk with latch := some 7 }.latch = some 7 := by
  decide +kernel

/-! ### Messages -/

def sServe (r : Transport) (f : MssState → MssState) : State :=
  let s := sMss fun m => f { m with queue := if r = .mailbox || r = .command 5 then [r] else [] }
  { s with host := { s.host with exec := [acting (packet 0x14 0xFF 0x1000 64 0x2000 4096)], rings := [(255, { Ring.zero with ctrl := rctl 1 6 12 })] } }

def every : List Transport := [.i3c, .mailbox, .command 5]

theorem test_vendor_messages : ∀ r ∈ every,
    (let s := sServe r id
     s.serves r = true ∧ r ≠ .doe ∧ (Instr.getStatus r).wf = true ∧ (∀ n ∈ [1, 60], (Instr.ledgerRead r 262143 n).wf = true)
       ∧ (∀ b ∈ [true, false], (Instr.setRoots r b [[1]]).wf = true)
       ∧ (sServe r fun m => { m with spdm := ⟨true, true, true, true, [], []⟩ }).mss.spdm.final = true
       ∧ (Instr.clearAlert r ⟨5, true⟩).wf = true ∧ (∀ k ∈ [1, 2, 3, 4, 5, 6], (Instr.pldmBase r k [7]).wf = true)
       ∧ (∀ n ∈ [0, 163, 164, 185], (Instr.pldmSensorRead r n).wf = true) ∧ (Instr.pldmFirmwareUpdate r [] [] false).wf = true
       ∧ s.mss.update = false ∧ s.host.state ≠ 7 ∧ (∀ e ∈ [0, 1, 255], (Instr.endpointIdAssignment r (BitVec.ofNat 8 e)).wf = true)
       ∧ (∀ o ∈ [true, false], ∀ d ∈ [true, false], (Instr.mssRestart o r d).wf = true)
       ∧ s.servesAny r = true ∧ (Instr.mctpUnsupported r 5 1).wf = true) := by
  decide +kernel

/-- An image that R523 accepts if its signature is good; whether one is, is left to the free function that checks it. -/
def fwImage (svn : Nat) : List Byte := [0x47, 0x5A, 0x46, 0x57] ++ leBytes 9 4 ++ leBytes svn 4 ++ leBytes 64 4 ++ List.replicate 48 0
def fwSig : List Byte := List.replicate 512 1

theorem image_good_iff (svn fuse : Nat) (h : fuse ≤ svn) (hs : svn = 0 ∨ svn = 63) :
    imageGood (fwImage svn) fwSig fuse = Config.rsaVerify Config.firmwareKey (fwImage svn) fwSig := by
  have hb : ∀ n ∈ [0, 63], imageBad (fwImage n) = false ∧ imageSvn (fwImage n) = n := by decide +kernel
  have hl : fwSig.length = 512 := by decide +kernel
  have := hb svn (by rcases hs with h | h <;> simp [h])
  simp [imageGood, this.1, this.2, hl, h]

theorem test_restarts :
    (let s := sServe (.command 5) id
     s.mss.awake = true ∧ .command 5 ∈ s.mss.queue ∧ s.cmd 5 = some (acting (packet 0x14 0xFF 0x1000 64 0x2000 4096)))
    ∧ (sMss fun m => { m with up := false, restart := true }).mss.restart = true
    ∧ (let s := { sServe .i3c (fun m => { m with up := false }) with host := { State.reset.host with state := 7 } }
       s.servesAny .i3c = true ∧ s.host.state = 7 ∧ s.mss.update = false) := by
  decide +kernel

def spdmAt (v a s f : Bool) : Spdm := ⟨v, a, s, f, [1], [2]⟩

theorem test_spdm : ∀ r ∈ every,
    (∀ x ∈ [spdmAt false false false false, spdmAt true false false false, spdmAt true true false false, spdmAt true true true false,
        spdmAt true true true true],
      (let s := sServe r fun m => { m with spdm := x, chain := [1, 2, 3] }
       s.serves r = true ∧ s.mss.spdm = x ∧ 3 ≤ s.mss.chain.length))
    ∧ ([.getVersion r, .getCapabilities r, .negotiateAlgorithms r true true true true, .negotiateAlgorithms r true true true false,
        .getDigests r, .getCertificate r 0 0 3, .getCertificate r 0 3 1, .challenge r 0 [1], .getMeasurements r [1, 6],
        .keyExchange r [1] [2], .finish r [], .endSession r, .ideKeyManagement r true [1], .ideKeyManagement r false [1]].all Instr.wf) = true := by
  decide +kernel

/-- The proof that FINISH asks for, and another one. -/
theorem test_finish (r : Transport) : (Instr.finish r (Config.finishMac [1] [2])).wf = true
    ∧ (Instr.finish r (0 :: Config.finishMac [1] [2])).wf = true ∧ 0 :: Config.finishMac [1] [2] ≠ Config.finishMac [1] [2] :=
  ⟨rfl, rfl, by intro h; simpa using congrArg List.length h⟩

/-! ### The package -/

def pins (pwrok perst : Bool) (sel boot : BitVec 2) : PinLevels := { pwrok := pwrok, perstN := perst, masterSel := sel, bootMode := boot }
def sPins (st : Nat) (latched perst trip : Bool) (boot : BitVec 4) : State := { State.reset with
  host := { State.reset.host with state := st }, pins := ⟨true, perst, boot, latched, trip, []⟩ }

theorem test_package :
    (∀ x ∈ [(false, true, true), (true, false, false), (true, true, false), (true, false, true)],
      (Instr.packageReset (pins x.1 x.2.1 0 0)).wf = true ∧ (sPins 2 true true x.2.2 0).pins.trip = x.2.2)
    ∧ (∀ m ∈ [0, 1, 2, 3],
      (let p := pins true true (BitVec.ofNat 2 m) 0
       let s := sPins 1 false true false 0
       (Instr.boot p true []).wf = true ∧ (Instr.boot p false [(3, 33)]).wf = true ∧ s.host.state = 1 ∧ s.pins.latched = false
         ∧ s.pins.trip = false ∧ p.pwrok = true ∧ p.perstN = true))
    ∧ (∀ b ∈ [0, 1, 3],
      (let s := sPins 1 true true false (BitVec.ofNat 4 (4 * b))
       (Instr.bootImageVerified (fwImage 63) fwSig 1000000).wf = true ∧ s.host.state = 1 ∧ s.pins.latched = true ∧ s.mss.image = []
         ∧ s.pins.straps.toNat / 4 % 4 = b ∧ s.mss.fuseSvn = 0))
    ∧ imageGood [] [] 0 = false
    ∧ (∀ i ∈ [136, 140, 143],
      ({ sPins 1 true true false 0 with
        clk := { State.reset.clk with isl := [(i, { Island.off with failed := true })] } } : State).planeBad = true)
    ∧ ({ sPins 1 true true false 0 with fl := { State.reset.fl with spare := [(7, 3)] } } : State).rowShort = true
    ∧ (sPins 1 true true false 0).planeBad = false ∧ (sPins 1 true true false 0).rowShort = false
    ∧ (Instr.thermtrip 163).wf = true ∧ ∀ b ∈ [true, false], (sPins 2 true b false 0).pins.perstN = b ∧ (Instr.jtagExtest [(1, true)]).wf = true := by
  decide +kernel

theorem test_brown_out (r : WatchedRail) : (Instr.brownOut r).wf = true := rfl

/-! ### Invariants -/

/-- A state with registers at the ends of their ranges, bytes in HBM, a calendar, an island, a port, and two commands. -/
def sInv : State := { State.reset with
  cfg := ⟨10, [(3, 60000), (255, 1)], 63, true, 24, 8191⟩
  hbm := { State.reset.hbm with mem := [(5, 1), (0x011FFFFFFFFF, 255)], pois := [(7, true)], cal := [(64, ⟨1, 9, true, 0, 0⟩)] }
  clk := { State.reset.clk with isl := [(0, calm), (136, calm)] }, ports := [(15, { pIn 4 with cal := [(1023, ⟨true, 5, false, false, 0⟩)] })]
  host := { State.reset.host with elastic := [cmdOf (pCr 0)], exec := [{ cmdOf (pCr 0) with id := 0 }] }, nextId := 6 }

theorem test_in_range : inRange sInv.cfg := by
  refine ⟨by decide, fun r => ?_, by decide, by decide, by decide⟩
  simp only [sInv, Cfg.deferOf, tget]
  split <;> [decide; (split <;> decide)]

theorem test_tables_canonical : tablesCanonical sInv := by
  refine ⟨by decide +kernel, by decide +kernel, by decide +kernel, fun p => ?_⟩
  simp only [sInv, State.port, tget]
  split <;> decide +kernel

theorem test_invariants : memoryCanonical sInv ∧ identitiesUnique sInv := by
  unfold memoryCanonical identitiesUnique
  decide +kernel

/-- Commands on a device that has its ID answer next states. -/
theorem test_identity : sPkt.fab.idValid = true ∧ (match exec .ppsOutFall sPkt with
    | .next t => decide (t.clk.tbt = sPkt.clk.tbt)
    | _ => false) = true := by decide +kernel

/-- A step of that state answers a next state. -/
theorem test_invariant_step : (match step sInv with
    | .next _ => true
    | _ => false) = true := by decide +kernel

/-! ### Ill-formed commands -/

/-- The command is refused for a unit that the part does not have, or for an encoding that the loader turns away; it has no effect. -/
def noUnit (i : Instr) : Bool := match exec i State.reset with
  | .refused .noSuchUnit => !i.unitsOk
  | _ => false
def noWord (i : Instr) : Bool := match exec i State.reset with
  | .refused .reservedEncoding => i.unitsOk && !i.fieldsOk
  | _ => false

theorem test_no_such_unit : ([
    .skip ⟨128, 0, 0, none⟩ .seq, .blockBoundary 128 0, .frameTick 64, .runCutoff 768 0 [], .runCutoff 0 64 [], .hbmReadEgress 0 512,
    .groupAssign (2 ^ 20), .droopNotice 137 0, .timebaseCopyCorrection 162, .portStateTimeout 16, .creditTimeout 0 4,
    .laneLossOfLock 0 5, .pktWrite { pk hdr0 [1] with port := 16 }, .doorbellSqTail 256 0, .thermtrip 164].all noUnit) = true := by decide +kernel

def xBad : Issue := ⟨0, 0, 2 ^ 22, none⟩
def vf : VopFields := ⟨0, 0, ⟨1, 0⟩, ⟨0, 0⟩, ⟨0, 0⟩, ⟨0, 0⟩, 0, false, 0, false, 0⟩

theorem test_reserved_encodings : ([
    .skip xBad .seq, .add xBad f0, .tinc x0 .seq ⟨true, 0, false⟩ (.imm 1), .tdec x0 .seq ⟨false, 0, true⟩ (.imm 1),
    .cmp x0 ⟨8, 0, 0, false, 0⟩ 0, .cmp x0 f0 6, .plog x0 8 0 0 0, .plog x0 0 8 0 0, .plog x0 0 0 8 0, .plog x0 0 0 0 5,
    .aadd x0 ⟨32, 0, 0, false, 0⟩, .aadd x0 ⟨0, 32, 0, false, 0⟩, .amov x0 32 0, .sfroma x0 0 32, .movia x0 0 (2 ^ 48),
    .rdsys x0 0 8, .ld x0 ⟨0, 32, 0, 0, false, false, 0⟩ [], .lda x0 ⟨0, 0, 0, 2, false, false, 0⟩ [],
    .lda x0 ⟨32, 0, 0, 3, false, false, 0⟩ [], .sta x0 ⟨0, 0, 32, 3, false, false, 0⟩ [],
    .atom x0 ⟨0, 0, 0, 1, false, false, 0⟩ 0 false 0 [], .atom x0 ⟨0, 0, 0, 3, false, false, 0⟩ 5 false 0 [],
    .br xg 0 0 0 0 0].all noWord) = true := by decide +kernel

theorem test_reserved_array_encodings : ([
    .mldw xg l0 0 false 0 [], .mldw x0 ⟨true, 32, 0⟩ 0 false 0 [], .mldw x0 l0 7 false 0 [], .mldw x0 l0 2 true 0 [],
    .mmul x0 l0 10 false 0 0 0 false [] [], .mclr xg 0, .manc xg 0 0, .mout x0 0 0 3 false, .mout x0 0 63 2 false, .mout x0 0 0 2 true,
    .mflg xg 0 0, .mraw xg l0 0 0 [], .vop x0 { vf with srca := ⟨2, 0⟩ }, .vop x0 { vf with opx := ⟨0, 1⟩ },
    .vop x0 { vf with opy := ⟨1, 64⟩ }, .vldStrided x0 (.v 0) l0 0 0 0 false [], .vldStrided x0 (.v 0) l0 0x2000 0 0 false [],
    .vldStrided x0 (.v 0) l0 1 3 0 false [], .vldStrided x0 (.v 0) l0 1 0 1 false [], .vldStrided x0 (.v 0) l0 1 1 1 false [],
    .vldTranspose x0 49 l0 0 true false [], .vldTranspose x0 0 l0 3 true false [], .vldTranspose x0 0 ⟨false, 0, 1⟩ 0 false false [],
    .datom x0 (da 5 false .dev), .qsend x0 0 ⟨false, 0⟩ 7 57 false, .qcsend x0 0 ⟨false, 0⟩ 2 0 0,
    .qcsend x0 0 ⟨false, 0⟩ 1 63 0].all noWord) = true := by decide +kernel

/-! ### The queue and the arithmetic of the spec -/

/-- The command at the front runs, and leaves the queue. -/
theorem test_front : (match step { State.reset with pending := [.wdLimitWrite 9, .tmTbtLowRead] } with
    | .next t => t.cfg.wdLimit = 10 && t.pending == [.tmTbtLowRead]
    | _ => false) = true := by decide +kernel

/-- CRC-32C of the nine digits: the check value of the polynomial that 13 R381 names. -/
theorem test_crc : crc32c [0x31, 0x32, 0x33, 0x34, 0x35, 0x36, 0x37, 0x38, 0x39] = 0xE3069283 := by decide +kernel


end Sys2Proof.Tests
end

section
/-!
SUPPORT. Admission: a well-formed command acts, and every command is admitted by the same check (R16; notes/assumptions/1.md).
-/

namespace Sys2Proof.Machine

open Sys2Proof Sys2Proof.Safety

/-! ### Admission -/

theorem accept_of_wf {i : Instr} (h : i.wf = true) (t : State) : accept i t = .next t := by
  obtain ⟨hu, hf⟩ := Bool.and_eq_true_iff.1 h
  exact accept_next t hu hf

theorem exec_next {i : Instr} {s t : State} (hi : i.wf = true) (h : exec i s = accept i t) : exec i s = .next t :=
  h.trans (accept_of_wf hi t)

theorem yields_of_wf {i : Instr} {s t u : State} (hi : i.wf = true) (h : exec i s = accept i t) (ht : t = u) : yields i s u :=
  ht ▸ exec_next hi h

/-- The meaning of every command is an admission: the state that it makes is used only if the command is well formed. -/
theorem exec_eq_accept (i : Instr) (s : State) : ∃ t, exec i s = accept i t := by
  cases i
  all_goals exact ⟨_, rfl⟩

theorem exec_of_wf {i : Instr} (h : i.wf = true) (s : State) : ∃ t, exec i s = .next t := by
  obtain ⟨t, ht⟩ := exec_eq_accept i s
  exact ⟨t, ht.trans (accept_of_wf h t)⟩

theorem exec_of_not_wf {i : Instr} (h : i.wf = false) (s : State) : ∃ r, exec i s = .refused r := by
  obtain ⟨t, ht⟩ := exec_eq_accept i s
  rcases accept_cases i t with ⟨_, hr⟩ | ⟨_, _, hr⟩ | ⟨hu, hf, _⟩
  · exact ⟨_, ht.trans hr⟩
  · exact ⟨_, ht.trans hr⟩
  · simp [Instr.wf, hu, hf] at h

/-- Settles O57: the check of admission alone decides, and every command goes through it. -/
theorem wellFormedCommandsAct : Obligations.WellFormedCommandsAct := fun _ s =>
  ⟨fun h => exec_of_wf h s, fun h => exec_of_not_wf h s⟩

/-- Settles O1: `step` on a queue that is not empty is `exec` of its front, by definition. -/
theorem stepRunsTheFrontCommand : Obligations.StepRunsTheFrontCommand := fun _ _ _ => rfl

end Sys2Proof.Machine
end

section
/-!
SUPPORT. What a write of a register does, register by register (14 R422 to R434; 16 R488, R503; 17 R511, R526).
-/

namespace Sys2Proof.Machine

open Sys2Proof Sys2Proof.Safety

/-! ### Registers with reserved fields -/

/-- A value of `n` bits has no bit outside the mask of its `n` low bits. -/
theorem and_not_lowMask {n : Nat} {v : W32} (hv : v.toNat < 2 ^ n) :
    v &&& ~~~ (BitVec.ofNat 32 (2 ^ n - 1)) = 0 := by
  apply BitVec.eq_of_getLsbD_eq
  intro i hi
  have hbit : v.getLsbD i = true → i < n := fun h => by
    by_contra hge
    have := Nat.testBit_lt_two_pow (hv.trans_le (Nat.pow_le_pow_right (by decide) (not_lt.1 hge)))
    simp [BitVec.getLsbD, this] at h
  by_cases h : v.getLsbD i = true
  · simp [BitVec.getLsbD_ofNat, Nat.testBit_two_pow_sub_one, h, hbit h, hi]
  · simp [h]

/-- A write that sets no reserved bit stores its value (R12). -/
theorem State.defined_low (s : State) {n : Nat} {v : W32} (hv : v.toNat < 2 ^ n) :
    s.defined (BitVec.ofNat 32 (2 ^ n - 1)) v = (s, v) := by
  simp [State.defined, and_not_lowMask hv]

theorem bits_low {x w : Nat} (h : x < 2 ^ w) : bits x 0 w = x := by
  simp [bits, Nat.mod_eq_of_lt h]

/-! ### The mailbox block -/

theorem State.writeMbCtrl_of_low (s : State) {v : W32} (hv : v.toNat < 2) :
    s.writeMbCtrl v =
      if !v.getLsbD 0 || s.mss.mbStatus.getLsbD 0 || !s.mss.awake then s
      else { s with mss := { s.mss with mbStatus := 1, queue := s.mss.queue ++ [.mailbox] } } := by
  have h : s.defined 0x1 v = (s, v) := s.defined_low (n := 1) hv
  simp only [State.writeMbCtrl, h]

/-- A code above 24 sets the error bit alone (R511). -/
theorem State.writePcap_bad (s : State) {v : W32} (hv : v.toNat < 32) (hc : 24 < v.toNat) :
    s.writePcap v = { s with mss := { s.mss with pcapErr := true } } := by
  have h : s.defined 0x1F v = (s, v) := s.defined_low (n := 5) hv
  simp only [State.writePcap, h, bits_low (w := 5) hv, if_pos hc]

theorem State.writePcap_good (s : State) {v : W32} (hc : v.toNat ≤ 24) :
    s.writePcap v = { s with
      cfg := { s.cfg with pcap := v.toNat }
      mss := if s.detRun || !s.mss.awake then { s.mss with pcapErr := false, pcapPend := some v.toNat }
        else { s.mss with pcapErr := false, pcapPend := none, pcapAct := v.toNat } } := by
  have hv : v.toNat < 2 ^ 5 := by omega
  have h : s.defined 0x1F v = (s, v) := s.defined_low (n := 5) hv
  have hrun : State.detRun { s with cfg := { s.cfg with pcap := v.toNat } } = s.detRun := rfl
  simp only [State.writePcap, h, bits_low hv, if_neg (not_lt.2 hc), hrun]
  split <;> rfl

/-- What a write of MG_ALERT leaves of bit `i` (R527, 00 R13). -/
theorem State.writeAlert_bit (s : State) {v : W32} (same : Bool) (hv : v.toNat < 128) {i : Nat} (hi : i < 7) :
    (s.writeAlert v same).mss.alert.getLsbD i =
      (s.mss.alert.getLsbD i && (!v.getLsbD i || same && s.hc.alerts.getLsbD i)) := by
  have h : s.defined 0x7F v = (s, v) := s.defined_low (n := 7) hv
  have ha : (s.writeAlert v same).mss.alert = (s.mss.alert &&& ~~~ (v.setWidth 7)) ||| s.sameAlerts same := by
    simp only [State.writeAlert, h]; rfl
  rw [ha]
  have hs : (s.sameAlerts same).getLsbD i = (same && (s.hc.alerts.getLsbD i && s.mss.alert.getLsbD i)) := by
    cases same
    · exact BitVec.getLsbD_zero
    · exact BitVec.getLsbD_and
  rw [BitVec.getLsbD_or, BitVec.getLsbD_and, BitVec.getLsbD_not, BitVec.getLsbD_setWidth, hs]
  simp only [hi, decide_true, Bool.true_and]
  generalize s.mss.alert.getLsbD i = a
  cases a <;> simp

theorem State.writeAlert_frame (s : State) {v : W32} (same : Bool) (hv : v.toNat < 128) :
    { s.writeAlert v same with mss := { (s.writeAlert v same).mss with alert := s.mss.alert } } = s := by
  have h : s.defined 0x7F v = (s, v) := s.defined_low (n := 7) hv
  simp only [State.writeAlert, h]; rfl

/-- WD_LIMIT is clamped (R488). -/
theorem wdStored_eq (v : W32) : wdStored v.toNat = if v = 0 then 0 else max 10 (min 4000000 v.toNat) := by
  by_cases h : v = 0
  · simp [wdStored, h]
  · have hn : v.toNat ≠ 0 := fun e => h (BitVec.eq_of_toNat_eq e)
    rw [if_neg h, wdStored, if_neg hn, clamp]

/-! ### REGISTER_WRITE -/

theorem exec_registerWrite_word (s : State) {off : Nat} (x : Access0) (w : W64) (hw : x.width = 4) (h : off + 4 ≤ 0x10000000)
    (ha : off % 4 = 0) : exec (.registerWrite off x w) s = .next (s.writeWord off (w.truncate 32) x.same) := by
  simp only [exec_registerWrite, execRegisterWrite]
  rw [accept_of_wf rfl, if_neg (by simp [hw]; omega), if_neg (by simp [hw, ha]), if_pos hw]

theorem exec_registerWrite_pair (s : State) {off : Nat} (x : Access0) (w : W64) (hw : x.width = 8) (h : off + 8 ≤ 0x10000000)
    (ha : off % 8 = 0) : exec (.registerWrite off x w) s = .next (s.writePair off w x.same x.half) := by
  simp only [exec_registerWrite, execRegisterWrite]
  rw [accept_of_wf rfl, if_neg (by simp [hw]; omega), if_neg (by simp [hw, ha]), if_neg (by simp [hw])]

/-- A misaligned write stores a free value in the word at its offset (R14). -/
theorem exec_registerWrite_misaligned (s : State) {off : Nat} (x : Access0) (w : W64) (hw : x.width = 4) (h : off + 4 ≤ 0x10000000)
    (ha : off % 4 ≠ 0) :
    exec (.registerWrite off x w) s = .next (s.draw.writeWord (off / 4 * 4) (Config.free32 s.freeCtr) x.same) := by
  simp only [exec_registerWrite, execRegisterWrite]
  rw [accept_of_wf rfl, if_neg (by simp [hw]; omega), if_pos (by simp [hw, ha])]

/-! ### Where the registers of a ring lie (14 R429, R433, R434) -/

theorem bar0Block_ring {p o : Nat} (hp : p < 256) (ho : o < 0x40) :
    bar0Block (0x102000 + 0x40 * p + o) = (.cp, 0x2000 + 0x40 * p + o) := by
  rw [bar0Block, if_neg (by omega), if_pos (by omega)]
  exact Prod.ext rfl (show _ = _ by omega)

theorem bar0Block_bell {p o : Nat} (hp : p < 256) (ho : o < 0x1000) :
    bar0Block (0x200000 + 0x1000 * p + o) = (.bells, 0x1000 * p + o) := by
  rw [bar0Block, if_neg (by omega), if_neg (by omega), if_pos (by omega)]
  exact Prod.ext rfl (show _ = _ by omega)

theorem State.writeWord_ring (s : State) {p o : Nat} (v : W32) (same : Bool) (hp : p < 256) (ho : o < 0x40) :
    s.writeWord (0x102000 + 0x40 * p + o) v same = s.writeRingWord p o v := by
  have h1 : (0x2000 + 0x40 * p + o - 0x2000) / 64 = p := by omega
  have h2 : (0x2000 + 0x40 * p + o) % 64 = o := by omega
  simp only [State.writeWord, bar0Block_ring hp ho, State.writeCpWord, h1, h2]
  rw [if_pos (by simp; omega)]

theorem State.writeWord_bell (s : State) {p o : Nat} (v : W32) (same : Bool) (hp : p < 256) (ho : o < 0x1000) :
    s.writeWord (0x200000 + 0x1000 * p + o) v same = s.writeBell (0x1000 * p + o) v := by
  simp only [State.writeWord, bar0Block_bell hp ho]

theorem State.writeBell_sqTail (s : State) (p : Nat) (v : W32) : s.writeBell (0x1000 * p + 0) v = s.writeSqTail p v := by
  have h1 : (0x1000 * p + 0) % 4096 = 0 := by omega
  have h2 : (0x1000 * p + 0) / 4096 = p := by omega
  simp only [State.writeBell, h1, h2]

theorem State.writeBell_cqHead (s : State) (p : Nat) (v : W32) : s.writeBell (0x1000 * p + 4) v = s.writeCqHead p v := by
  have h1 : (0x1000 * p + 4) % 4096 = 4 := by omega
  have h2 : (0x1000 * p + 4) / 4096 = p := by omega
  simp only [State.writeBell, h1, h2]

/-- Bit 0 that is 1 already is not changed by setting it. -/
theorem or_one_of_low {v : W32} (h : v.getLsbD 0 = true) : v ||| 1 = v := by
  apply BitVec.eq_of_getLsbD_eq
  intro i hi
  rcases Nat.eq_zero_or_pos i with rfl | h0
  · simp_all
  · simp [BitVec.getLsbD_one, Nat.pos_iff_ne_zero.1 h0]

end Sys2Proof.Machine
end

section
/-!
SUPPORT. Reads of registers, the RC fields that they clear, and the statement on the registers (00 R11 to R15; 14 R422; 12 R374).
-/

namespace Sys2Proof.Machine

open Sys2Proof Sys2Proof.Safety

/-! ### What clearing an RC field leaves as it was -/

theorem Core.setRc_keeps (c : Core) (o : Nat) (v : W32) : (c.setRc o v).regs = c.regs ∧ (c.setRc o v).mem = c.mem := by
  unfold Core.setRc
  split
  all_goals exact ⟨rfl, rfl⟩

theorem Clocks.setRc_tbt (c : Clocks) (o : Nat) (v : W32) : (c.setRc o v).tbt = c.tbt := by
  unfold Clocks.setRc
  split
  all_goals rfl

/-- Clearing an RC field touches no memory, no job, no stored register and no core's data. -/
theorem State.setRc_keeps (s : State) (a : Nat) (v : W32) :
    (s.setRc a v).hbm = s.hbm ∧ (s.setRc a v).jobs = s.jobs ∧ (s.setRc a v).cfg = s.cfg ∧ (s.setRc a v).mss = s.mss
      ∧ (s.setRc a v).pending = s.pending ∧ (s.setRc a v).out = s.out ∧ (s.setRc a v).clk.tbt = s.clk.tbt := by
  unfold State.setRc
  dsimp only
  split
  · exact ⟨rfl, rfl, rfl, rfl, rfl, rfl, rfl⟩
  · split
    case h_5 => exact ⟨rfl, rfl, rfl, rfl, rfl, rfl, Clocks.setRc_tbt _ _ _⟩
    all_goals exact ⟨rfl, rfl, rfl, rfl, rfl, rfl, rfl⟩

theorem State.setRc_core (s : State) (a : Nat) (v : W32) (k : Nat) :
    ((s.setRc a v).core k).regs = (s.core k).regs ∧ ((s.setRc a v).core k).mem = (s.core k).mem := by
  unfold State.setRc
  dsimp only
  split
  · exact ⟨rfl, rfl⟩
  · split
    case h_2 c o _ =>
      by_cases hk : k = c
      · subst hk
        simpa using Core.setRc_keeps _ _ _
      · simp [State.core_setCore_ne _ _ hk]
    all_goals exact ⟨rfl, rfl⟩

/-! ### RC_REGISTER_READ -/

/-- A plain read of a word returns it, and clears it where it is an RC field. -/
theorem exec_rcRegisterRead_word (s : State) {off : Nat} (h : off + 4 ≤ 0x10000000) (ha : off % 4 = 0)
    (hf : foreign off = false) (h1 : off ≠ 0x4000008) (h2 : off ≠ 0x400000C) :
    exec (.rcRegisterRead off ⟨4, false, .whole⟩) s =
      .next ((s.setRc off 0).emit (.data off (leBytes (s.word off) 4) false)) := by
  simp only [exec_rcRegisterRead, execRcRegisterRead]
  rw [accept_of_wf rfl, if_neg (by simp; omega), if_neg (by simp [ha, hf]), if_neg (by simp [tmTbt, h1]),
    if_neg (by simp [tmTbt, h2]), if_pos trivial]
  rfl

/-- A misaligned read returns free bytes (R14). -/
theorem exec_rcRegisterRead_misaligned (s : State) {off : Nat} (x : Access0) (hw : x.width = 4) (h : off + 4 ≤ 0x10000000)
    (ha : off % 4 ≠ 0) :
    exec (.rcRegisterRead off x) s = .next (s.readFree off 4) := by
  simp only [exec_rcRegisterRead, execRcRegisterRead]
  rw [accept_of_wf rfl, if_neg (by simp [hw]; omega), if_pos (by simp [hw, ha]), hw]

/-! ### Where RC fields lie -/

theorem bar0Block_port {p o : Nat} (hp : p < 16) (ho : o < 0x80000) : bar0Block (0x3000000 + 0x80000 * p + o) = (.port p, o) := by
  have h1 : (0x3000000 + 0x80000 * p + o - 0x3000000) / 0x80000 = p := by omega
  have h2 : (0x3000000 + 0x80000 * p + o) % 0x80000 = o := by omega
  simp only [bar0Block, h1, h2]
  repeat rw [if_neg (by omega)]
  rw [if_pos (by omega)]

theorem bar0Block_core {k o : Nat} (hk : k < 128) (ho : o < 0x10000) : bar0Block (0x1000000 + 0x10000 * k + o) = (.core k, o) := by
  have h1 : (0x1000000 + 0x10000 * k + o - 0x1000000) / 0x10000 = k := by omega
  have h2 : (0x1000000 + 0x10000 * k + o) % 0x10000 = o := by omega
  simp only [bar0Block, h1, h2]
  repeat rw [if_neg (by omega)]
  rw [if_pos (by omega)]

theorem foreign_port {p o : Nat} (hp : p < 16) (ho : o < 0x80000) : foreign (0x3000000 + 0x80000 * p + o) = false := by
  simp only [foreign, bar0Block_port hp ho]

theorem foreign_core {k o : Nat} (hk : k < 128) (ho : o < 0x10000) : foreign (0x1000000 + 0x10000 * k + o) = false := by
  simp only [foreign, bar0Block_core hk ho]

theorem State.word_port (s : State) {p o : Nat} (hp : p < 16) (ho : o < 0x80000) :
    s.word (0x3000000 + 0x80000 * p + o) = (s.port p).word o := by
  simp only [State.word, bar0Block_port hp ho]
  rfl

theorem State.setRc_port (s : State) {p o : Nat} (v : W32) (hp : p < 16) (ho : o < 0x80000) :
    s.setRc (0x3000000 + 0x80000 * p + o) v = s.setPort p ((s.port p).setRc o v) := by
  simp only [State.setRc, bar0Block_port hp ho]
  rfl

theorem State.dark_core {s : State} (k : Nat) (h : s.host.state ≠ 6) : s.dark (.core k) = false := by
  simp [State.dark, dRESETTING, h]

theorem State.word_core (s : State) {k o : Nat} (hk : k < 128) (ho : o < 0x10000) (h : s.host.state ≠ 6) :
    s.word (0x1000000 + 0x10000 * k + o) = s.coreWord k o := by
  simp only [State.word, bar0Block_core hk ho, State.dark_core k h]
  rfl

theorem State.setRc_coreWord (s : State) {k o : Nat} (v : W32) (hk : k < 128) (ho : o < 0x10000) (h : s.host.state ≠ 6) :
    s.setRc (0x1000000 + 0x10000 * k + o) v = s.setCore k ((s.core k).setRc o v) := by
  simp only [State.setRc, bar0Block_core hk ho, State.dark_core k h]
  rfl

end Sys2Proof.Machine
end

section
/-!
SUPPORT. The statement on the registers (O48), register by register.
-/

namespace Sys2Proof.Machine

open Sys2Proof Sys2Proof.Safety

/-! ### The registers of the MSS and of the fault block -/

theorem mbGo_sends (s : State) (hs : s.mss.mbStatus.getLsbD 0 = false) (ha : s.mss.awake = true) :
    yields (.mbGo 1) s { s with mss := { s.mss with mbStatus := 1, queue := s.mss.queue ++ [.mailbox] } } := by
  have h : s.writeMbCtrl 1 = _ := s.writeMbCtrl_of_low (by decide)
  rw [if_neg (by rw [hs, ha]; decide)] at h
  exact yields_of_wf rfl rfl h

theorem mgPcapWrite_applies (s : State) {v : W32} (hv : v.toNat ≤ 24) (hr : s.detRun = false) (ha : s.mss.awake = true) :
    yields (.mgPcapWrite v) s { s with
      cfg := { s.cfg with pcap := v.toNat }
      mss := { s.mss with pcapErr := false, pcapPend := none, pcapAct := v.toNat } } := by
  have h := s.writePcap_good hv
  rw [if_neg (by simp [hr, ha])] at h
  exact yields_of_wf rfl rfl h

theorem mgPcapWrite_waits (s : State) {v : W32} (hv : v.toNat ≤ 24) (hr : s.detRun = true) :
    yields (.mgPcapWrite v) s { s with
      cfg := { s.cfg with pcap := v.toNat }, mss := { s.mss with pcapErr := false, pcapPend := some v.toNat } } := by
  have h := s.writePcap_good hv
  rw [if_pos (by simp [hr])] at h
  exact yields_of_wf rfl rfl h

theorem wdLimitWrite_clamps (s : State) (v : W32) :
    yields (.wdLimitWrite v) s { s with
      cfg := { s.cfg with wdLimit := if v = 0 then 0 else max 10 (min 4000000 v.toNat) } } := by
  rw [← wdStored_eq]
  exact yields_of_wf rfl rfl rfl

/-- RS_AUTO stores its bit. -/
theorem State.writeFlWord_rsAuto (s : State) {v : W32} (same : Bool) (hv : v.toNat < 2) :
    s.writeFlWord 0x40 v same = { s with cfg := { s.cfg with rsAuto := v.getLsbD 0 } } := by
  have h : s.defined 0x1 v = (s, v) := s.defined_low (n := 1) hv
  simp only [State.writeFlWord, h]

/-- MB_LEN stores its 13 bits. -/
theorem State.writeMgWord_mbLen (s : State) {v : W32} (same : Bool) (hv : v.toNat < 8192) :
    s.writeMgWord 0x20 v same = { s with cfg := { s.cfg with mbLen := v.toNat } } := by
  have h : s.defined 0x1FFF v = (s, v) := s.defined_low (n := 13) hv
  simp only [State.writeMgWord, h]
  rw [if_neg (by decide), Nat.mod_eq_of_lt (b := 2 ^ 13) hv]

/-! ### REGISTER_WRITE reaches the same registers -/

/-- A write of a word acts as the command that stores the word in the register there. -/
theorem registerWrite_same {s : State} {off : Nat} {w : W64} {sm : Bool} {i : Instr} (h : off + 4 ≤ 0x10000000) (ha : off % 4 = 0)
    (hi : exec i s = .next (s.writeWord off (w.truncate 32) sm)) : exec (.registerWrite off ⟨4, sm, .whole⟩ w) s = exec i s :=
  (exec_registerWrite_word s ⟨4, sm, .whole⟩ w rfl h ha).trans hi.symm

theorem ringCommand_wf {p : Nat} (hp : p < 256) (v : W32) :
    (Instr.doorbellSqTail p v).wf = true ∧ (Instr.doorbellCqHead p v).wf = true ∧ (Instr.ringDeferWrite p v).wf = true
      ∧ (Instr.ringEnable p v).wf = true := by
  simp [Instr.wf, Instr.unitsOk, Instr.fieldsOk, ringCount, hp]

/-- A write of a ring's register acts as the command for it. -/
theorem ringRegisters_same (s : State) (w : W64) (sm : Bool) {off p : Nat} (hp : p < 256) (h : off + 4 ≤ 0x10000000) (ha : off % 4 = 0) :
    let lo : W32 := w.truncate 32
    let same := fun (i : Instr) => exec (.registerWrite off ⟨4, sm, .whole⟩ w) s = exec i s
    (off = 0x200000 + 0x1000 * p → same (.doorbellSqTail p lo)) ∧ (off = 0x200004 + 0x1000 * p → same (.doorbellCqHead p lo))
      ∧ (off = 0x10201C + 0x40 * p → same (.ringDeferWrite p lo))
      ∧ (off = 0x102010 + 0x40 * p → lo.getLsbD 0 = true → same (.ringEnable p lo)) := by
  intro lo same
  obtain ⟨wsq, wcq, wdf, wen⟩ := ringCommand_wf hp lo
  refine ⟨fun ho => ?_, fun ho => ?_, fun ho => ?_, fun ho hlo => ?_⟩
  · refine registerWrite_same h ha ((exec_next wsq rfl).trans ?_)
    rw [show off = 0x200000 + 0x1000 * p + 0 from ho, s.writeWord_bell _ _ hp (by decide), s.writeBell_sqTail]
  · refine registerWrite_same h ha ((exec_next wcq rfl).trans ?_)
    rw [show off = 0x200000 + 0x1000 * p + 4 by omega, s.writeWord_bell _ _ hp (by decide), s.writeBell_cqHead]
  · refine registerWrite_same h ha ((exec_next wdf rfl).trans ?_)
    rw [show off = 0x102000 + 0x40 * p + 0x1C by omega, s.writeWord_ring _ _ hp (by decide)]
    rfl
  · refine registerWrite_same h ha ((exec_next wen rfl).trans ?_)
    rw [show off = 0x102000 + 0x40 * p + 0x10 by omega, s.writeWord_ring _ _ hp (by decide)]
    show _ = Host.Outcome.next (s.writeRingCtrl p lo)
    rw [or_one_of_low hlo]

/-- A 64-bit write over two registers is two writes, the lower first (R15). -/
theorem registerWrite_pair (s t : State) (w : W64) (sm : Bool) {off : Nat} (h : off + 8 ≤ 0x10000000) (ha : off % 8 = 0) :
    let write := fun (o : Nat) (u : W64) => Instr.registerWrite o ⟨4, sm, .whole⟩ u
    let same := fun (i j : Instr) => exec i s = exec j s
    (exec (write off w) s = .next t → exec (.registerWrite off ⟨8, sm, .whole⟩ w) s = exec (write (off + 4) (w >>> 32)) t)
      ∧ (isWide off = false → same (.registerWrite off ⟨8, sm, .low⟩ w) (write off w)
        ∧ same (.registerWrite off ⟨8, sm, .high⟩ w) (write (off + 4) (w >>> 32))) := by
  intro write same
  have lower : exec (write off w) s = .next (s.writeWord off (w.truncate 32) sm) :=
    exec_registerWrite_word s ⟨4, sm, .whole⟩ w rfl (by omega) (by omega)
  have upper : ∀ u : State, exec (write (off + 4) (w >>> 32)) u = .next (u.writeWord (off + 4) ((w >>> 32).truncate 32) sm) := fun u =>
    exec_registerWrite_word u ⟨4, sm, .whole⟩ (w >>> 32) rfl (by omega) (by omega)
  have pair : ∀ half, exec (.registerWrite off ⟨8, sm, half⟩ w) s = .next (s.writePair off w sm half) := fun half =>
    exec_registerWrite_pair s ⟨8, sm, half⟩ w rfl h ha
  refine ⟨fun ht => ?_, fun hw => ⟨?_, ?_⟩⟩
  · obtain rfl : s.writeWord off (w.truncate 32) sm = t := Host.Outcome.next.inj (lower.symm.trans ht)
    exact (pair .whole).trans (upper _).symm
  · refine (pair .low).trans (Eq.trans ?_ lower.symm)
    simp [State.writePair, hw]
  · refine (pair .high).trans (Eq.trans ?_ (upper s).symm)
    simp [State.writePair, hw]

/-! ### Reads -/

theorem rcRegisterRead_tbtLow (s : State) : exec (.rcRegisterRead 0x4000008 ⟨4, false, .whole⟩) s = exec .tmTbtLowRead s := rfl

theorem rcRegisterRead_tbtHigh (s : State) {x : W32} (h : s.clk.latch = some x) :
    yields (.rcRegisterRead 0x400000C ⟨4, false, .whole⟩) s { s with
      clk := { s.clk with latch := none }, out := s.out ++ [.data 0x400000C (leBytes x.toNat 4) false] } := by
  have hr : exec (.rcRegisterRead 0x400000C ⟨4, false, .whole⟩) s = .next s.readTbtHigh := rfl
  unfold State.readTbtHigh at hr
  rw [h] at hr
  exact hr

/-- A plain read returns the word, and leaves memory, jobs, registers and the cores' data as they were. -/
theorem rcRegisterRead_keeps (s : State) {off : Nat} (h : off + 4 ≤ 0x10000000) (ha : off % 4 = 0)
    (hf : foreign off = false) (h1 : off ≠ 0x4000008) (h2 : off ≠ 0x400000C) :
    ∃ u, exec (.rcRegisterRead off ⟨4, false, .whole⟩) s = .next u
      ∧ (u.hbm = s.hbm ∧ u.jobs = s.jobs ∧ u.cfg = s.cfg ∧ u.mss = s.mss ∧ u.pending = s.pending
        ∧ ∀ c, (u.core c).regs = (s.core c).regs ∧ (u.core c).mem = (s.core c).mem)
      ∧ u.clk.tbt = s.clk.tbt ∧ u.out = s.out ++ [.data off (leBytes (s.word off) 4) false] := by
  obtain ⟨hhbm, hjobs, hcfg, hmss, hpend, hout, htbt⟩ := s.setRc_keeps off 0
  refine ⟨_, exec_rcRegisterRead_word s h ha hf h1 h2, ⟨hhbm, hjobs, hcfg, hmss, hpend, s.setRc_core off 0⟩, htbt, ?_⟩
  exact congrArg (· ++ _) hout

/-- Reading NX_REPLAYS of a port clears it, and returns what it counted. -/
theorem rcRegisterRead_replays (s : State) {p : Nat} (hp : p < 16) :
    ∃ u, exec (.rcRegisterRead (0x3000028 + 0x80000 * p) ⟨4, false, .whole⟩) s = .next u ∧ (u.port p).replays = 0
      ∧ (∀ q, q ≠ p → u.port q = s.port q)
      ∧ u.out = s.out ++ [.data (0x3000028 + 0x80000 * p) (leBytes (s.port p).replays.toNat 4) false] := by
  rw [show 0x3000028 + 0x80000 * p = 0x3000000 + 0x80000 * p + 0x28 by omega]
  have hx := exec_rcRegisterRead_word s (off := 0x3000000 + 0x80000 * p + 0x28) (by omega) (by omega)
    (foreign_port hp (by decide)) (by omega) (by omega)
  rw [s.setRc_port 0 hp (by decide), s.word_port hp (by decide)] at hx
  refine ⟨_, hx, ?_, fun q hq => ?_, rfl⟩
  · simp [Port.setRc]
  · simp [State.port_setPort_ne _ _ hq]

/-- Reading SP_CE_CNT of a core clears it, and returns what it counted; while RESETTING the core's window is dark. -/
theorem rcRegisterRead_ceCnt (s : State) {k : Nat} (hk : k < 128) (hs : s.host.state ≠ 6) :
    ∃ u, exec (.rcRegisterRead (0x100D008 + 0x10000 * k) ⟨4, false, .whole⟩) s = .next u ∧ (u.core k).lu.ceCnt = 0
      ∧ (∀ q, q ≠ k → u.core q = s.core q)
      ∧ u.out = s.out ++ [.data (0x100D008 + 0x10000 * k) (leBytes (s.core k).lu.ceCnt.toNat 4) false] := by
  rw [show 0x100D008 + 0x10000 * k = 0x1000000 + 0x10000 * k + 0xD008 by omega]
  have hx := exec_rcRegisterRead_word s (off := 0x1000000 + 0x10000 * k + 0xD008) (by omega) (by omega)
    (foreign_core hk (by decide)) (by omega) (by omega)
  rw [s.setRc_coreWord 0 hk (by decide) hs, s.word_core hk (by decide) hs] at hx
  refine ⟨_, hx, ?_, fun q hq => ?_, rfl⟩
  · simp [Core.setRc]
  · simp [State.core_setCore_ne _ _ hq]

/-! ### The statement -/

/-- Settles O48: each register by its own rule, and REGISTER_WRITE through the rule of the register at its offset. -/
theorem registersKeepTheirRules : Obligations.RegistersKeepTheirRules := by
  intro s t v w off p k sm
  refine ⟨fun _ _ hv hs ha => ?_, fun _ _ => ⟨fun hv hr ha => mgPcapWrite_applies s hv hr ha, fun hv hr => mgPcapWrite_waits s hv hr⟩,
    fun _ hv => ⟨_, exec_next rfl rfl, s.writeAlert_frame sm hv, fun i hi => s.writeAlert_bit sm hv hi⟩,
    fun _ => wdLimitWrite_clamps s v, fun _ h ha => ?_, fun _ => exec_next rfl rfl, fun _ h => ?_⟩
  · subst hv
    exact mbGo_sends s hs ha
  · have word := @registerWrite_same s off w sm
    have store := exec_registerWrite_word s ⟨4, sm, .whole⟩ w rfl h ha
    have ring := fun (hp : p < 256) => ringRegisters_same s w sm hp h ha
    refine ⟨?_, ?_, ?_, ?_, ?_, ?_, ?_, fun hp => (ring hp).1, fun hp => (ring hp).2.1, fun hp => (ring hp).2.2.1,
      fun hp => (ring hp).2.2.2, ?_, ?_, fun h8 h' _ => registerWrite_pair s t w sm h' h8⟩
    case refine_8 =>
      rintro rfl hv
      exact store.trans (congrArg _ (s.writeFlWord_rsAuto sm hv))
    case refine_9 =>
      rintro rfl hv
      exact store.trans (congrArg _ (s.writeMgWord_mbLen sm hv))
    all_goals
      rintro rfl
      exact word h ha rfl
  · refine ⟨fun ha hf h1 h2 => rcRegisterRead_keeps s h ha hf h1 h2, ?_, ?_, ?_, ?_, ?_⟩
    · rintro rfl
      exact rcRegisterRead_tbtLow s
    · rintro x rfl hx
      exact rcRegisterRead_tbtHigh s hx
    · rintro hp rfl
      exact rcRegisterRead_replays s hp
    · rintro hk rfl hs
      exact rcRegisterRead_ceCnt s hk hs
    · rintro rfl
      exact ⟨_, exec_rcRegisterRead_word s (by decide) (by decide) rfl (by decide) (by decide), rfl, rfl⟩

end Sys2Proof.Machine
end

section
/-!
SUPPORT. How a command of the host ends: its checks in order, and the record that it leaves (14 R437 to R441).
-/

namespace Sys2Proof.Machine

open Sys2Proof Sys2Proof.Safety Sys2Proof.Claims

/-! ### The end of a command -/

theorem State.cmd_id {s : State} {id : Nat} {c : Cmd} (h : s.cmd id = some c) : c.id = id := by
  simpa using List.find?_some h

/-- A record of a command joins those that wait at its ring: only run records are dropped (R432). -/
theorem State.addRecord_of_command (s : State) (ring : Nat) {x : CRec} (h : x.runrec = false) :
    s.addRecord ring x = s.setRing ring { s.ring ring with waiting := (s.ring ring).waiting ++ [x] } := by
  simp [State.addRecord, h]

/-- The record of a command (R437). -/
def Cmd.record (c : Cmd) (st : Status) (detail : Nat) : CRec :=
  { tag := c.p.tag.toNat, status := if st = .ok && c.delay ≠ 0 then .delayed else st, delayed := c.delay ≠ 0, cls := c.cls
    dvalid := false, runrec := false, detail := BitVec.ofNat 32 detail, start := BitVec.ofNat 64 c.begin0
    info := runInfo c.delay 0 0, notify := c.p.cflags.getLsbD 2 }

theorem State.cmdRecord_eq (s : State) (c : Cmd) (st : Status) (d : Nat) :
    s.cmdRecord c st d = if c.mute then s
      else s.setRing c.ring { s.ring c.ring with waiting := (s.ring c.ring).waiting ++ [c.record st d] } := by
  rw [← s.addRecord_of_command c.ring (x := c.record st d) rfl]
  rfl

/-- The record of a command touches its ring alone. -/
theorem State.cmdRecord_rings (s : State) (c : Cmd) (st : Status) (d : Nat) :
    { s.cmdRecord c st d with host := { (s.cmdRecord c st d).host with rings := s.host.rings } } = s := by
  rw [s.cmdRecord_eq]
  split
  all_goals rfl

/-- The record waits at the ring, unless it is discarded. -/
theorem State.cmdRecord_waits (s : State) (c : Cmd) (st : Status) (d : Nat) (h : c.mute = false) :
    ∃ y ∈ ((s.cmdRecord c st d).ring c.ring).waiting, y.tag = c.p.tag.toNat ∧ y.runrec = false
      ∧ y.status = (if st = .ok ∧ c.delay ≠ 0 then .delayed else st) ∧ y.detail = BitVec.ofNat 32 d := by
  rw [s.cmdRecord_eq, if_neg (by simp [h]), State.ring_setRing]
  refine ⟨c.record st d, List.mem_append_right _ (List.mem_singleton_self _), rfl, rfl, ?_, rfl⟩
  simp [Cmd.record]

/-- A command that executes no more, with its record, is completed. -/
theorem State.cmdRecord_completed {s : State} {c : Cmd} (st : Status) (d : Nat) (h : ∀ y ∈ s.host.exec, y.id ≠ c.id) :
    completed (s.cmdRecord c st d) c st d := by
  refine ⟨?_, s.cmdRecord_waits c st d⟩
  have hx : (s.cmdRecord c st d).host.exec = s.host.exec := congrArg (·.host.exec) (s.cmdRecord_rings c st d)
  rwa [hx]

theorem State.finish_eq {s : State} {id : Nat} {c : Cmd} (h : s.cmd id = some c) (st : Status) (d : Nat) :
    s.finish id st d = { s with host := { s.host with exec := s.host.exec.filter fun x => x.id ≠ id } }.cmdRecord c st d := by
  simp only [State.finish, h]

theorem State.finish_completed {s : State} {id : Nat} {c : Cmd} (h : s.cmd id = some c) (st : Status) (d : Nat) :
    completed (s.finish id st d) c st d := by
  rw [State.finish_eq h]
  refine State.cmdRecord_completed st d fun y hy => ?_
  rw [State.cmd_id h]
  simpa using (List.mem_filter.1 hy).2

/-- The end of a command touches the host interface alone. -/
theorem State.finish_host (s : State) (id : Nat) (st : Status) (d : Nat) : { s.finish id st d with host := s.host } = s := by
  cases h : s.cmd id with
  | none => simp only [State.finish, h]
  | some c =>
    rw [State.finish_eq h]
    exact congrArg (fun t : State => { t with host := s.host }) (State.cmdRecord_rings _ c st d)

theorem State.finish_cmd {s : State} {id : Nat} {c : Cmd} (h : s.cmd id = some c) (st : Status) (d : Nat) :
    (s.finish id st d).cmd c.id = none := by
  obtain ⟨hx, _⟩ := State.finish_completed h st d
  exact List.find?_eq_none.2 fun y hy => by simpa using hx y hy

/-! ### The checks of a command -/

/-- Of a read without errors only the poison counts. -/
theorem State.touch_clean (s : State) (l : List (Nat × Nat)) : (s.touch [] l).1 = s := by
  have h : ∀ (l : List Nat) (k : Nat), State.hbmErrors [] k l s = (s, []) := by
    intro l
    induction l with
    | nil => exact fun _ => rfl
    | cons b t ih => intro k; simp [State.hbmErrors, ih]
  simp [State.touch, h]

theorem State.touchBuffers_clean (s : State) (l : List (W64 × Nat)) : (s.touchBuffers [] l).1 = s := s.touch_clean _

section
variable {s : State} {id opc : Nat} {c : Cmd} (hx : executing s id c opc)
include hx

/-- A command that passes its checks acts. -/
theorem State.perform1_acts {mine : Cmd → Bool} {bad : Cmd → Option Nat} (act : Cmd → State) (hm : mine c = true)
    (hb : bad c = none) : s.perform1 id opc mine bad act = act c := by
  obtain ⟨hc, ho, ha, hp, hs⟩ := hx
  simp [State.perform1, hc, ho, ha, hp, hs, hm, hb]

/-- A command whose lists break a rule ends with EPARAM. -/
theorem State.perform1_bad {mine : Cmd → Bool} {bad : Cmd → Option Nat} (act : Cmd → State) {k : Nat} (hm : mine c = true)
    (hb : bad c = some k) : s.perform1 id opc mine bad act = s.finish id .eparam k := by
  obtain ⟨hc, ho, ha, hp, _⟩ := hx
  simp [State.perform1, hc, ho, ha, hp, hm, hb, State.badParam]

theorem State.runCmd_acts (act : Cmd → State) : s.runCmd id opc act = act c := State.perform1_acts hx act rfl rfl

/-- A command reads its buffers, where none is poisoned. -/
theorem State.reading_clean {bufs : Cmd → List (W64 × Nat)} (k : State → State) (hb : bufsClean s (bufs c)) :
    s.reading id opc [] bufs k = k s := by
  obtain ⟨hc, ho, ha, hp, _⟩ := hx
  have hb : (s.touchBuffers [] (bufs c)).2 = false := hb
  simp [State.reading, hc, ho, ha, hp, hb, s.touchBuffers_clean]

/-- A poisoned buffer ends the command with EPOISON (00 R18). -/
theorem State.reading_poisoned {bufs : Cmd → List (W64 × Nat)} (k : State → State) (hb : ¬ bufsClean s (bufs c)) :
    s.reading id opc [] bufs k = s.finish id .epoison 0xFFFF := by
  obtain ⟨hc, ho, ha, hp, _⟩ := hx
  have hb : (s.touchBuffers [] (bufs c)).2 = true := by simpa [bufsClean] using hb
  simp [State.reading, hc, ho, ha, hp, hb, s.touchBuffers_clean, State.noRecord]

end

/-! ### Commands that fail -/

/-- Everything but jobs, the host's registers and the MSS is as it was. -/
def unitsAlone (s t : State) : Prop :=
  t.hbm = s.hbm ∧ t.cores = s.cores ∧ t.clk = s.clk ∧ t.cfg = s.cfg ∧ t.fl = s.fl ∧ t.queues = s.queues ∧ t.ports = s.ports
    ∧ t.fab = s.fab

/-- The command ends with a status and a DETAIL, and changes nothing but its record. -/
def failsWith (s : State) (c : Cmd) (i : Instr) (st : Status) (d : Nat) : Prop :=
  ∃ t, exec i s = .next t ∧ unitsAlone s t ∧ t.jobs = s.jobs ∧ completed t c st d

theorem State.finish_alone (s : State) (id : Nat) (st : Status) (d : Nat) :
    unitsAlone s (s.finish id st d) ∧ (s.finish id st d).jobs = s.jobs := by
  have h := s.finish_host id st d
  exact ⟨⟨congrArg (·.hbm) h, congrArg (·.cores) h, congrArg (·.clk) h, congrArg (·.cfg) h, congrArg (·.fl) h,
    congrArg (·.queues) h, congrArg (·.ports) h, congrArg (·.fab) h⟩, congrArg (·.jobs) h⟩

/-- A command whose meaning is that it ends with a status fails with it. -/
theorem failsWith_of_finish {s u : State} {id : Nat} {c : Cmd} {i : Instr} {st : Status} {d : Nat} (hi : i.wf = true)
    (hc : s.cmd id = some c) (he : exec i s = accept i u) (hu : u = s.finish id st d) : failsWith s c i st d := by
  obtain ⟨halone, hjobs⟩ := s.finish_alone id st d
  exact ⟨_, exec_next hi (hu ▸ he), halone, hjobs, State.finish_completed hc st d⟩

end Sys2Proof.Machine
end

section
/-!
SUPPORT. LOAD that fails, check by check (15 R457 to R465).
-/

namespace Sys2Proof.Machine

open Sys2Proof Sys2Proof.Safety Sys2Proof.Claims

/-- The reservations that LOAD places are those that it wants. -/
theorem reservations_eq_wanted (x : LoadIn) :
    ((x.binds.zipIdx.filter fun (b : Binding × Nat) => b.1.kind = 4).map fun (b : Binding × Nat) =>
      (b.1, calCores b.1 x.place x.binds)) = wanted x := by
  have h := List.filter_map (f := Prod.fst) (p := fun b : Binding => decide (b.kind = 4)) (l := x.binds.zipIdx)
  rw [List.zipIdx_map_fst] at h
  rw [wanted, h, List.map_map]
  rfl

theorem signed_iff {x : LoadIn} :
    (decide (x.sig.length = 512) && Config.rsaVerify Config.firmwareKey x.img x.sig) = true ↔ signed x := by
  simp [signed]

section
variable {s : State} {c : Cmd} {x : LoadIn}

/-- Too few groups, or reservations without a place, refuse the LOAD. -/
theorem State.loadJob_refused
    (h : s.freeGroups.length < (groupsOf x.binds).length ∨ s.hbm.reserveAll c.p.job.toNat (wanted x) = none) :
    s.loadJob c x = s.finish c.id .erefused 0xFFFF := by
  simp only [State.loadJob, reservations_eq_wanted]
  split
  · rfl
  · rw [h.resolve_left ‹_›]
    rfl

variable {hbm : Hbm} {placed : List (Nat × Nat)}

/-- A FWPRIV program without a good signature ends with EAUTH. -/
theorem State.loadJob_unsigned (hg : (groupsOf x.binds).length ≤ s.freeGroups.length)
    (hr : s.hbm.reserveAll c.p.job.toNat (wanted x) = some (hbm, placed)) (hf : c.p.p5.getLsbD 2 = true) (hs : ¬ signed x) :
    s.loadJob c x = s.finish c.id .eauth 0xFFFF := by
  simp only [State.loadJob, reservations_eq_wanted]
  rw [if_neg (not_lt.2 hg), hr]
  dsimp only
  have hf : c.fwpriv = true := hf
  rw [if_pos (by rw [hf, Bool.eq_false_iff.2 (signed_iff.not.2 hs)]; decide)]
  rfl

/-- A program that the loader does not accept ends with EPROGRAM, and the index of what it breaks. -/
theorem State.loadJob_error {e : Nat} (hg : (groupsOf x.binds).length ≤ s.freeGroups.length)
    (hr : s.hbm.reserveAll c.p.job.toNat (wanted x) = some (hbm, placed)) (hs : c.p.p5.getLsbD 2 = false ∨ signed x)
    (he : s.loadProgram c x ⟨imgIsa x.img, boundTo x placed, x.place, (groupsOf x.binds).zip s.freeGroups⟩ = .error e) :
    s.loadJob c x = s.finish c.id .eprogram e := by
  have hauth : ¬ ((c.fwpriv && !(decide (x.sig.length = 512) && Config.rsaVerify Config.firmwareKey x.img x.sig)) = true) := by
    rcases hs with hf | hs
    · have hf : c.fwpriv = false := hf
      simp [hf]
    · rw [signed_iff.2 hs]
      simp
  simp only [State.loadJob, reservations_eq_wanted]
  rw [if_neg (not_lt.2 hg), hr]
  dsimp only
  rw [if_neg hauth]
  split
  · next e' h =>
    obtain rfl := Except.error.inj (h.symm.trans he)
    rfl
  · next h => exact nomatch h.symm.trans he

end

/-! ### The slot -/

/-- The LOAD ends with a status and a DETAIL; its slot is EMPTY again, and nothing else changes. -/
def loadFailsWith (s : State) (c : Cmd) (i : Instr) (st : Status) (d : Nat) : Prop :=
  ∃ t, exec i s = .next t ∧ unitsAlone s t ∧ t.job c.p.job.toNat = Job.empty
    ∧ (∀ k, k ≠ c.p.job.toNat → t.job k = s.job k) ∧ completed t c st d

/-- A LOAD that holds its slot in LOADING leaves it EMPTY when it ends without success (R457). -/
theorem State.endLoad_finish {s : State} {id : Nat} {c : Cmd} (hc : s.cmd id = some c) (hl : s.loader c = true) (st : Status) (d : Nat) :
    (s.finish id st d).endLoad ((s.cmd id).filter fun c => s.loader c) = (s.finish id st d).setJob c.p.job.toNat Job.empty := by
  have hjob : (s.finish id st d).job c.p.job.toNat = s.job c.p.job.toNat := by
    simp only [State.job, (s.finish_alone id st d).2]
  have hstate : (s.job c.p.job.toNat).state = jLOADING := by
    simp only [State.loader, Bool.and_eq_true, decide_eq_true_eq] at hl
    exact hl.1.2
  rw [hc, Option.filter_some, if_pos hl, State.endLoad, State.finish_cmd hc, hjob, hstate]
  rfl

theorem loadFailsWith_of_finish {s u : State} {id : Nat} {c : Cmd} {i : Instr} {st : Status} {d : Nat} (hi : i.wf = true)
    (hc : s.cmd id = some c) (hl : s.loader c = true)
    (he : exec i s = accept i (u.endLoad ((s.cmd id).filter fun c => s.loader c))) (hu : u = s.finish id st d) :
    loadFailsWith s c i st d := by
  obtain ⟨halone, hjobs⟩ := s.finish_alone id st d
  rw [hu, State.endLoad_finish hc hl] at he
  refine ⟨_, exec_next hi he, halone, State.job_setJob .., fun k hk => ?_, State.finish_completed hc st d⟩
  rw [State.job_setJob_ne _ _ hk]
  simp only [State.job, hjobs]

theorem exec_load_eq (s : State) (id : Nat) (image binds place : List Byte) :
    exec (.load ⟨id, []⟩ image binds place) s = accept (.load ⟨id, []⟩ image binds place)
      ((s.reading id 0x01 [] (fun c => loadBufs s c image) fun s =>
        s.perform1 id 0x01 (fun _ => true) (fun c => s.loadParam c (s.loadIn c image binds place))
          fun c => s.loadJob c (s.loadIn c image binds place)).endLoad ((s.cmd id).filter fun c => s.loader c)) := rfl

section
variable {s : State} {id : Nat} {c : Cmd} {image binds place : List Byte}
  (hx : executing s id c 0x01) (hl : s.loader c = true)
include hx hl

/-- A LOAD of poisoned buffers ends with EPOISON. -/
theorem load_poisoned (hb : ¬ bufsClean s (loadBufs s c image)) :
    loadFailsWith s c (.load ⟨id, []⟩ image binds place) .epoison 0xFFFF :=
  loadFailsWith_of_finish rfl hx.1 hl (exec_load_eq ..) (State.reading_poisoned (bufs := fun c => loadBufs s c image) hx _ hb)

/-- A LOAD of bad lists ends with EPARAM. -/
theorem load_badParam (hb : bufsClean s (loadBufs s c image)) {k : Nat}
    (hk : s.loadParam c (s.loadIn c image binds place) = some k) :
    loadFailsWith s c (.load ⟨id, []⟩ image binds place) .eparam k := by
  refine loadFailsWith_of_finish rfl hx.1 hl (exec_load_eq ..) ?_
  rw [State.reading_clean (bufs := fun c => loadBufs s c image) hx _ hb]
  exact State.perform1_bad hx _ rfl hk

/-- A LOAD of good lists ends as its resources and its program do. -/
theorem load_ends (hb : bufsClean s (loadBufs s c image)) (hk : s.loadParam c (s.loadIn c image binds place) = none) {st : Status}
    {d : Nat} (he : s.loadJob c (s.loadIn c image binds place) = s.finish c.id st d) :
    loadFailsWith s c (.load ⟨id, []⟩ image binds place) st d := by
  rw [State.cmd_id hx.1] at he
  refine loadFailsWith_of_finish rfl hx.1 hl (exec_load_eq ..) ?_
  rw [State.reading_clean (bufs := fun c => loadBufs s c image) hx _ hb, State.perform1_acts hx _ rfl hk]
  exact he

end

end Sys2Proof.Machine
end

section
/-!
SUPPORT. The other commands that fail, and the statement on the commands and accesses that are turned away (14 R424, R428, R433, R439,
R456; 09 R277; 12 R365; 13 R409).
-/

namespace Sys2Proof.Machine

open Sys2Proof Sys2Proof.Safety Sys2Proof.Claims

/-! ### RESERVE and ARM -/

/-- A binding that RESERVE admits: of a memory calendar, and for a logical core or a group that the job has. -/
def reservable (j : Job) (b : Binding) : Prop :=
  b.kind = 4 ∧ b.calOk = true ∧ (b.dir = 1 ∨ if b.param < 0x8000 then b.param < j.placement.length
    else ∃ g ∈ j.bindings, g.kind = 6 ∧ g.param = b.param - 0x8000)

/-- RESERVE finds no fault in bindings that it admits. -/
theorem reservable_good {j : Job} {b : Binding} (h : reservable j b) :
    (b.kind ≠ 4 || !b.calOk || (b.dir ≠ 1 && j.state ≠ jEMPTY && (if b.param < 0x8000 then j.placement.length ≤ b.param
      else !(j.bindings.any fun g => g.kind = 6 && g.param = b.param - 0x8000)))) = false := by
  obtain ⟨hk, hc, hd⟩ := h
  rcases hd with hd | hp
  · simp [hk, hc, hd]
  · by_cases h8 : b.param < 0x8000
    · simp only [h8, if_true] at hp
      simp [hk, hc, h8, hp]
    · simp only [h8, if_false] at hp
      obtain ⟨g, hg, hgk, hgp⟩ := hp
      have hany : (j.bindings.any fun g => g.kind = 6 && g.param = b.param - 0x8000) = true :=
        List.any_eq_true.2 ⟨g, hg, by simp [hgk, hgp]⟩
      simp [hk, hc, h8, hany]

section
variable {s : State} {id : Nat} {c : Cmd} {entries : List Byte} (hx : executing s id c 0x03)
include hx

theorem reserve_poisoned (hb : ¬ bufsClean s [(c.p.p0, 32 * c.p.p1.toNat)]) :
    failsWith s c (.reserve ⟨id, []⟩ entries) .epoison 0xFFFF :=
  failsWith_of_finish rfl hx.1 rfl (State.reading_poisoned (bufs := fun c => [(c.p.p0, 32 * c.p.p1.toNat)]) hx _ hb)

/-- RESERVE of reservations that have no place ends with EREFUSED. -/
theorem reserve_refused (hb : bufsClean s [(c.p.p0, 32 * c.p.p1.toNat)])
    (hl : ∀ b ∈ (upFrom 0 c.p.p1.toNat).map (bindingAt (s.buffer c.p.p0 (32 * c.p.p1.toNat) entries)),
      reservable (s.job c.p.job.toNat) b)
    (hr : s.hbm.reserveAll c.p.job.toNat (((upFrom 0 c.p.p1.toNat).map
      (bindingAt (s.buffer c.p.p0 (32 * c.p.p1.toNat) entries))).map fun b =>
        (b, calCores b (s.job c.p.job.toNat).placement (s.job c.p.job.toNat).bindings)) = none) :
    failsWith s c (.reserve ⟨id, []⟩ entries) .erefused 0xFFFF := by
  refine failsWith_of_finish rfl hx.1 rfl ((State.reading_clean (bufs := fun c => [(c.p.p0, 32 * c.p.p1.toNat)]) hx _ hb).trans ?_)
  refine (State.perform1_acts hx _ rfl (if_neg ?_)).trans ?_
  · rw [Bool.not_eq_true, List.any_eq_false]
    exact fun b hm => Bool.eq_false_iff.1 (reservable_good (hl b hm))
  · simp only [hr]
    rfl

end

section
variable {s : State} {id : Nat} {c : Cmd} (hx : executing s id c 0x04)
include hx

/-- ARM of a deterministic job whose calendars are suspended ends with EREFUSED. -/
theorem arm_suspended (hd : (s.job c.p.job.toNat).det = true)
    (hs : ∃ x ∈ (s.job c.p.job.toNat).circuits, (s.port (tget Circ.none s.fab.circ x.2).out).calSusp = true) :
    failsWith s c (.arm ⟨id, []⟩) .erefused 0xFFFF := by
  refine failsWith_of_finish rfl hx.1 rfl ((State.runCmd_acts hx _).trans (if_pos ?_))
  simpa [hd] using hs

/-- ARM of a job that breaks a rule ends with EPROGRAM and the index of what it breaks. -/
theorem arm_fault {k : Nat}
    (hs : ¬ ((s.job c.p.job.toNat).det = true
      ∧ ∃ x ∈ (s.job c.p.job.toNat).circuits, (s.port (tget Circ.none s.fab.circ x.2).out).calSusp = true))
    (hk : s.armFault (s.job c.p.job.toNat) = some k) : failsWith s c (.arm ⟨id, []⟩) .eprogram k := by
  refine failsWith_of_finish rfl hx.1 rfl ((State.runCmd_acts hx _).trans ((if_neg ?_).trans ?_))
  · simpa using hs
  · simp only [hk]

end

/-! ### START -/

section
variable {s : State} {id : Nat} {c : Cmd} (hx : executing s id c 0x05)
include hx

/-- A START that R277 forbids ends with EREFUSED. -/
theorem start_forbidden (h0 : c.p.p2 = 0) (hs : s.clk.stopped = false)
    (hb : (∃ r ∈ (s.job c.p.job.toNat).live, r.toBegin ≠ [] ∨ r.toEnd ≠ []) ∨ 2 ≤ (s.job c.p.job.toNat).live.length) :
    failsWith s c (.start id) .erefused 0xFFFF := by
  have hf : (s.job c.p.job.toNat).forbids = true := by
    simpa [Job.forbids] using hb
  refine failsWith_of_finish rfl hx.1 rfl ((State.runCmd_acts hx _).trans ?_)
  simp [h0, hs, hf, State.noRecord]

/-- A START for an instant less than 3,200 ticks after its doorbell ends with EREFUSED. -/
theorem start_late (h0 : c.p.p2 ≠ 0) (hl : c.p.p2.toNat < c.bell + 3200) : failsWith s c (.start id) .erefused 0xFFFF :=
  failsWith_of_finish rfl hx.1 rfl ((State.runCmd_acts hx _).trans (if_pos (by rw [decide_eq_true h0, decide_eq_true hl]; rfl)))

end

/-! ### OPEN_CHANNEL -/

section
variable {s : State} {id : Nat} {c : Cmd} {image : List Byte} (hx : executing s id c 0x09)
include hx

theorem openChannel_poisoned (hb : ¬ bufsClean s [(c.p.p1, 1024)]) :
    failsWith s c (.openChannel ⟨id, []⟩ image) .epoison 0xFFFF :=
  failsWith_of_finish rfl hx.1 rfl (State.reading_poisoned (bufs := fun c => [(c.p.p1, 1024)]) hx _ hb)

/-- A descriptor that breaks R312 ends OPEN_CHANNEL with EPARAM. -/
theorem openChannel_bad (hb : bufsClean s [(c.p.p1, 1024)])
    (hq : s.queueBad (s.buffer c.p.p1 1024 image) (queueOf (s.buffer c.p.p1 1024 image) c.p.job.toNat) = true) :
    failsWith s c (.openChannel ⟨id, []⟩ image) .eparam 1 :=
  failsWith_of_finish rfl hx.1 rfl ((State.reading_clean (bufs := fun c => [(c.p.p1, 1024)]) hx _ hb).trans
    (State.perform1_bad hx _ rfl (if_pos hq)))

/-- A COMBINING queue for whose keys its hub has no entries ends OPEN_CHANNEL with EREFUSED. -/
theorem openChannel_full (hb : bufsClean s [(c.p.p1, 1024)])
    (hq : s.queueBad (s.buffer c.p.p1 1024 image) (queueOf (s.buffer c.p.p1 1024 image) c.p.job.toNat) = false)
    (hg : (queueOf (s.buffer c.p.p1 1024 image) c.p.job.toNat).group = false)
    (hk : (queueOf (s.buffer c.p.p1 1024 image) c.p.job.toNat).kind = 1)
    (hf : 65536 < (s.hub (queueOf (s.buffer c.p.p1 1024 image) c.p.job.toNat).home).combTaken
      + (queueOf (s.buffer c.p.p1 1024 image) c.p.job.toNat).keys) :
    failsWith s c (.openChannel ⟨id, []⟩ image) .erefused 0xFFFF :=
  failsWith_of_finish rfl hx.1 rfl ((State.reading_clean (bufs := fun c => [(c.p.p1, 1024)]) hx _ hb).trans
    ((State.perform1_acts hx _ rfl ((if_neg (by simp [hq])).trans (if_neg (by simp [hg])))).trans
      (if_pos (by simp [hk, hf]))))

end

/-! ### Ports, time and messages -/

theorem mem_upFrom {a n k : Nat} : k ∈ upFrom a n ↔ a ≤ k ∧ k < a + n := by
  induction n generalizing a with
  | zero => simp [upFrom]
  | succ n ih =>
    rw [upFrom, List.mem_cons, ih]
    omega

/-- An aperture that R409 does not accept ends SET_APERTURES with EPARAM. -/
theorem setApertures_bad {s : State} {id : Nat} {c : Cmd} {table : List Byte} (hx : executing s id c 0x0C)
    (hb : bufsClean s [(c.p.p1, 1536)])
    (hk : ∃ k, k < 64 ∧ c.p.p2.getLsbD k = true ∧ (apertureAt (s.buffer c.p.p1 1536 table) k).ok = false) :
    failsWith s c (.setApertures ⟨id, []⟩ table) .eparam 1 := by
  refine failsWith_of_finish rfl hx.1 rfl ((State.reading_clean (bufs := fun c => [(c.p.p1, 1536)]) hx _ hb).trans
    (State.perform1_bad hx _ rfl (if_neg ?_)))
  obtain ⟨k, h64, hbit, hok⟩ := hk
  rw [List.all_eq_true]
  intro h
  have hm : k ∈ (upFrom 0 64).filter fun k => c.p.p2.getLsbD k := List.mem_filter.2 ⟨mem_upFrom.2 ⟨by omega, by omega⟩, hbit⟩
  exact absurd (h k hm) (by simp [hok])

/-- A cluster map ends with EPARAM on a device that is not the master. -/
theorem loadClusterMap_notMaster {s : State} {id : Nat} {c : Cmd} {map : List Byte} (hx : executing s id c 0x12)
    (ho : c.p.p0.toNat / 16 % 16 = 3) (hb : bufsClean s [(c.p.p1, 24 * c.p.p2.toNat)]) (hr : s.fab.role ≠ 1) :
    failsWith s c (.loadClusterMap ⟨id, []⟩ map) .eparam 0 := by
  have hop : c.portOp = 3 := by
    rw [Cmd.portOp, bits, Nat.shiftRight_eq_div_pow]
    exact ho
  refine failsWith_of_finish rfl hx.1 rfl ((State.reading_clean
    (bufs := fun c => if c.portOp = 3 then [(c.p.p1, 24 * c.p.p2.toNat)] else []) hx _ ?_).trans
    (State.perform1_bad hx _ (by simp [hop]) (if_pos hr)))
  rwa [if_pos hop]

/-- A time step that R365 forbids ends with ESTATE. -/
theorem timeCtrlStep_busy {s : State} {id : Nat} {c : Cmd} {busy : Bool} (hx : executing s id c 0x13) (h0 : c.p.p0 = 0)
    (hb : s.timeBusy = true ∨ busy = true) : ∃ d, failsWith s c (.timeCtrlStep id busy) .estate d := by
  refine ⟨s.stateDetail c.p.job.toNat, failsWith_of_finish rfl hx.1 rfl ((State.perform1_acts hx _ (by simp [h0]) rfl).trans
    ((if_pos (by simpa using hb)).trans ?_))⟩
  simp only [State.badState, hx.1]

/-- A message ends with EPEER_GONE while the MSS restarts. -/
theorem mss_restarting {s : State} {id : Nat} {c : Cmd} {msg : List Byte} (hx : executing s id c 0x14)
    (hb : bufsClean s [(c.p.p0, c.p.p1.toNat % 2 ^ 16)]) (hr : s.mss.restart = true) :
    failsWith s c (.mss ⟨id, []⟩ msg) .epeerGone 0xFFFF :=
  failsWith_of_finish rfl hx.1 rfl ((State.reading_clean (bufs := fun c => [(c.p.p0, bits c.p.p1.toNat 0 16)]) hx _ hb).trans
    ((State.runCmd_acts hx _).trans (if_pos hr)))

/-! ### COMMAND_EXECUTE of a command that fails a check (R439, R440) -/

/-- The command as it begins now. -/
def State.beginning (s : State) (c : Cmd) : Cmd :=
  { c with begin0 := s.clk.tbt.toNat, delay := (s.clk.tbt.toNat - c.admitAt) * clock10 s.clk.op / 40 }

/-- The device with these commands in its ELASTIC queue. -/
def State.withElastic (s : State) (l : List Cmd) : State := { s with host := { s.host with elastic := l } }

/-- The first ELASTIC command begins, where it may. -/
theorem exec_commandExecute_begins {s : State} {c : Cmd} {rest : List Cmd} (he : s.host.elastic = c :: rest)
    (hs : s.host.stalled = []) (hb : s.canBegin c = true) :
    exec .commandExecute s = .next ((s.withElastic rest).beginCmd c) := by
  have hu : HostIf.unstall { s.host with elastic := rest } = { s.host with elastic := rest } := by
    simp only [HostIf.unstall, hs]
  refine exec_next rfl ?_
  show execCommandExecute s = _
  simp only [execCommandExecute, he, hb, if_true, hu]
  rfl

section
variable {s : State} {c : Cmd} {rest : List Cmd} (he : s.host.elastic = c :: rest) (hs : s.host.stalled = [])
  (hb : s.canBegin c = true) (hids : ∀ y ∈ s.host.exec, y.id ≠ c.id)
include he hs hb hids

/-- The command that ends as it begins, with a status and a DETAIL. -/
theorem commandExecute_ends {st : Status} {d : Nat}
    (h : (s.withElastic rest).beginCmd c = (s.withElastic rest).cmdRecord (s.beginning c) st d) :
    ∃ t, exec .commandExecute s = .next t
      ∧ (t.cores = s.cores ∧ t.hbm = s.hbm ∧ t.jobs = s.jobs ∧ t.clk = s.clk ∧ t.cfg = s.cfg ∧ t.host.elastic = rest
        ∧ t.host.exec = s.host.exec)
      ∧ completed t (s.beginning c) st d := by
  have hr := State.cmdRecord_rings (s.withElastic rest) (s.beginning c) st d
  refine ⟨_, (exec_commandExecute_begins he hs hb).trans (congrArg _ h), ⟨congrArg (·.cores) hr, congrArg (·.hbm) hr,
    congrArg (·.jobs) hr, congrArg (·.clk) hr, congrArg (·.cfg) hr, congrArg (·.host.elastic) hr, congrArg (·.host.exec) hr⟩,
    State.cmdRecord_completed st d hids⟩

end

theorem State.beginCmd_badParam {s : State} {c : Cmd} {k : Nat}
    (h : s.paramFault (s.beginning c) = some k) : s.beginCmd c = s.cmdRecord (s.beginning c) .eparam k := by
  rw [State.beginning] at h ⊢
  simp only [State.beginCmd, ccycOf, h]

theorem State.beginCmd_badState {s : State} {c : Cmd}
    (h : s.paramFault (s.beginning c) = none) (hl : c.p.hasList = false) (hs : s.stateFault (s.beginning c) = true) :
    s.beginCmd c = s.cmdRecord (s.beginning c) .estate (s.stateDetail c.p.job.toNat) := by
  rw [State.beginning] at h hs ⊢
  simp only [State.beginCmd, ccycOf, h, hl, hs]
  rfl

/-- The low byte of ESTATE's DETAIL is the device's state. -/
theorem State.stateDetail_mod (s : State) (job : Nat) : s.stateDetail job % 256 = s.host.state % 256 := by
  simp only [State.stateDetail, fld, Nat.shiftLeft_eq]
  omega

/-! ### Accesses of the host that are turned away -/

theorem doorbells_ignored {s : State} {ring : Nat} (v : W32) (h : (s.ring ring).en = false) :
    s.writeSqTail ring v = s ∧ s.writeCqHead ring v = s := by
  simp [State.writeSqTail, State.writeCqHead, h]

/-- A decoder that would expose more than the user HBM sets ERR (R424). -/
theorem hdmCommit_err {s : State} {n : Bool} {base size : Nat} (hc : s.host.cxl = true)
    (hd : 0x011E00000000 < (s.host.hdm n).dpa.toNat + size) :
    yields (.hdmCommit n base size) s (s.setHdm n { s.host.hdm n with commit := false, err := true }) := by
  refine yields_of_wf rfl rfl ((if_neg (by simp [hc])).trans (if_pos ?_))
  simp [commitFails, hd]

/-- A flip of pages that no decoder maps sets ERR (R428). -/
theorem biasFlipGo_err {s : State} {v : W32} (hv : v.toNat < 16) (hf : s.host.flip = none) (hg : v.getLsbD 0 = true)
    (hm : s.host.mapsPages (s.host.biasPage.toNat % 2 ^ 36) (s.host.biasPage.toNat % 2 ^ 36 + s.host.biasN.toNat % 2 ^ 29) = false) :
    yields (.biasFlipGo v) s { s with host := { s.host with biasDir := v.getLsbD 1, biasErr := true } } := by
  have h : s.defined 0xF v = (s, v) := s.defined_low (n := 4) hv
  refine yields_of_wf (t := s.writeBiasCmd v) rfl rfl ?_
  unfold State.writeBiasCmd
  rw [h]
  refine (if_neg ?_).trans (if_neg ?_)
  · rw [hg]
    simp [hf]
  · exact Bool.eq_false_iff.1 hm

/-- BAR2 reads 0 while RESETTING (R456). -/
theorem bar2Read_resetting {s : State} {off len : Nat} (hs : s.host.state = 6) (h0 : len ≠ 0) (h : off + len ≤ 0x4000000) :
    yields (.bar2Read off len) s { s with out := s.out ++ [.data off (List.replicate len 0) false] } := by
  have hsize : ¬ bar2Size < off + len := not_lt.2 h
  exact yields_of_wf rfl rfl ((if_neg (by simp [h0, hsize])).trans (if_pos hs))

/-- BAR2 ignores writes while RESETTING (R456). -/
theorem bar2Write_resetting {s : State} {off : Nat} {data : List Byte} {poison : Bool} (hs : s.host.state = 6) :
    yields (.bar2Write off data poison) s s :=
  yields_of_wf rfl rfl (if_pos (by simp [hs, dRESETTING]))

/-! ### The statement -/

theorem badCommandsAndAccessesAreTurnedAway : BadCommandsAndAccessesAreTurnedAway := by
  intro s c rest ring base size off len n v data poison
  refine ⟨fun _ he hs hb hids => ⟨fun k hk => ?_, fun hp hl hst => ?_⟩, fun hen => ?_, fun _ hc hd => hdmCommit_err hc hd,
    fun _ hv hf hg hm => biasFlipGo_err hv hf hg hm,
    fun hs => ⟨fun _ h0 h => bar2Read_resetting hs h0 h, fun _ => bar2Write_resetting hs⟩⟩
  · exact commandExecute_ends he hs hb hids (State.beginCmd_badParam (s := s.withElastic rest) hk)
  · obtain ⟨t, ht, hended, hcomp⟩ := commandExecute_ends he hs hb hids (State.beginCmd_badState hp hl hst)
    exact ⟨t, _, ht, hended, hcomp, State.stateDetail_mod _ _⟩
  · obtain ⟨hsq, hcq⟩ := doorbells_ignored v hen
    exact ⟨fun hw => yields_of_wf hw rfl hsq, fun hw => yields_of_wf hw rfl hcq⟩

theorem failedCommandsEndWithTheirStatus : FailedCommandsEndWithTheirStatus := by
  intro s id c image binds place hbm placed e busy
  refine ⟨fun _ hx hl => ⟨load_poisoned hx hl, fun hb => ⟨fun k => load_badParam hx hl hb, fun hk => ⟨fun hr => ?_, fun hg hr => ?_⟩⟩⟩,
    fun _ hx => ⟨reserve_poisoned hx, reserve_refused hx⟩, fun _ hx => ⟨arm_suspended hx, fun hs k => arm_fault hx hs⟩,
    fun _ hx => ⟨start_forbidden hx, start_late hx⟩,
    fun _ hx => ⟨openChannel_poisoned hx, fun hb => ⟨openChannel_bad hx hb, openChannel_full hx hb⟩⟩,
    fun _ hx => setApertures_bad hx, fun _ hx => loadClusterMap_notMaster hx, fun _ hx => timeCtrlStep_busy hx,
    fun _ hx => mss_restarting hx⟩
  · exact load_ends hx hl hb hk (State.loadJob_refused hr)
  · exact ⟨fun hf hs => load_ends hx hl hb hk (State.loadJob_unsigned hg hr hf hs),
      fun hs he => load_ends hx hl hb hk (State.loadJob_error hg hr hs he)⟩

/-- Settles O40: each failing check ends its command through `State.finish` or `State.cmdRecord`, which touch the host interface alone. -/
theorem commandsAreTurnedAway : Obligations.CommandsAreTurnedAway :=
  ⟨badCommandsAndAccessesAreTurnedAway, failedCommandsEndWithTheirStatus⟩

end Sys2Proof.Machine
end

section
/-!
SUPPORT. Events that are not due, and writes that registers ignore (14 R422; 16 R488, R489; 17 R511, R526; 00 R14).
-/

namespace Sys2Proof.Machine

open Sys2Proof Sys2Proof.Safety Sys2Proof.Claims

/-! ### Events that are not due -/

/-- A command on a core depends only on the core that its action makes of the one found. -/
theorem State.onCore_const (s : State) (k : Nat) (f : Env → Core → Core) :
    s.onCore k f = s.onCore k fun _ _ => f (s.env k) (found s k) := rfl

/-- A command on a core that ends as `c` hands `c` over, and leaves every other unit as it was. -/
theorem hands_of_onCore {i : Instr} {s : State} {n : Nat} {c : Core} (hg : s.gated = false)
    (h : exec i s = .next (s.onCore n fun _ _ => c)) : hands i s n c := by
  refine ⟨⟨_, h, s.onCore_core n _ hg, fun m hm => s.onCore_core_ne n _ hg m hm, ?_⟩, h⟩
  exact ⟨s.onCore_hbm n _ hg, s.onCore_hubs n _ hg, s.onCore_clk n _ hg, s.onCore_host n _ hg, s.onCore_cfg n _ hg,
    s.onCore_pins n _ hg, s.onCore_pending n _ hg⟩

/-- The watchdog passes a core that is off, idle, or has made progress within WD_LIMIT (R488). -/
theorem watchdog_passes {s : State} {n delta : Nat} (hf : fit (.watchdogNoProgress n delta) s = true)
    (h : 4000 * s.cfg.wdLimit = 0
      ∨ ¬ ((reached s n delta).ms.handler ≠ none ∨ ((reached s n delta).ctx (reached s n delta).rn.ctx).used = true
        ∧ ((reached s n delta).ctx (reached s n delta).rn.ctx).done = false)
      ∨ (s.copyTbt (s.phys n)).toNat < (reached s n delta).rn.progress + 4000 * s.cfg.wdLimit) :
    hands (.watchdogNoProgress n delta) s n (reached s n delta) := by
  obtain ⟨hwf, hg⟩ := Bool.and_eq_true_iff.1 hf
  have hg : s.gated = false := by simpa using hg
  refine hands_of_onCore hg ((exec_next hwf rfl).trans (congrArg _ ((s.onCore_const n _).trans
    (congrArg (fun c => s.onCore n fun _ _ => c) (if_pos ?_)))))
  change (decide (4000 * s.cfg.wdLimit = 0)
    || !((reached s n delta).ms.handler.isSome
      || (((reached s n delta).ctx (reached s n delta).rn.ctx).used && !((reached s n delta).ctx (reached s n delta).rn.ctx).done))
    || decide ((reached s n delta).rn.stop ≠ .no)
    || decide ((s.copyTbt (s.phys n)).toNat < (reached s n delta).rn.progress + 4000 * s.cfg.wdLimit)) = true
  rcases h with h0 | hidle | hnew
  · rw [decide_eq_true h0]
    rfl
  · have hidle : ((reached s n delta).ms.handler.isSome || (((reached s n delta).ctx (reached s n delta).rn.ctx).used
        && !((reached s n delta).ctx (reached s n delta).rn.ctx).done)) = false :=
      Bool.eq_false_iff.2 fun ha => hidle (by simpa [Option.isSome_iff_ne_none] using ha)
    rw [hidle]
    simp
  · rw [decide_eq_true hnew, Bool.or_true]

theorem runDeadline_early {s : State} {job run : Nat} {x : Run} (hw : (Instr.runDeadline job run).wf = true)
    (hf : (s.job job).live.find? (fun y => y.idx = run) = some x) (h : s.clk.tbt.toNat < x.start + 4000 * x.deadline) :
    yields (.runDeadline job run) s s := by
  refine yields_of_wf hw rfl ?_
  simp only [hf]
  exact if_pos (by simp [h])

theorem autoReset_early {s : State} {upTo t0 : Nat} {r : ResetRun} (ha : s.fl.autoAt = some t0) (hb : s.fl.rsBusy = 0)
    (h : s.clk.tbt.toNat < t0) : yields (.autoReset upTo r) s s := by
  refine yields_of_wf rfl rfl ?_
  simp [ha, hb, h]

theorem whatIsNotDueChangesNothing : WhatIsNotDueChangesNothing := by
  intro s job run n delta upTo t0 r x
  exact ⟨watchdog_passes, fun hw hf h => runDeadline_early hw hf h, fun _ ha hb h => autoReset_early ha hb h,
    fun _ hb => yields_of_wf rfl rfl (if_neg (by simp [hb]))⟩

/-! ### Writes that registers ignore -/

/-- MB_CTRL ignores a write without GO, and any write while a message is served. -/
theorem mbGo_ignored {s : State} {v : W32} (hv : v.toNat < 2) (h : v = 0 ∨ s.mss.mbStatus.getLsbD 0 = true) : yields (.mbGo v) s s := by
  refine yields_of_wf rfl rfl ((s.writeMbCtrl_of_low hv).trans (if_pos ?_))
  rcases h with rfl | hb
  · rfl
  · rw [hb]
    simp

theorem throttleReturn_early {s : State} (h : s.clk.tbt.toNat < s.mss.lastBad + 400000000) : yields .throttleReturn s s :=
  yields_of_wf rfl rfl (if_pos (by simp [h]))

theorem pcapApply_waits {s : State} {code : Nat} (hp : s.mss.pcapPend = some code) (hr : s.detRun = true) : yields .pcapApply s s := by
  refine yields_of_wf rfl rfl ?_
  simp [hp, hr]

/-- The blocks of BAR0 whose registers the host does not write. -/
def Block0.readOnly : Block0 → Bool
  | .core _ | .hub _ | .port _ | .fabric | .clocks | .msix | .none => true
  | .globals | .cp | .bells | .mss | .faults | .cxl => false

theorem bar0Block_readOnly {a : Nat} (h1 : 0x1000000 ≤ a) (h2 : a < 0x4100000) : (bar0Block a).1.readOnly = true := by
  rw [bar0Block, if_neg (by omega), if_neg (by omega), if_neg (by omega), if_neg (by omega)]
  iterate 6
    split
    · rfl
  rfl

theorem State.writeWord_readOnly (s : State) {a : Nat} (v : W32) (same : Bool) (h : (bar0Block a).1.readOnly = true) :
    s.writeWord a v same = s := by
  unfold State.writeWord
  split
  case h_7 => rfl
  all_goals
    rename_i hb
    rw [hb] at h
    exact nomatch h

/-! ### What no write of a register touches -/

/-- The cores, HBM, the jobs and the clocks. -/
def State.inner (s : State) : SMap Core × Hbm × SMap Job × Clocks := (s.cores, s.hbm, s.jobs, s.clk)

theorem State.defined_inner (s : State) (fields v : W32) : (s.defined fields v).1.inner = s.inner := by
  unfold State.defined
  split
  all_goals rfl

theorem State.writeBiasCmd_inner (s : State) (v : W32) : (s.writeBiasCmd v).inner = s.inner := by
  rw [← s.defined_inner 0xF v]
  unfold State.writeBiasCmd
  split
  next t u ht =>
  rw [ht]
  dsimp only
  split
  · rfl
  · split
    all_goals rfl

theorem State.writePcap_inner (s : State) (v : W32) : (s.writePcap v).inner = s.inner := by
  rw [← s.defined_inner 0x1F v]
  unfold State.writePcap
  split
  next t u ht =>
  rw [ht]
  dsimp only
  split
  · rfl
  · split
    all_goals rfl

theorem State.writeMbCtrl_inner (s : State) (v : W32) : (s.writeMbCtrl v).inner = s.inner := by
  rw [← s.defined_inner 0x1 v]
  unfold State.writeMbCtrl
  split
  next t u ht =>
  rw [ht]
  split
  all_goals rfl

theorem State.writeCapStatus_inner (s : State) (v : W32) (same : Bool) : (s.writeCapStatus v same).inner = s.inner := by
  rw [← s.defined_inner 0x3F v]
  unfold State.writeCapStatus
  split
  next t u ht =>
  rw [ht]
  split
  all_goals rfl

theorem State.writeBell_inner (s : State) (o : Nat) (v : W32) : (s.writeBell o v).inner = s.inner := by
  unfold State.writeBell State.writeSqTail State.writeCqHead
  split
  · dsimp only
    split
    all_goals rfl
  · dsimp only
    split
    all_goals rfl
  · rfl

theorem State.writeRingWord_inner (s : State) (ring o : Nat) (v : W32) : (s.writeRingWord ring o v).inner = s.inner := by
  unfold State.writeRingWord
  dsimp only
  split
  case h_5 => exact s.defined_inner _ _
  case h_6 => rfl
  case h_7 => rfl
  all_goals
    split
    all_goals rfl

theorem State.writeCpWord_inner (s : State) (o : Nat) (v : W32) : (s.writeCpWord o v).inner = s.inner := by
  unfold State.writeCpWord
  split
  · exact s.writeRingWord_inner ..
  · split
    · rfl
    · exact s.defined_inner _ _
    · exact s.defined_inner _ _
    · exact s.writeBiasCmd_inner v
    · rfl

theorem State.writeMgWord_inner (s : State) (o : Nat) (v : W32) (same : Bool) : (s.writeMgWord o v same).inner = s.inner := by
  unfold State.writeMgWord
  split
  · rfl
  · split
    · exact s.defined_inner _ _
    · exact s.writePcap_inner v
    · exact s.defined_inner _ _
    · exact s.writeMbCtrl_inner v
    · rfl

theorem State.writeFlWord_inner (s : State) (o : Nat) (v : W32) (same : Bool) : (s.writeFlWord o v same).inner = s.inner := by
  unfold State.writeFlWord
  split
  · rfl
  · exact s.writeCapStatus_inner v same
  · exact s.defined_inner _ _
  · rfl

theorem State.setHdm_inner (s : State) (n : Bool) (x : Hdm) : (s.setHdm n x).inner = s.inner := rfl

theorem State.writeHdmWord_inner (s : State) (o : Nat) (v : W32) : (s.writeHdmWord o v).inner = s.inner := by
  unfold State.writeHdmWord
  split
  all_goals rfl

/-- A write of any register leaves cores, HBM, jobs and clocks as they were. -/
theorem State.writeWord_inner (s : State) (a : Nat) (v : W32) (same : Bool) : (s.writeWord a v same).inner = s.inner := by
  unfold State.writeWord
  split
  · exact s.defined_inner _ _
  · exact s.writeCpWord_inner ..
  · exact s.writeBell_inner ..
  · exact s.writeMgWord_inner ..
  · exact s.writeFlWord_inner ..
  · exact s.writeHdmWord_inner ..
  · rfl

theorem registerWrite_misaligned_keeps (s : State) {off : Nat} (w : W64) (sm : Bool) (h : off + 4 ≤ 0x10000000) (ha : off % 4 ≠ 0) :
    ∃ u, exec (.registerWrite off ⟨4, sm, .whole⟩ w) s = .next u ∧ u.cores = s.cores ∧ u.hbm = s.hbm ∧ u.jobs = s.jobs ∧ u.clk = s.clk := by
  have hi := s.draw.writeWord_inner (off / 4 * 4) (Config.free32 s.freeCtr) sm
  exact ⟨_, exec_registerWrite_misaligned s ⟨4, sm, .whole⟩ w rfl h ha, congrArg (·.1) hi, congrArg (·.2.1) hi, congrArg (·.2.2.1) hi,
    congrArg (·.2.2.2) hi⟩

theorem freeBytes_length (fc k n : Nat) : (freeBytes fc k n).length = n := by
  induction n generalizing k with
  | zero => rfl
  | succ n ih => simp [freeBytes, ih]

theorem rcRegisterRead_misaligned_keeps (s : State) {off : Nat} (sm : Bool) (h : off + 4 ≤ 0x10000000) (ha : off % 4 ≠ 0) :
    ∃ u d, exec (.rcRegisterRead off ⟨4, sm, .whole⟩) s = .next u ∧ d.length = 4
      ∧ { u with out := s.out, freeCtr := s.freeCtr } = s ∧ u.out = s.out ++ [.data off d false] :=
  ⟨_, _, exec_rcRegisterRead_misaligned s ⟨4, sm, .whole⟩ rfl h ha, freeBytes_length s.freeCtr 0 4, rfl, rfl⟩

theorem writesThatTheRegistersIgnore : WritesThatTheRegistersIgnore := by
  intro s v w off code sm
  refine ⟨fun _ hv h => mbGo_ignored hv h, fun _ hv hc => yields_of_wf rfl rfl (s.writePcap_bad hv hc), fun _ h => throttleReturn_early h,
    fun _ hp hr => pcapApply_waits hp hr, fun _ ha h1 h2 => ?_, fun _ h ha => registerWrite_misaligned_keeps s w sm h ha,
    fun _ h ha => rcRegisterRead_misaligned_keeps s sm h ha⟩
  exact (exec_registerWrite_word s ⟨4, sm, .whole⟩ w rfl (by omega) ha).trans
    (congrArg _ (s.writeWord_readOnly _ sm (bar0Block_readOnly h1 h2)))

end Sys2Proof.Machine
end

section
/-!
SUPPORT. Answers of the MSS, and the messages that it turns away (17 R504 to R507, R519 to R523).
-/

namespace Sys2Proof.Machine

open Sys2Proof Sys2Proof.Safety Sys2Proof.Claims

/-! ### Where an answer goes -/

/-- The end of a command touches the commands in execution and the rings alone. -/
theorem State.finish_hostIf (s : State) (id : Nat) (st : Status) (d : Nat) :
    { (s.finish id st d).host with exec := s.host.exec, rings := s.host.rings } = s.host := by
  cases h : s.cmd id with
  | none => simp only [State.finish, h]
  | some c =>
    rw [State.finish_eq h]
    exact congrArg (fun t : State => { t.host with exec := s.host.exec, rings := s.host.rings }) (State.cmdRecord_rings _ c st d)

/-- What an answer leaves as it was: everything but commands and rings, HBM, the mailbox, the messages under way, and what has left the
part. -/
def answerKept (s t : State) : Prop :=
  { t with host := s.host, hbm := s.hbm, plane := s.plane, nextId := s.nextId, out := s.out, mss := s.mss } = s
    ∧ { t.mss with queue := s.mss.queue, mbStatus := s.mss.mbStatus, mbRsp := s.mss.mbRsp } = s.mss
    ∧ { t.host with exec := s.host.exec, rings := s.host.rings } = s.host

theorem answerKept.service {s t : State} (h : answerKept s t) : serviceKept s t :=
  ⟨congrArg (·.cores) h.1, congrArg (·.jobs) h.1, congrArg (·.clk) h.1, congrArg (·.ports) h.1, congrArg (·.cfg) h.1,
    congrArg (·.fl) h.1, congrArg (·.pending) h.1⟩

/-- A state but for its messages under way. -/
def State.emptyWay (s : State) : State := { s with plane := [], nextId := 0 }

/-- Lines for a scratchpad go on their way, and nothing else changes. -/
theorem State.scrWrite_kept (s : State) (core a : Nat) (d : List Byte) (p : Bool) :
    { s.scrWrite core a d p with plane := s.plane, nextId := s.nextId } = s := by
  have h : (s.scrWrite core a d p).emptyWay = s.emptyWay := by
    refine foldl_keeps State.emptyWay _ ?_ (chunks a d) s
    exact fun _ _ => rfl
  exact congrArg (fun t : State => { t with plane := s.plane, nextId := s.nextId }) h

theorem State.writeOut_kept (s : State) (dev : Bool) (addr : Nat) (d : List Byte) :
    { s.writeOut dev addr d with hbm := s.hbm, plane := s.plane, nextId := s.nextId } = s := by
  unfold State.writeOut
  split
  · rfl
  · dsimp only
    split
    · rfl
    · exact congrArg (fun t : State => { t with hbm := s.hbm }) (s.scrWrite_kept ..)
    · rfl

/-- A result buffer touches HBM, the messages under way, and what has left the part. -/
theorem State.result_kept (s : State) (addr : W64) (d : List Byte) :
    { s.result addr d with hbm := s.hbm, plane := s.plane, nextId := s.nextId, out := s.out } = s := by
  unfold State.result
  split
  · rfl
  · exact congrArg (fun t : State => { t with out := s.out }) (s.writeOut_kept ..)

/-- The bytes of a result buffer go to its address. -/
theorem State.result_delivered (s : State) (addr : W64) (d : List Byte) : delivered s (s.result addr d) addr d := by
  by_cases hd : d = []
  · subst hd
    exact ⟨(List.append_nil _).symm, fun _ => ⟨rfl, rfl⟩, fun _ _ => ⟨rfl, fun _ _ => rfl⟩⟩
  · have hr : s.result addr d = (s.writeOut (addr.getLsbD 63) addr.toNat d).emit (.buffer addr.toNat d) := if_neg (by simpa using hd)
    have hw := s.writeOut_kept (addr.getLsbD 63) addr.toNat d
    rw [hr]
    refine ⟨?_, fun h => ?_, fun h hlen => ?_⟩
    · rw [if_neg hd]
      exact congrArg (· ++ _) (congrArg (·.out) hw)
    · rw [h]
      exact ⟨rfl, rfl⟩
    · have hpos := List.length_pos_iff.2 hd
      have hplace : dpaPlace true (addr.toNat % 2 ^ 48) = .hbm (addr.toNat % 2 ^ 48) := by
        have hend : addr.toNat % 2 ^ 48 < hbmEnd := lt_of_lt_of_le (Nat.lt_add_of_pos_right hpos) hlen
        unfold dpaPlace
        split
        · rfl
        · rfl
      have hh : (s.writeOut (addr.getLsbD 63) addr.toNat d).hbm = s.hbm.put (addr.toNat % 2 ^ 48) d false := by
        rw [h]
        simp only [State.writeOut, hplace]
        rfl
      have hb := s.hbm.write_bytes (addr.toNat % 2 ^ 48) d (List.replicate d.length false)
      rw [show s.hbm.write (addr.toNat % 2 ^ 48) d (List.replicate d.length false) = _ from hh.symm] at hb
      exact hb

/-! ### The answer -/

/-- MB_STATUS of an answer: DONE, and how many bytes it has. -/
theorem mbDone_toNat {n : Nat} (h : n ≤ 4096) : (mbDone n .ok).toNat = 2 + 4 * n := by
  simp only [mbDone, fld, Status.code, Nat.shiftLeft_eq, BitVec.toNat_ofNat]
  omega

/-- The request that is first has been answered. -/
def State.unqueue (s : State) : State := { s with mss := { s.mss with queue := s.mss.queue.drop 1 } }

section
variable {s : State} {id : Nat} {d e : List Byte}

theorem State.respond_noCommand (h : s.cmd id = none) : s.respond (.command id) d = s.unqueue := by
  have hu : s.unqueue.cmd id = none := h
  rw [State.unqueue] at hu
  simp only [State.respond, hu]
  rfl

variable {c : Cmd} (h : s.cmd id = some c) (he : e = d.take (c.p.p3.toNat % 2 ^ 16))
include h he

theorem State.respond_command : s.respond (.command id) d = (s.unqueue.result c.p.p2 e).finish id .ok e.length := by
  have hu : s.unqueue.cmd id = some c := h
  rw [State.unqueue] at hu
  simp only [State.respond, hu, he]
  rfl

/-- An answer ends the command that asked, with its bytes in the command's buffer. -/
theorem State.respond_command_ends :
    completed (s.respond (.command id) d) c .ok e.length ∧ delivered s (s.respond (.command id) d) c.p.p2 e := by
  have hc : (s.unqueue.result c.p.p2 e).cmd id = some c :=
    (congrArg (fun t : State => t.cmd id) (s.unqueue.result_kept c.p.p2 e)).trans h
  have hf := (s.unqueue.result c.p.p2 e).finish_host id .ok e.length
  rw [State.respond_command h he]
  refine ⟨State.finish_completed hc .ok e.length, ?_⟩
  rw [delivered, show ((s.unqueue.result c.p.p2 e).finish id .ok e.length).hbm = _ from congrArg (·.hbm) hf,
    show ((s.unqueue.result c.p.p2 e).finish id .ok e.length).plane = _ from congrArg (·.plane) hf,
    show ((s.unqueue.result c.p.p2 e).finish id .ok e.length).out = _ from congrArg (·.out) hf]
  exact s.unqueue.result_delivered c.p.p2 e

theorem State.respond_command_kept : answerKept s (s.respond (.command id) d)
    ∧ (s.respond (.command id) d).mss.queue = s.mss.queue.drop 1 := by
  have hf := (s.unqueue.result c.p.p2 e).finish_host id .ok e.length
  have hr := s.unqueue.result_kept c.p.p2 e
  have hmss : ((s.unqueue.result c.p.p2 e).finish id .ok e.length).mss = s.unqueue.mss :=
    (congrArg (·.mss) hf).trans (congrArg (·.mss) hr)
  rw [State.respond_command h he]
  refine ⟨⟨?_, ?_, ?_⟩, congrArg (·.queue) hmss⟩
  · have h1 := congrArg (fun t : State => { t with hbm := s.hbm, plane := s.plane, nextId := s.nextId, out := s.out, mss := s.mss, host := s.host }) hf
    have h2 := congrArg (fun t : State => { t with mss := s.mss, host := s.host }) hr
    exact h1.trans h2
  · rw [hmss]
    rfl
  · have hh := (s.unqueue.result c.p.p2 e).finish_hostIf id .ok e.length
    rw [show (s.unqueue.result c.p.p2 e).host = s.host from congrArg (·.host) hr] at hh
    exact hh

end

/-- An answer leaves units, jobs and registers as they were. -/
theorem State.respond_kept (s : State) (r : Transport) (d : List Byte) : answerKept s (s.respond r d) := by
  cases r with
  | command id =>
    cases h : s.cmd id with
    | none => exact State.respond_noCommand h ▸ ⟨rfl, rfl, rfl⟩
    | some c => exact (State.respond_command_kept h rfl).1
  | _ => exact ⟨rfl, rfl, rfl⟩

/-- An answer goes back the way that its request came. -/
theorem State.respond_answered (s : State) (r : Transport) (d : List Byte) : answered s (s.respond r d) r d := by
  cases r with
  | mailbox =>
    have hlen : (d.take 4096).length = min 4096 d.length := List.length_take ..
    refine ⟨rfl, ?_, ?_, rfl⟩
    · rw [← hlen]
      exact mbDone_toNat (by omega)
    · rw [← hlen]
      exact readBytes_writeBytes [] 0 (d.take 4096)
  | command id =>
    refine ⟨?_, fun c h => State.respond_command_ends h rfl⟩
    cases h : s.cmd id with
    | none => rw [State.respond_noCommand h]; rfl
    | some c => exact (State.respond_command_kept h rfl).2
  | _ => exact ⟨rfl, rfl⟩

/-! ### Messages that are answered -/

section
variable {i : Instr} {s : State} {r : Transport} {type code : Nat} {body : List Byte}

/-- A message whose meaning is an answer, by a device that has changed its MSS to `m`, is answered so. -/
theorem answers_of_reply {m : MssState} (hw : i.wf = true) (he : exec i s = accept i (State.reply { s with mss := m } r type code body))
    (hq : m.queue = s.mss.queue) :
    ∃ t, exec i s = .next t ∧ serviceKept s t ∧ answered s t r (leBytes type 1 ++ leBytes code 1 ++ body)
      ∧ { t.mss with queue := m.queue, mbStatus := m.mbStatus, mbRsp := m.mbRsp } = m ∧ t.host.keys = s.host.keys := by
  have hk := State.respond_kept { s with mss := m } r (leBytes type 1 ++ leBytes code 1 ++ body)
  refine ⟨_, exec_next hw he, hk.service, ?_, hk.2.1, congrArg (·.keys) hk.2.2⟩
  have ha := State.respond_answered { s with mss := m } r (leBytes type 1 ++ leBytes code 1 ++ body)
  cases r
  all_goals
    simp only [answered, hq] at ha ⊢
    exact ha

/-- A message that changes nothing beside its answer. -/
theorem repliesOnly_of_reply (hw : i.wf = true) (he : exec i s = accept i (s.reply r type code body)) : repliesOnly i s r := by
  obtain ⟨t, ht, hk, ha, hm, _⟩ := answers_of_reply (m := s.mss) hw he rfl
  exact ⟨t, _, ht, hk, ha, hm⟩

theorem replies_of_reply {p : State → Prop} (hw : i.wf = true) (he : exec i s = accept i (s.reply r type code body))
    (hp : ∀ t : State, { t.mss with queue := s.mss.queue, mbStatus := s.mss.mbStatus, mbRsp := s.mss.mbRsp } = s.mss → p t) :
    replies i s r body p := by
  obtain ⟨t, ht, hk, ha, hm, _⟩ := answers_of_reply (m := s.mss) hw he rfl
  exact ⟨t, _, ht, hk, rfl, ha, hp t hm⟩

end

/-! ### Vendor messages -/

section
variable {s : State} {r : Transport} (hs : s.serves r = true)
include hs

/-- SET_ROOTS without a secured session, or with no certificate or more than 8, is refused (R505). -/
theorem setRoots_refused {secured : Bool} {certs : List (List Byte)} (hr : r ≠ .doe)
    (hg : secured = false ∨ ¬ (s.mss.spdm.session = true ∧ s.mss.spdm.final = true ∧ certs ≠ [] ∧ certs.length ≤ 8)) :
    replies (.setRoots r secured certs) s r [0x12] fun t => t.mss.roots = s.mss.roots := by
  refine replies_of_reply (type := tVendor) (code := 0x04) rfl (congrArg _ ((if_neg (by simp [hs, hr])).trans (if_pos ?_)))
    fun t ht => congrArg (·.roots) ht
  rcases hg with rfl | hg
  · rfl
  · by_contra hno
    simp only [Bool.or_eq_true, Bool.not_eq_true', Bool.and_eq_false_iff, List.isEmpty_iff, decide_eq_true_eq, not_or, not_lt,
      Bool.not_eq_false] at hno
    obtain ⟨⟨⟨⟨_, hsess⟩, hfin⟩, hne⟩, hlen⟩ := hno
    exact hg ⟨hsess, hfin, hne, hlen⟩

/-- 0 and 0xFF are no endpoint IDs. -/
theorem endpointIdAssignment_refused {eid : BitVec 8} (hr : r ≠ .doe) (he : eid = 0 ∨ eid = 0xFF) :
    repliesOnly (.endpointIdAssignment r eid) s r :=
  repliesOnly_of_reply rfl (congrArg _ ((if_neg (by simp [hs, hr])).trans (if_pos (by simpa using he))))

end

/-! ### Firmware -/

/-- What an update that ends early leaves as it was. -/
def flashKept (s t : State) : Prop :=
  serviceKept s t ∧ t.mss.fuseSvn = s.mss.fuseSvn ∧ t.host.state = s.host.state ∧ t.mss.image = s.mss.image

theorem flashKept.trans {s t u : State} (h : flashKept s t) (h' : flashKept t u) : flashKept s u := by
  obtain ⟨⟨hcores, hjobs, hclk, hports, hcfg, hfl, hpending⟩, hfuse, hstate, himage⟩ := h
  obtain ⟨⟨hcores', hjobs', hclk', hports', hcfg', hfl', hpending'⟩, hfuse', hstate', himage'⟩ := h'
  exact ⟨⟨hcores'.trans hcores, hjobs'.trans hjobs, hclk'.trans hclk, hports'.trans hports, hcfg'.trans hcfg, hfl'.trans hfl,
    hpending'.trans hpending⟩, hfuse'.trans hfuse, hstate'.trans hstate, himage'.trans himage⟩

/-- A ledger entry touches the ledger, its alert, and the notes of the hcyc. -/
theorem State.ledger_flashKept (s : State) (type : Nat) (data : List Byte) : flashKept s (s.ledger type data) := by
  unfold State.ledger
  split
  all_goals exact ⟨⟨rfl, rfl, rfl, rfl, rfl, rfl, rfl⟩, rfl, rfl, rfl⟩

theorem State.reply_flashKept (s : State) (r : Transport) (type code : Nat) (body : List Byte) : flashKept s (s.reply r type code body) := by
  have hk := s.respond_kept r (leBytes type 1 ++ leBytes code 1 ++ body)
  exact ⟨hk.service, congrArg (·.fuseSvn) hk.2.1, congrArg (·.state) hk.2.2, congrArg (·.image) hk.2.1⟩

/-- The staging buffer holds an image, and the ledger notes the first step of the update. -/
def State.staged (s : State) (image sig : List Byte) : State :=
  { s with hbm := s.hbm.put stageBase (image ++ sig) false }.ledgerUpdate 1 (imageSvn image) 0

theorem State.staged_flashKept (s : State) (image sig : List Byte) : flashKept s (s.staged image sig) :=
  State.ledger_flashKept { s with hbm := s.hbm.put stageBase (image ++ sig) false } ..

/-- An image that R523 does not accept is staged, noted, and answered. -/
theorem exec_pldmFirmwareUpdate_refused {s : State} {r : Transport} {image sig : List Byte} (hs : s.serves r = true) (hr : r ≠ .doe)
    (hu : s.mss.update = false) (h7 : s.host.state ≠ 7) (hi : imageGood image sig s.mss.fuseSvn = false) :
    exec (.pldmFirmwareUpdate r image sig false) s = accept (.pldmFirmwareUpdate r image sig false)
      (((s.staged image sig).ledgerUpdate 2 (imageSvn image) 1).reply r tPldm 0x01 []) := by
  have hany : s.servesAny r = true := by
    obtain ⟨hawake, hnext⟩ := Bool.and_eq_true_iff.1 hs
    simp [State.servesAny, hawake, hnext]
  have hrom : decide (s.host.state = dRECOVERY) = false := decide_eq_false h7
  have hgood : imageGood image sig (s.staged image sig).mss.fuseSvn = false := (s.staged_flashKept image sig).2.1.symm ▸ hi
  rw [State.staged] at hgood
  simp only [exec_pldmFirmwareUpdate, execPldmFirmwareUpdate, hrom, Bool.false_eq_true, if_false]
  rw [if_neg (by simp [hany, hr]), if_neg (by simp [hu]), if_pos (by simp [hgood])]
  rfl

/-- An image that R523 does not accept leaves the flash as it was. -/
theorem pldmFirmwareUpdate_refused {s : State} {r : Transport} {image sig : List Byte} (hs : s.serves r = true) (hr : r ≠ .doe)
    (hu : s.mss.update = false) (h7 : s.host.state ≠ 7) (hi : imageGood image sig s.mss.fuseSvn = false) :
    ∃ t, exec (.pldmFirmwareUpdate r image sig false) s = .next t ∧ flashKept s t :=
  ⟨_, exec_next rfl (exec_pldmFirmwareUpdate_refused hs hr hu h7 hi),
    ((s.staged_flashKept image sig).trans (State.ledger_flashKept ..)).trans (State.reply_flashKept ..)⟩

/-! ### SPDM -/

section
variable {s : State} {r : Transport} (hs : s.serves r = true)
include hs

theorem negotiateAlgorithms_early {a b c d : Bool} (hv : s.mss.spdm.version = false) :
    repliesOnly (.negotiateAlgorithms r a b c d) s r :=
  repliesOnly_of_reply rfl (congrArg _ ((if_neg (by simp [hs])).trans (if_pos (by simp [hv]))))

/-- Algorithms that are not offered end the connection. -/
theorem negotiateAlgorithms_unsupported {a b c d : Bool} (hv : s.mss.spdm.version = true)
    (hn : ¬ (a = true ∧ b = true ∧ c = true ∧ d = true)) :
    ∃ t e, exec (.negotiateAlgorithms r a b c d) s = .next t ∧ serviceKept s t ∧ answered s t r e ∧ t.mss.spdm.version = false
      ∧ t.mss.spdm.algo = false := by
  have hall : ¬ ((a && b && c && d) = true) := fun h => hn (by simpa [and_assoc] using h)
  have he : exec (.negotiateAlgorithms r a b c d) s = accept (.negotiateAlgorithms r a b c d)
      (State.reply { s with mss := { s.mss with spdm := Spdm.none } } r tSpdm 0x7F
      (leBytes eUnsupported 1)) := by
    simp only [exec_negotiateAlgorithms, execNegotiateAlgorithms]
    rw [if_neg (by simp [hs]), if_neg (by simp [hv]), if_neg hall]
    rfl
  obtain ⟨t, ht, hk, ha, hm, _⟩ := answers_of_reply rfl he rfl
  exact ⟨t, _, ht, hk, ha, congrArg (·.spdm.version) hm, congrArg (·.spdm.algo) hm⟩

/-- A request before the negotiation of algorithms is an error. -/
theorem negotiated_early {act : State} (ha : s.mss.spdm.algo = false) : s.negotiated r act = s.spdmError r eUnexpected := by
  simp [State.negotiated, hs, ha]

theorem negotiated_acts {act : State} (ha : s.mss.spdm.algo = true) : s.negotiated r act = act := by
  simp [State.negotiated, hs, ha]

/-- A wrong proof ends the session. -/
theorem finish_wrong {verify : List Byte} (ha : s.mss.spdm.algo = true) (hx : s.mss.spdm.session = true)
    (hf : s.mss.spdm.final = false) (hv : verify ≠ Config.finishMac s.mss.spdm.key s.mss.spdm.transcript) :
    ∃ t e, exec (.finish r verify) s = .next t ∧ serviceKept s t ∧ answered s t r e ∧ t.mss.spdm.session = false ∧ t.mss.spdm.key = [] := by
  have he : exec (.finish r verify) s = accept (.finish r verify) (State.reply { s with mss := { s.mss with spdm := { s.mss.spdm with
      session := false, key := [], transcript := [] } } } r tSpdm 0x7F (leBytes eInvalid 1)) := by
    simp only [exec_finish, execFinish, negotiated_acts hs ha]
    rw [if_neg (by simp [hx, hf]), if_pos hv]
    rfl
  obtain ⟨t, ht, hk, ha, hm, _⟩ := answers_of_reply rfl he rfl
  exact ⟨t, _, ht, hk, ha, congrArg (·.spdm.session) hm, congrArg (·.spdm.key) hm⟩

theorem ideKeyManagement_unsecured {key : List Byte} :
    ∃ t e, exec (.ideKeyManagement r false key) s = .next t ∧ serviceKept s t ∧ answered s t r e ∧ t.host.keys = s.host.keys := by
  have he : exec (.ideKeyManagement r false key) s = accept (.ideKeyManagement r false key) (s.reply r tSpdm 0x7F (leBytes eUnexpected 1)) := by
    simp only [exec_ideKeyManagement, execIdeKeyManagement]
    rw [if_neg (by simp [hs])]
    rfl
  obtain ⟨t, ht, hk, ha, _, hkeys⟩ := answers_of_reply (m := s.mss) rfl he rfl
  exact ⟨t, _, ht, hk, ha, hkeys⟩

theorem spdmRequests_early {slot off len : Nat} {nonce exchange verify : List Byte} {indices : List Nat} (ha : s.mss.spdm.algo = false) :
    ∀ i ∈ ([.getDigests r, .getCertificate r slot off len, .challenge r slot nonce, .getMeasurements r indices,
      .keyExchange r exchange nonce, .finish r verify, .endSession r] : List Instr), repliesOnly i s r := by
  have early : ∀ {i : Instr} {act : State}, i.wf = true → exec i s = accept i (s.negotiated r act) → repliesOnly i s r :=
    fun hw he => repliesOnly_of_reply hw (he.trans (congrArg _ (negotiated_early hs ha)))
  simp only [List.forall_mem_cons]
  refine ⟨?_, ?_, ?_, ?_, ?_, ?_, ?_, fun _ h => absurd h List.not_mem_nil⟩
  · exact early rfl rfl
  · exact early rfl rfl
  · exact early rfl rfl
  · exact early rfl rfl
  · exact early rfl rfl
  · exact early rfl rfl
  · exact early rfl rfl

end

theorem messagesAreTurnedAway : MessagesAreTurnedAway := by
  intro s r slot off len certs image sig eid nonce exchange verify key indices a b c d m x hs
  exact ⟨fun hr => ⟨⟨fun hg _ => setRoots_refused hs hr (.inr hg), fun _ => setRoots_refused hs hr (.inl rfl)⟩,
      fun _ hu h7 hi => pldmFirmwareUpdate_refused hs hr hu h7 hi, fun _ he => endpointIdAssignment_refused hs hr he⟩,
    fun hv _ => negotiateAlgorithms_early hs hv, fun hv hn _ => negotiateAlgorithms_unsupported hs hv hn,
    fun ha i hi _ => spdmRequests_early hs ha i hi, fun _ ha hx hf hv => finish_wrong hs ha hx hf hv, fun _ => ideKeyManagement_unsecured hs⟩

end Sys2Proof.Machine
end

section
/-!
SUPPORT. Package resets that pins do not cause, and BOOT that ends elsewhere than in READY (18 R537, 17 R523, 12 R350, 16 R501).
-/

namespace Sys2Proof.Machine

open Sys2Proof Sys2Proof.Safety Sys2Proof.Claims

/-! ### What calibration and the remap have found -/

/-- What the end of BOOT judges by: the islands, and the columns that each row has disabled. -/
def State.working (s : State) : SMap Island × SMap Nat := (s.clk.isl, s.fl.spare)

theorem State.planeBad_of_working {s t : State} (h : t.working = s.working) : t.planeBad = s.planeBad := by
  have hisl : t.clk.isl = s.clk.isl := congrArg Prod.fst h
  simp only [State.planeBad, State.island, hisl]

theorem State.rowShort_of_working {s t : State} (h : t.working = s.working) : t.rowShort = s.rowShort := by
  have hspare : t.fl.spare = s.fl.spare := congrArg Prod.snd h
  unfold State.rowShort State.failedIn
  rw [hspare]

theorem State.startHubs_working (s : State) : s.startHubs.working = s.working := by
  refine foldl_keeps State.working _ ?_ (upFrom 0 4) s
  exact fun _ _ => rfl

theorem State.ledger_working (s : State) (type : Nat) (data : List Byte) : (s.ledger type data).working = s.working := by
  unfold State.ledger
  split
  all_goals rfl

theorem State.sendOwn_working (s : State) (p dev : Nat) (b : Own) : (s.sendOwn p dev b).working = s.working := by
  unfold State.sendOwn
  dsimp only
  split
  all_goals rfl

theorem State.sendCluster_working (s : State) (b : MgmtBody) : (s.sendCluster b).working = s.working := by
  refine (foldl_keeps State.working _ ?_ s.farther _).trans (foldl_keeps State.working _ ?_ s.joined s)
  · exact fun t x => t.sendOwn_working ..
  · exact fun t p => t.sendOwn_working ..

theorem State.planStep_working (s : State) (m : Int) : (s.planStep m).working = s.working := by
  unfold State.planStep
  split
  · rfl
  · exact State.sendCluster_working ..

theorem State.stepFrom_working (s : State) (e : Int) : (s.stepFrom e).working = s.working := by
  unfold State.stepFrom
  dsimp only
  split
  · rfl
  · split
    · exact State.planStep_working ..
    · rfl

theorem State.bootStep_working (s : State) : s.bootStep.working = s.working := by
  unfold State.bootStep
  split
  · exact s.stepFrom_working _
  · rfl

/-! ### The device is FAULTED -/

/-- The state of the device, and the cause of FAULTED that it shows. -/
def State.deviceShows (s : State) : Nat × Nat := (s.host.state, s.host.fcause)

theorem State.finish_deviceShows (s : State) (id : Nat) (st : Status) (d : Nat) : (s.finish id st d).deviceShows = s.deviceShows :=
  congrArg (fun h => (h.state, h.fcause)) (s.finish_hostIf id st d :)

theorem State.addRecord_deviceShows (s : State) (ring : Nat) (x : CRec) : (s.addRecord ring x).deviceShows = s.deviceShows := by
  unfold State.addRecord
  dsimp only
  split
  all_goals rfl

theorem State.setJob_deviceShows (s : State) (k : Nat) (j : Job) : (s.setJob k j).deviceShows = s.deviceShows := rfl

theorem State.freeCtx_deviceShows (s : State) (job run : Nat) : (s.freeCtx job run).deviceShows = s.deviceShows := by
  refine foldl_keeps State.deviceShows _ ?_ (s.job job).placement s
  exact fun _ _ => rfl

theorem State.cancelStarts_deviceShows (s : State) (job : Nat) : (s.cancelStarts job).deviceShows = s.deviceShows :=
  foldl_keeps State.deviceShows _ (fun t (x : PendStart) => t.finish_deviceShows x.cmd .erefused 0xFFFF) ..

/-- The end of the jobs in FAULTED leaves the state and the cause that the device has entered. -/
theorem State.deviceFault_deviceShows (s : State) (cause : Nat) (rec : Option Nat) : (s.deviceFault cause rec).deviceShows = (5, cause) := by
  unfold State.deviceFault
  dsimp only
  refine (foldl_keeps State.deviceShows _ ?_ (upFrom 0 64) _).trans rfl
  intro t k
  split
  · rfl
  · refine (foldl_keeps State.deviceShows _ ?_ _ _).trans ?_
    · exact fun u id => u.finish_deviceShows ..
    · rw [State.setJob_deviceShows]
      refine (foldl_keeps State.deviceShows _ ?_ _ _).trans (t.cancelStarts_deviceShows k)
      exact fun u r => (State.freeCtx_deviceShows ..).trans (State.addRecord_deviceShows ..)

/-! ### The package reset -/

/-- Pins that are both high cause no package reset, nor does PERST_N alone while THERMTRIP_N is asserted. -/
theorem packageReset_ignored {s : State} {p : PinLevels} (hw : p.pwrok = true) (h : p.perstN = true ∨ s.pins.trip = true) :
    yields (.packageReset p) s s := by
  refine yields_of_wf rfl (exec_packageReset ..) (if_pos ?_)
  rcases h with h | h
  · simp [hw, h]
  · simp [hw, h]

/-! ### The end of BOOT -/

theorem Pins.bootMode_eq (p : Pins) : p.bootMode = p.straps.toNat / 4 % 4 := congrArg (· % 4) (Nat.shiftRight_eq_div_pow _ 2)

/-- The image of the flash that the boot ROM accepts runs: READY, before the crossings and the rows are judged. -/
def State.verified (s : State) (d g : List Byte) : State :=
  State.bootStep (State.ledgerBoot (State.freshCores (State.startHubs { s with
    mss := { s.mss with up := true, image := d ++ g, fuseSvn := max s.mss.fuseSvn (imageSvn d) }
    host := { s.host with
      state := dREADY, fwrun := true, fwVer := BitVec.ofNat 32 (imageVer d), trVer := Config.translatorVersion d } })))

theorem State.verified_working (s : State) (d g : List Byte) : (s.verified d g).working = s.working :=
  (State.bootStep_working _).trans ((State.ledger_working ..).trans (State.startHubs_working _))

/-- BOOT leaves the device FAULTED, with a DEVICE record of its cause. -/
def State.bootFails (s : State) (cause island : Nat) : State :=
  (s.deviceRecord cause island).1.deviceFault cause (some (s.deviceRecord cause island).2)

theorem State.bootFails_deviceShows (s : State) (cause island : Nat) : (s.bootFails cause island).deviceShows = (5, cause) :=
  State.deviceFault_deviceShows ..

/-- BOOT after its image has run: FAULTED where a crossing of PL or of a hub has failed, or else a row is short of cores. -/
def State.judged (s : State) : State :=
  if s.planeBad then s.bootFails 1 s.badIsland else if s.rowShort then s.bootFails 4 0xFF else s

section
variable {s : State} {image sig : List Byte} {micros : Nat} (h1 : s.host.state = 1) (hl : s.pins.latched = true) (hm : micros ≤ 1000000)
include h1 hl hm

/-- The image does not run: the strap forces RECOVERY, or R523 does not accept it. -/
theorem exec_bootImageVerified_recovery
    (h : s.pins.straps.toNat / 4 % 4 = 1
      ∨ imageGood (s.mss.flashImage image sig).1 (s.mss.flashImage image sig).2 s.mss.fuseSvn = false) :
    exec (.bootImageVerified image sig micros) s
      = accept (.bootImageVerified image sig micros) { s with host := { s.host with state := 7 } } := by
  simp only [exec_bootImageVerified, execBootImageVerified, Pins.bootMode_eq]
  rw [if_neg (by simp [dBOOT, h1, hl, hm]), if_pos (by simpa using h)]
  rfl

theorem exec_bootImageVerified_judged (hb : s.pins.straps.toNat / 4 % 4 ≠ 1)
    (hi : imageGood (s.mss.flashImage image sig).1 (s.mss.flashImage image sig).2 s.mss.fuseSvn = true) :
    exec (.bootImageVerified image sig micros) s = accept (.bootImageVerified image sig micros)
      (s.verified (s.mss.flashImage image sig).1 (s.mss.flashImage image sig).2).judged := by
  simp only [exec_bootImageVerified, execBootImageVerified, Pins.bootMode_eq]
  rw [if_neg (by simp [dBOOT, h1, hl, hm]), if_neg (by simp [hb, hi])]
  rfl

end

/-- A state that is judged FAULTED shows the cause. -/
theorem State.judged_planeBad {s : State} (h : s.planeBad = true) : s.judged.deviceShows = (5, 1) := by
  rw [State.judged, if_pos h]
  exact s.bootFails_deviceShows ..

theorem State.judged_rowShort {s : State} (hp : s.planeBad = false) (h : s.rowShort = true) : s.judged.deviceShows = (5, 4) := by
  rw [State.judged, if_neg (by simp [hp]), if_pos h]
  exact s.bootFails_deviceShows ..

theorem bootEndsElsewhereThanReady : BootEndsElsewhereThanReady := by
  intro s p image sig micros
  refine ⟨fun _ hw h => packageReset_ignored hw h, fun _ h1 hl hm => ⟨fun h => ?_, fun hb hi => ?_⟩⟩
  · exact yields_of_wf rfl (exec_bootImageVerified_recovery h1 hl hm h) rfl
  · have hnext := exec_next rfl (exec_bootImageVerified_judged h1 hl hm hb hi)
    have hwork := s.verified_working (s.mss.flashImage image sig).1 (s.mss.flashImage image sig).2
    refine ⟨fun hp => ?_, fun hp hr => ?_⟩
    · have hshow := State.judged_planeBad ((State.planeBad_of_working hwork).trans hp)
      exact ⟨_, hnext, congrArg Prod.fst hshow, congrArg Prod.snd hshow⟩
    · have hshow := State.judged_rowShort ((State.planeBad_of_working hwork).trans hp) ((State.rowShort_of_working hwork).trans hr)
      exact ⟨_, hnext, congrArg Prod.fst hshow, congrArg Prod.snd hshow⟩

/-- Settles O52: what is not due, ignored, or turned away leaves what the statement names, and BOOT that does not reach READY ends in
RECOVERY or FAULTED. -/
theorem whatIsIgnoredOrTurnedAway : Obligations.WhatIsIgnoredOrTurnedAway :=
  ⟨whatIsNotDueChangesNothing, writesThatTheRegistersIgnore, messagesAreTurnedAway, bootEndsElsewhereThanReady⟩

end Sys2Proof.Machine
end

section
/-!
SUPPORT. Commands on one core (O20, O21): what they leave of the rest of the part, and how a stopping fault leaves its core.
-/

namespace Sys2Proof.Machine

open Sys2Proof Sys2Proof.Safety Sys2Proof.Claims

/-! ### Folds -/

/-- What one step of a fold establishes, and every step keeps, holds at its end. -/
theorem foldl_establishes {σ β : Type} {P : σ → Prop} {f : σ → β → σ} {l : List β} {b : β} (hb : b ∈ l)
    (hest : ∀ s, P (f s b)) (hkeep : ∀ s x, P s → P (f s x)) (s : σ) : P (l.foldl f s) := by
  obtain ⟨l₁, l₂, rfl⟩ := List.append_of_mem hb
  rw [List.foldl_append, List.foldl_cons]
  exact List.foldlRecOn l₂ f (hest _) fun t ht x _ => hkeep t x ht

/-! ### The rest of the part -/

theorem wf_of_fit {i : Instr} {s : State} (h : fit i s = true) : i.wf = true := (Bool.and_eq_true_iff.1 h).1

theorem gated_of_fit {i : Instr} {s : State} (h : fit i s = true) : s.gated = false := by
  simpa using (Bool.and_eq_true_iff.1 h).2

theorem othersKept_onCore {s : State} (n : Nat) (f : Env → Core → Core) (hg : s.gated = false) : othersKept s (s.onCore n f) n :=
  ⟨fun m hm => s.onCore_core_ne n f hg m hm, s.onCore_hbm n f hg, s.onCore_hubs n f hg, s.onCore_clk n f hg, s.onCore_host n f hg,
    s.onCore_cfg n f hg, s.onCore_pins n f hg, s.onCore_pending n f hg⟩

theorem gated_onCore {s : State} (n : Nat) (f : Env → Core → Core) (hg : s.gated = false) : (s.onCore n f).gated = false := by
  rw [State.gated, s.onCore_pins n f hg, s.onCore_clk n f hg]
  exact hg

theorem othersKept_trans {s t u : State} {n : Nat} (h : othersKept s t n) (h' : othersKept t u n) : othersKept s u n := by
  obtain ⟨hcore, hhbm, hhubs, hclk, hhost, hcfg, hpins, hpend⟩ := h
  obtain ⟨hcore', hhbm', hhubs', hclk', hhost', hcfg', hpins', hpend'⟩ := h'
  exact ⟨fun m hm => (hcore' m hm).trans (hcore m hm), hhbm'.trans hhbm, hhubs'.trans hhubs, hclk'.trans hclk, hhost'.trans hhost,
    hcfg'.trans hcfg, hpins'.trans hpins, hpend'.trans hpend⟩

theorem State.core_of_still {s t : State} (h : t.still = s.still) (m : Nat) : t.core m = s.core m :=
  congrArg (tget Core.reset · m) (congrArg Still.cores h :)

theorem othersKept_of_still {s t : State} (n : Nat) (h : t.still = s.still) : othersKept s t n :=
  ⟨fun m _ => State.core_of_still h m, congrArg Still.hbm h, congrArg Still.hubs h, congrArg Still.clk h, congrArg Still.host h,
    congrArg Still.cfg h, congrArg Still.pins h, congrArg Still.pending h⟩

/-- An event that does `g` to core `n` hands over what `g` makes of the core in the ccyc in which the event acts. -/
theorem hands_of_event (g : Env → Core → Core) {i : Instr} {s : State} {n delta : Nat} (hf : fit i s = true)
    (he : exec i s = accept i (s.onCore n fun env k => g env (k.comeTo env delta))) : hands i s n (g (s.env n) (reached s n delta)) :=
  hands_of_onCore (gated_of_fit hf) (exec_next (wf_of_fit hf) he)

/-- An action on core `n` of a state that differs in its queues alone, whatever then happens to jobs, queues and messages. -/
theorem core_of_onCore {s u : State} {n : Nat} {f : Env → Core → Core} {q : SMap Queue} (hg : s.gated = false)
    (hu : u.still = (State.onCore { s with queues := q } n f).still) :
    othersKept s u n ∧ u.core n = settled (f (s.env n) (found s n)) :=
  ⟨othersKept_trans (t := State.onCore { s with queues := q } n f) (othersKept_onCore n f hg) (othersKept_of_still n hu),
    (State.core_of_still hu n).trans (State.onCore_core { s with queues := q } n f hg)⟩

/-! ### A core that a fault stops -/

/-- The core that a stopping fault `f` leaves: it issues nothing more, and its hold has ended. -/
def Core.stoppedBy (c : Core) (f : RawFault) : Core :=
  Core.dropUnissued { c with
    flt := c.flt ++ [f]
    rn := { c.rn with stop := .own, stopAt := c.tm.now, hold := none, waits := [] } }

theorem Core.raiseIn_stops {c : Core} (h : c.rn.stop = .no) (ctx cls eng kvi s0 s1 : Nat) (st : Status) :
    c.raiseIn ctx cls true eng kvi s0 s1 st
      = c.stoppedBy ⟨cls, true, eng, kvi, c.rn.runCcyc, BitVec.ofNat 64 s0, BitVec.ofNat 64 s1, st, ctx⟩ :=
  if_pos h

theorem satAdd_one_toNat (c : W32) : (satAdd c 1).toNat = min (c.toNat + 1) 0xFFFFFFFF := by
  unfold satAdd
  split
  · simp; omega
  · rw [BitVec.toNat_add, BitVec.toNat_ofNat]
    omega

end Sys2Proof.Machine
end

section
/-!
SUPPORT. Holds and waits that end, or time out (O20; 02 R48, R49; 10 R291).
-/

namespace Sys2Proof.Machine

open Sys2Proof Sys2Proof.Safety Sys2Proof.Claims

/-! ### When the engines issue again -/

/-- The engines of the list issue no word before ccyc `t`. -/
def seenFrom (t : Nat) (seen : SMap Nat) (keys : List Nat) : SMap Nat :=
  keys.foldl (fun (m : SMap Nat) k => tput 0 m k (max (tget 0 m k) t)) seen

theorem le_tget_seenFrom (t : Nat) (seen : SMap Nat) {keys : List Nat} {k : Nat} (hk : k ∈ keys) :
    t ≤ tget 0 (seenFrom t seen keys) k := by
  refine foldl_establishes (P := fun m => t ≤ tget 0 m k) hk (fun m => ?_) (fun m j hm => ?_) seen
  · simp
  · rw [tget_tput]
    split
    · exact le_max_right _ _
    · exact hm

theorem code_mem_upFrom (e : Engine) : e.code ∈ upFrom 0 32 := by
  cases e
  all_goals decide

/-! ### A wait on a tally ends -/

section
variable {a : Bool} {i : Nat} {m : W32} {w : Wait} (hw : w.what = .tally a i m)
include hw

theorem Core.awaitOk_tally (c : Core) (env : Env) : c.awaitOk env w.eng w.what = decide (m.toNat ≤ (c.seenTally a i).toNat) := by
  rw [hw]
  rfl

/-- The end of a wait on a tally changes the waits, their records, and the ccyc from which engines issue. -/
theorem Core.finishWait_tally (c : Core) (all : Bool) :
    ((c.finishWait w all).regs = c.regs ∧ (c.finishWait w all).mem = c.mem ∧ (c.finishWait w all).tl.t = c.tl.t
      ∧ (c.finishWait w all).tm = c.tm ∧ (c.finishWait w all).tx = c.tx)
    ∧ (c.finishWait w all).flt = c.flt ∧ (c.finishWait w all).rn = (c.endWait w.eng).rn
    ∧ (c.finishWait w all).ck.seen = seenFrom (c.tm.now + 1) c.ck.seen (if all then upFrom 0 32 else [w.eng.code]) := by
  unfold Core.finishWait
  rw [hw]
  dsimp only
  split
  · exact ⟨⟨rfl, rfl, rfl, rfl, rfl⟩, rfl, rfl, rfl⟩
  · exact ⟨⟨rfl, rfl, rfl, rfl, rfl⟩, rfl, rfl, rfl⟩

/-- A single wait whose tally is seen in time ends. -/
theorem Core.endWaits_seen {c : Core} {env : Env} {all : Bool} (hseen : m.toNat ≤ (c.seenTally a i).toNat)
    (hlive : w.live c.tm.now = true) : c.endWaits env all [w] = c.finishWait w all :=
  if_pos (by rw [hlive, Core.awaitOk_tally hw, decide_eq_true hseen]; rfl)

end

/-- A hold that one engine alone has ends with that engine's wait. -/
theorem Core.endWait_hold {c : Core} {w : Wait} (hh : c.rn.hold = some w) (hws : c.rn.waits = []) :
    (c.endWait w.eng).rn.hold = none := by
  simp [Core.endWait, hh, hws]

theorem Core.endWait_wait {c : Core} {w : Wait} (hh : c.rn.hold = none) (hws : c.rn.waits = [w]) :
    (c.endWait w.eng).rn.waits = [] := by
  simp [Core.endWait, hh, hws]

/-! ### HOLD_END and WAIT_TIMEOUT -/

/-- HOLD_END in the ccyc to which the core has come. -/
def Core.holdEnd (c : Core) (env : Env) : Core :=
  match c.rn.hold with
  | some w => if w.start < c.tm.now then c.endWaits env true (w :: c.rn.waits) else c
  | none => c.endWaits env false c.rn.waits

/-- WAIT_TIMEOUT in the ccyc to which the core has come. -/
def Core.timeOut (c : Core) (env : Env) (e : Engine) : Core :=
  match c.waitOf e with
  | none => c
  | some w =>
    match w.tmo with
    | none => c
    | some t =>
      if c.tm.now - w.start < t || c.awaitOk env e w.what then c
      else c.waitTimeout e w.kvi (c.timeoutSpec w.what).1 (c.timeoutSpec w.what).2 t

theorem hands_holdEnd {s : State} {n delta : Nat} (hf : fit (.holdEnd n delta) s = true) :
    hands (.holdEnd n delta) s n ((reached s n delta).holdEnd (s.env n)) :=
  hands_of_event (fun env c => c.holdEnd env) hf rfl

theorem hands_waitTimeout {s : State} {n delta : Nat} {e : Engine} (hf : fit (.waitTimeout n delta e) s = true) :
    hands (.waitTimeout n delta e) s n ((reached s n delta).timeOut (s.env n) e) :=
  hands_of_event (fun env c => c.timeOut env e) hf rfl

section
variable {c : Core} {env : Env} {i : Nat} {a : Bool} {m : W32} {w : Wait} (hw : w.what = .tally a i m)
include hw

theorem Core.holdEnd_hold (hseen : m.toNat ≤ (c.seenTally a i).toNat) (hlive : w.live c.tm.now = true) (hh : c.rn.hold = some w)
    (hws : c.rn.waits = []) (hst : w.start < c.tm.now) : c.holdEnd env = c.finishWait w true := by
  simp only [Core.holdEnd, hh, if_pos hst, hws, Core.endWaits_seen hw hseen hlive]

theorem Core.holdEnd_wait (hseen : m.toNat ≤ (c.seenTally a i).toNat) (hlive : w.live c.tm.now = true) (hh : c.rn.hold = none)
    (hws : c.rn.waits = [w]) : c.holdEnd env = c.finishWait w false := by
  simp only [Core.holdEnd, hh, hws, Core.endWaits_seen hw hseen hlive]

theorem Core.timeOut_late {t : Nat} (hseen : (c.seenTally a i).toNat < m.toNat) (hh : c.rn.hold = some w) (ht : w.tmo = some t)
    (hlate : t ≤ c.tm.now - w.start) :
    c.timeOut env w.eng = c.waitTimeout w.eng w.kvi (c.timeoutSpec w.what).1 (c.timeoutSpec w.what).2 t := by
  have hwait : c.waitOf w.eng = some w := by simp [Core.waitOf, hh]
  simp only [Core.timeOut, hwait, ht, Core.awaitOk_tally hw]
  exact if_neg (by simpa using ⟨hlate, hseen⟩)

end

/-- WAIT_TIMEOUT of a core that runs stops it, and counts. -/
theorem Core.waitTimeout_stops {c : Core} (h : c.rn.stop = .no) (e : Engine) (kvi s0 n tmo : Nat) :
    c.waitTimeout e kvi s0 n tmo = Core.stoppedBy { c with tl := { c.tl with tmoCnt := satAdd c.tl.tmoCnt 1 } }
      ⟨0x03, true, e.code, kvi, c.rn.runCcyc, BitVec.ofNat 64 s0, BitVec.ofNat 64 (n + fld tmo 32 32), .efault, c.rn.ctx⟩ :=
  Core.raiseIn_stops (c := { c with tl := { c.tl with tmoCnt := satAdd c.tl.tmoCnt 1 } }) h ..

/-- Settles O20: HOLD_END ends the one wait whose tally is seen; WAIT_TIMEOUT raises its fault, which stops the core. -/
theorem holdsEndOrTimeOut : Obligations.HoldsEndOrTimeOut := by
  intro s n delta i a m w k kept hw
  refine ⟨fun hf hseen hlive => ⟨fun hh hws hst => ?_, fun hh hws => ?_⟩, fun t hf hseen hh ht hlate hrun => ?_⟩
  · have h := hands_holdEnd hf
    rw [Core.holdEnd_hold hw hseen hlive hh hws hst] at h
    obtain ⟨hkept, hflt, hrn, hck⟩ := k.finishWait_tally hw true
    refine ⟨_, h, hkept, ?_, hflt, fun e => ?_⟩
    · rw [hrn, Core.endWait_hold hh hws]
    · rw [hck]
      exact le_tget_seenFrom _ _ (code_mem_upFrom e)
  · have h := hands_holdEnd hf
    rw [Core.holdEnd_wait hw hseen hlive hh hws] at h
    obtain ⟨hkept, hflt, hrn, hck⟩ := k.finishWait_tally hw false
    refine ⟨_, h, hkept, ?_, hflt, ?_⟩
    · rw [hrn, Core.endWait_wait hh hws]
    · rw [hck]
      exact le_tget_seenFrom _ _ (List.mem_singleton_self _)
  · have h := hands_waitTimeout hf
    rw [Core.timeOut_late hw hseen hh ht hlate, Core.waitTimeout_stops hrun] at h
    exact ⟨_, _, h, ⟨rfl, rfl, rfl, rfl, rfl⟩, rfl, rfl, satAdd_one_toNat _, rfl, rfl, rfl, rfl, rfl⟩

end Sys2Proof.Machine
end

section
/-!
SUPPORT. Blocks that end and follow one another, and the end of a handler (O21; 02 R36; 06 R173, R177; 11 R329).
-/

namespace Sys2Proof.Machine

open Sys2Proof Sys2Proof.Safety Sys2Proof.Claims

/-! ### What jobs, queues and messages leave of the cores and units -/

theorem State.noteCore_still (s : State) (k : Nat) : (s.noteCore k).still = s.still := by
  unfold State.noteCore
  dsimp only
  split
  all_goals rfl

theorem State.returnCredit_still (s : State) (c : Conn) (n : Nat) : (s.returnCredit c n).still = s.still := by
  unfold State.returnCredit
  split
  · rfl
  · split
    · rfl
    · exact State.answer_still ..

theorem State.release_still (s : State) (qid no : Nat) : (s.release qid no).still = s.still := by
  unfold State.release
  dsimp only
  split
  · rfl
  · split
    · split
      · exact State.returnCredit_still ..
      · rfl
    · rfl

theorem State.assignAt_queues (s : State) (k : Nat) : ∃ q, s.assignAt k = { s with queues := q } := by
  unfold State.assignAt
  split
  · exact ⟨_, rfl⟩
  · split
    · exact ⟨_, rfl⟩
    · dsimp only
      split
      · exact ⟨_, rfl⟩
      · exact ⟨_, rfl⟩

/-! ### A run ends, a block begins -/

/-- The core `k` has ended its run, and stands as `c`. -/
def runEnded (c k : Core) : Prop := dataKept c k ∧ c.rn.mode = 0 ∧ (c.ctx k.rn.ctx).done = true ∧ c.rn.succ = none

/-- The core `k` stands as `c`, which runs block `b`, of the entry `nx`, from ccyc `t` on. -/
def blockBegun (c k : Core) (b t : Nat) (nx : Block) : Prop :=
  dataKept c k ∧ c.rn.block = b ∧ c.rn.begin0 = t ∧ c.rn.mode = (if nx.mode % 2 = 0 then 1 else 2) ∧ c.rn.succ = none
    ∧ c.rn.ctx = k.rn.ctx

theorem Core.ctx_setRctx (c : Core) (n : Nat) (x : RunCtx) : (c.setRctx n x).ctx n = x := by
  unfold Core.setRctx Core.ctx
  split
  all_goals rfl

theorem Core.endRun_ended (c : Core) : runEnded (settled c.endRun) c :=
  ⟨⟨rfl, rfl, rfl, rfl⟩, rfl, congrArg RunCtx.done (c.ctx_setRctx c.rn.ctx { c.ctx c.rn.ctx with done := true }), rfl⟩

theorem Core.enterBlock_begun (c : Core) {env : Env} {b : Nat} {nx : Block} (hb : env.img.blocks[b]? = some nx) (t : Nat) :
    blockBegun (settled (c.enterBlock env b t)) c b t nx := by
  unfold Core.enterBlock
  rw [hb]
  exact ⟨⟨rfl, rfl, rfl, rfl⟩, rfl, rfl, by simp [settled], rfl, rfl⟩

theorem isService_eq {env : Env} {b : Nat} {nx : Block} (hb : env.img.blocks[b]? = some nx) :
    isService env b = decide (nx.mode % 2 = 1) := by
  unfold isService
  rw [hb]

theorem Core.blockLen_eq {c : Core} {env : Env} {blk : Block} (hk : env.img.blocks[c.rn.block]? = some blk) :
    c.blockLen env = blk.length := by
  unfold Core.blockLen
  rw [hk]

/-- The block that follows: NEXT of the running one, or the choice of its branch. -/
theorem Core.nextOf_eq {c : Core} {env : Env} {blk : Block} (hk : env.img.blocks[c.rn.block]? = some blk) :
    c.nextOf env = if blk.next = 0xFFFD then c.rn.succ else some blk.next := by
  unfold Core.nextOf
  rw [hk]
  rfl

/-! ### The end of a scheduled block -/

/-- A scheduled block that has reached its length hands over, at END, at a stop point, or without a gap (R36). -/
theorem Core.boundary_due {c : Core} {env : Env} {blk : Block} {b : Nat} (hk : env.img.blocks[c.rn.block]? = some blk)
    (hn : c.nextOf env = some b) (hrun : c.rn.stop = .no) (hm : c.rn.mode = 1) (hh : c.held = false)
    (ht : c.rn.begin0 + blk.length ≤ c.tm.p) :
    c.boundary env = if b = nEnd then c.endRun
      else if isService env b && env.opWait then c.stopPoint b 0
      else c.enterBlock env b (c.rn.begin0 + blk.length) := by
  unfold Core.boundary
  rw [Core.blockLen_eq hk, hn]
  exact if_neg (by simp [hm, hrun, hh, ht])

/-! ### The end of a service block -/

/-- The core whose handler has ended. -/
def Core.returned (c : Core) : Core := { c with ms := { c.ms with handler := none, curHdr := 0 }, rn := { c.rn with mode := 0 } }

section
variable {c : Core} {env : Env} {b : Nat} (ho : c.blockOver = true) (hn : c.nextOf env = some b) (more : Bool) (no : Nat)
include ho hn

theorem Core.serviceEnd_run (hh : c.ms.handler = none) :
    c.serviceEnd env more no = if b = nEnd then c.endRun
      else if more || env.opWait then c.waitBlock b no else (c.waitBlock b no).resume env := by
  simp [Core.serviceEnd, ho, hn, hh]

/-- RETURN ends the handler (R329); no run waits to start. -/
theorem Core.serviceEnd_return {h : Handler} (hh : c.ms.handler = some h) (hb : b = nReturn) (hs : c.rn.startCtx = none) :
    c.serviceEnd env more no = c.returned := by
  simp [Core.serviceEnd, Core.returned, ho, hn, hh, hb, hs]

end

/-- Nothing else waits on the core: the block that the ended one names begins. -/
theorem Core.resume_waitBlock {c : Core} (env : Env) (b no : Nat) (hx : c.rn.hnext = none) (hs : c.rn.startCtx = none) :
    (c.waitBlock b no).resume env
      = Core.follow { c with rn := { c.rn with mode := 0, succ := none, upTo := no, after := none } } env b := by
  unfold Core.resume Core.waitBlock
  dsimp only
  rw [hx, hs]

theorem Core.follow_begun (c : Core) {env : Env} {b : Nat} {nx : Block} (hb : env.img.blocks[b]? = some nx) :
    blockBegun (settled (c.follow env b)) c b (c.tm.p + if nx.mode % 2 = 1 then 1 else 16) nx := by
  unfold Core.follow
  simp only [isService_eq hb, decide_eq_true_eq]
  exact c.enterBlock_begun hb _

/-! ### BLOCK_BOUNDARY and SERVICE_BLOCK_END -/

/-- BLOCK_BOUNDARY changes core `n` alone, beside the run's record of its cores. -/
theorem blockBoundary_core {s : State} {n delta : Nat} (hf : fit (.blockBoundary n delta) s = true) :
    ∃ u, exec (.blockBoundary n delta) s = .next u ∧ othersKept s u n
      ∧ u.core n = settled ((reached s n delta).boundary (s.env n)) :=
  ⟨_, exec_next (wf_of_fit hf) (exec_blockBoundary ..),
    core_of_onCore (f := fun env k => (k.comeTo env delta).boundary env) (gated_of_fit hf) (State.noteCore_still ..)⟩

/-- What SERVICE_BLOCK_END makes of the part before the record of a handler that has ended is released: `q` are the queues in which
the core has been given its next record, `more` whether it has one to dispatch. -/
def State.serviceEnded (s : State) (n delta : Nat) (q : SMap Queue) (more : Bool) : State :=
  (State.onCore { s with queues := q } n fun env k => (k.comeTo env delta).serviceEnd env more s.recNo).noteCore n

theorem serviceEnded_core {s : State} (n delta : Nat) (q : SMap Queue) (more : Bool) (hg : s.gated = false) :
    othersKept s (s.serviceEnded n delta q more) n
      ∧ (s.serviceEnded n delta q more).core n = settled ((reached s n delta).serviceEnd (s.env n) more s.recNo) :=
  core_of_onCore (f := fun env k => (k.comeTo env delta).serviceEnd env more s.recNo) hg (State.noteCore_still ..)

section
variable {s : State} {n delta : Nat} (hf : fit (.serviceBlockEnd n delta) s = true)
include hf

theorem exec_serviceBlockEnd_eq {q : SMap Queue}
    (hq : (if s.runServiceEnds n delta then s.assignAt n else s) = { s with queues := q }) :
    exec (.serviceBlockEnd n delta) s = .next (
      let t := s.serviceEnded n delta q (State.nextRecord { s with queues := q } n s.recNo).isSome
      match (s.core n).ms.handler with
      | some h => if (t.core n).ms.handler.isSome then t else (t.release h.qid h.recNo).resumeCore n
      | none => t) := by
  refine exec_next (wf_of_fit hf) ?_
  simp only [exec_serviceBlockEnd, execServiceBlockEnd]
  rw [if_neg (by simp [gated_of_fit hf])]
  simp only [hq]
  rfl

/-- Without a handler, the end of a service block changes core `n` alone, beside the queues and the run's record of its cores. -/
theorem serviceBlockEnd_run {q : SMap Queue} (hq : (if s.runServiceEnds n delta then s.assignAt n else s) = { s with queues := q })
    (hh : (s.core n).ms.handler = none) :
    ∃ u, exec (.serviceBlockEnd n delta) s = .next u ∧ othersKept s u n
      ∧ u.core n = settled ((reached s n delta).serviceEnd (s.env n) (State.nextRecord { s with queues := q } n s.recNo).isSome
        s.recNo) := by
  have he := exec_serviceBlockEnd_eq hf hq
  rw [hh] at he
  exact ⟨_, he, serviceEnded_core _ _ _ _ (gated_of_fit hf)⟩

end

/-- Nothing of a core waits to go on. -/
theorem State.resumeCore_idle {s : State} {k : Nat} (hh : (s.core k).ms.handler = none) (ha : (s.core k).rn.after = none)
    (hs : (s.core k).rn.startCtx = none) : s.resumeCore k = s := by
  simp [State.resumeCore, hh, ha, hs]

theorem runServiceEnds_eq {s : State} {n delta b : Nat} (hn : (reached s n delta).nextOf (s.env n) = some b) :
    s.runServiceEnds n delta
      = ((reached s n delta).blockOver && (reached s n delta).ms.handler.isNone && decide (b ≠ nEnd)) := by
  change ((reached s n delta).blockOver && (reached s n delta).ms.handler.isNone
    && match (reached s n delta).nextOf (s.env n) with | some n => _ | none => _) = _
  rw [hn]

theorem Core.blockOver_of {c : Core} (hrun : c.rn.stop = .no)
    (h : c.rn.mode = 2 ∧ c.rn.waits = [] ∧ c.pend = [] ∧ c.pev = [] ∧ c.rn.begin0 ≤ c.tm.p) : c.blockOver = true := by
  obtain ⟨hm, hw, hp, he, hb⟩ := h
  simp [Core.blockOver, hm, hrun, hw, hp, he, hb]

section
variable {s : State} {n delta b : Nat} {nx : Block} (hn : (reached s n delta).nextOf (s.env n) = some b)
include hn

section
variable {blk : Block} (hk : (s.env n).img.blocks[(reached s n delta).rn.block]? = some blk)
  (hrun : (reached s n delta).rn.stop = .no) (hf : fit (.blockBoundary n delta) s = true) (hm : (reached s n delta).rn.mode = 1)
  (hh : (reached s n delta).held = false) (ht : (reached s n delta).rn.begin0 + blk.length ≤ (reached s n delta).tm.p)
include hk hrun hf hm hh ht

theorem blockBoundary_ends (hb : b = nEnd) :
    ∃ u, exec (.blockBoundary n delta) s = .next u ∧ othersKept s u n ∧ runEnded (u.core n) (reached s n delta) := by
  obtain ⟨u, he, ho, hc⟩ := blockBoundary_core hf
  rw [Core.boundary_due hk hn hrun hm hh ht, if_pos hb] at hc
  exact ⟨u, he, ho, hc ▸ Core.endRun_ended _⟩

theorem blockBoundary_goes (hb : b ≠ nEnd) (hx : (s.env n).img.blocks[b]? = some nx)
    (hw : nx.mode % 2 = 1 → (s.env n).opWait = false) :
    ∃ u, exec (.blockBoundary n delta) s = .next u ∧ othersKept s u n
      ∧ blockBegun (u.core n) (reached s n delta) b ((reached s n delta).rn.begin0 + blk.length) nx := by
  obtain ⟨u, he, ho, hc⟩ := blockBoundary_core hf
  rw [Core.boundary_due hk hn hrun hm hh ht, if_neg hb, if_neg (by simpa [isService_eq hx] using hw)] at hc
  exact ⟨u, he, ho, hc ▸ Core.enterBlock_begun _ hx _⟩

end

section
variable (hf : fit (.serviceBlockEnd n delta) s = true) (ho : (reached s n delta).blockOver = true)
include hf ho

theorem serviceBlockEnd_ends (hs : (s.core n).ms.handler = none) (hh : (reached s n delta).ms.handler = none) (hb : b = nEnd) :
    ∃ u, exec (.serviceBlockEnd n delta) s = .next u ∧ othersKept s u n ∧ runEnded (u.core n) (reached s n delta) := by
  have hq : (if s.runServiceEnds n delta then s.assignAt n else s) = { s with queues := s.queues } :=
    if_neg (by simp [runServiceEnds_eq hn, hb])
  obtain ⟨u, he, hk, hc⟩ := serviceBlockEnd_run hf hq hs
  rw [Core.serviceEnd_run ho hn _ _ hh, if_pos hb] at hc
  exact ⟨u, he, hk, hc ▸ Core.endRun_ended _⟩

theorem serviceBlockEnd_goes (hs : (s.core n).ms.handler = none) (hh : (reached s n delta).ms.handler = none) (hb : b ≠ nEnd)
    (hx : (s.env n).img.blocks[b]? = some nx) (hw : (s.env n).opWait = false) (hnext : (reached s n delta).rn.hnext = none)
    (hstart : (reached s n delta).rn.startCtx = none) (hrec : (s.assignAt n).nextRecord n s.recNo = none) :
    ∃ u, exec (.serviceBlockEnd n delta) s = .next u ∧ othersKept s u n
      ∧ blockBegun (u.core n) (reached s n delta) b ((reached s n delta).tm.p + if nx.mode % 2 = 1 then 1 else 16) nx := by
  obtain ⟨q, hq⟩ := s.assignAt_queues n
  have hq' : (if s.runServiceEnds n delta then s.assignAt n else s) = { s with queues := q } := by
    rw [if_pos (by simp [runServiceEnds_eq hn, ho, hh, hb]), hq]
  obtain ⟨u, he, hk, hc⟩ := serviceBlockEnd_run hf hq' hs
  rw [← hq, hrec, Core.serviceEnd_run ho hn _ _ hh, if_neg hb, if_neg (by simp [hw]), Core.resume_waitBlock _ _ _ hnext hstart] at hc
  exact ⟨u, he, hk, hc ▸ Core.follow_begun _ hx⟩

theorem serviceBlockEnd_returns {h : Handler} (hs : (s.core n).ms.handler = some h) (hh : (reached s n delta).ms.handler = some h)
    (hstart : (reached s n delta).rn.startCtx = none) (hb : b = nReturn) (ha : (reached s n delta).rn.after = none) :
    ∃ u, exec (.serviceBlockEnd n delta) s = .next u ∧ dataKept (u.core n) (reached s n delta) ∧ (u.core n).ms.handler = none
      ∧ (u.core n).rn.mode = 0 ∧ ∀ m, m ≠ n → u.core m = s.core m := by
  have hq : (if s.runServiceEnds n delta then s.assignAt n else s) = { s with queues := s.queues } :=
    if_neg (by simp [runServiceEnds_eq hn, hh])
  have he := exec_serviceBlockEnd_eq hf hq
  obtain ⟨hk, hc⟩ := serviceEnded_core (s := s) n delta s.queues (s.nextRecord n s.recNo).isSome (gated_of_fit hf)
  rw [Core.serviceEnd_return ho hn _ _ hh hb hstart] at hc
  generalize s.serviceEnded n delta s.queues (s.nextRecord n s.recNo).isSome = t at he hk hc
  have hr : ∀ m, (t.release h.qid h.recNo).core m = t.core m := State.core_of_still (t.release_still h.qid h.recNo)
  have hidle : (t.release h.qid h.recNo).resumeCore n = t.release h.qid h.recNo := by
    refine State.resumeCore_idle ?_ ?_ ?_
    all_goals rw [hr, hc]
    · rfl
    · exact ha
    · exact hstart
  rw [hs] at he
  dsimp only at he
  rw [if_neg (by rw [hc]; exact Bool.false_ne_true), hidle] at he
  obtain ⟨hothers, -⟩ := hk
  refine ⟨_, he, ?_, ?_, ?_, fun m hm => (hr m).trans (hothers m hm)⟩
  all_goals rw [hr, hc]
  · exact ⟨rfl, rfl, rfl, rfl⟩
  · rfl
  · rfl

end

end

theorem blocksFollowOneAnother : BlocksFollowOneAnother := by
  intro s n delta b blk nx k env next retired hk hb hrun ends goes
  have hn : k.nextOf env = some b := (Core.nextOf_eq hk).trans hb
  refine ⟨fun hf hm hh ht => ?_, fun hf hr hs hh => ?_, fun h hf hr hs hh hstart hb ha => ?_⟩
  · exact ⟨blockBoundary_ends hn hk hrun hf hm hh ht, blockBoundary_goes hn hk hrun hf hm hh ht⟩
  · have ho := Core.blockOver_of hrun hr
    exact ⟨serviceBlockEnd_ends hn hf ho hs hh, serviceBlockEnd_goes hn hf ho hs hh⟩
  · exact serviceBlockEnd_returns hn hf (Core.blockOver_of hrun hr) hs hh hstart hb ha

end Sys2Proof.Machine
end

section
/-!
SUPPORT. The dispatch of a handler, and its budget (O21; 11 R328 to R331).
-/

namespace Sys2Proof.Machine

open Sys2Proof Sys2Proof.Safety Sys2Proof.Claims

/-! ### The registers of a record -/

/-- The words of a record go to S56 on. -/
theorem recordRegs_below (s : SMap SVal) (hdr : W64) (words : List W64) (p : Bool) {j : Nat} (hj : j < 56) :
    tget ⟨0, false⟩ (recordRegs s hdr words p) j = tget ⟨0, false⟩ (tput ⟨0, false⟩ s 55 ⟨hdr, false⟩) j := by
  refine foldl_keeps (fun m : SMap SVal => tget ⟨0, false⟩ m j) _ (fun m i => ?_) _ _
  exact tget_tput_ne _ _ _ (by omega)

theorem recordRegs_header (s : SMap SVal) (hdr : W64) (words : List W64) (p : Bool) :
    tget ⟨0, false⟩ (recordRegs s hdr words p) 55 = ⟨hdr, false⟩ :=
  (recordRegs_below s hdr words p (by decide)).trans (tget_tput_self _ _ _ _)

theorem recordRegs_low (s : SMap SVal) (hdr : W64) (words : List W64) (p : Bool) {j : Nat} (hj : j < 55) :
    tget ⟨0, false⟩ (recordRegs s hdr words p) j = tget ⟨0, false⟩ s j :=
  (recordRegs_below s hdr words p (by omega)).trans (tget_tput_ne _ _ _ (by omega))

theorem recordRegs_word (s : SMap SVal) (hdr : W64) (words : List W64) (p : Bool) {j : Nat} (hj : j < 8) :
    tget ⟨0, false⟩ (recordRegs s hdr words p) (56 + j) = ⟨words.getD j 0, p && decide (j < words.length)⟩ := by
  refine foldl_establishes (P := fun m => tget ⟨0, false⟩ m (56 + j) = (⟨words.getD j 0, p && decide (j < words.length)⟩ : SVal))
    (mem_upFrom.2 ⟨Nat.zero_le j, by omega⟩) (fun m => tget_tput_self _ _ _ _) (fun m i hm => ?_) _
  rw [tget_tput]
  split
  next h => rw [Nat.add_left_cancel h]
  next => exact hm

/-! ### HANDLER_DISPATCH -/

/-- The record `r` of queue `qid` as core `n` reads it, when the front of the ring has passed what is released there. -/
def State.recordAt (s : State) (n qid : Nat) (r : PRec) : RingRec :=
  (s.popFront qid).ringRec n ((s.popFront qid).queue qid).hbm r

/-- The index of the handler of that record: that of the queue, or the one that the record's first word names. -/
def State.handlerAt (s : State) (n qid : Nat) (r : PRec) : Nat :=
  let q := (s.popFront qid).queue qid
  if q.hmode then bits ((s.recordAt n qid r).words.getD 0 0).toNat 0 6 else q.hidx

theorem State.handlerAt_eq (s : State) (n qid : Nat) (r : PRec) :
    s.handlerAt n qid r = if ((s.popFront qid).queue qid).hmode then ((s.recordAt n qid r).words.getD 0 0).toNat % 64
      else ((s.popFront qid).queue qid).hidx := by
  simp [State.handlerAt, bits]

/-- The state in which core `n` has come to the dispatch point. -/
def State.arrive (s : State) (n delta : Nat) : State := s.onCore n fun env k => k.comeTo env delta

/-- The part after the dispatch of the record `r` of queue `qid` to the entry `e`. -/
def State.dispatched (s : State) (n qid : Nat) (r : PRec) (e : HandlerEntry) : State :=
  (s.popFront qid).onCore n fun env k => k.dispatch env (s.handlerAt n qid r) e qid r (s.recordAt n qid r)

section
variable {s : State} {n delta qid : Nat} {r : PRec} {e : HandlerEntry} (hf : fit (.handlerDispatch n delta) s = true)
  (hat : ((s.arrive n delta).core n).atDispatch = true) (hs : ((s.arrive n delta).core n).rn.startCtx = none)
  (hrec : (s.arrive n delta).nextRecord n ((s.arrive n delta).dispatchLimit n) = some (qid, r)) (hready : r.ready = true)
  (hx : ((s.arrive n delta).env n).img.handlers[(s.arrive n delta).handlerAt n qid r]? = some e)
  (hv : e.valid = true) (hmay : (s.arrive n delta).mayHandle ((s.arrive n delta).core n).rn.job e.budget = true)
include hf hat hs hrec hready hx hv hmay

theorem exec_handlerDispatch_begins :
    exec (.handlerDispatch n delta) s = .next ((s.arrive n delta).dispatched n qid r e) := by
  refine exec_next (wf_of_fit hf) (congrArg (accept _) ((if_neg (by simp [gated_of_fit hf])).trans ((if_neg ?_).trans ?_)))
  · change ¬ (!((s.arrive n delta).core n).atDispatch || ((s.arrive n delta).core n).rn.startCtx.isSome) = true
    simp [hat, hs]
  · change (match (s.arrive n delta).nextRecord n ((s.arrive n delta).dispatchLimit n) with
      | none => _
      | some (qid, r) => _) = _
    rw [hrec]
    refine (if_neg (by simp [hready])).trans ?_
    change (match (((s.arrive n delta).env n).img.handlers[(s.arrive n delta).handlerAt n qid r]?).filter (·.valid) with
      | none => _
      | some e => _) = _
    rw [hx, Option.filter_some, if_pos hv]
    exact if_pos hmay

end

/-- The core `k` stands as `c`, which runs handler `h`, of the entry `e`, on the record `r` of queue `qid`, read from the ring as `x`. -/
def handlerBegun (c k : Core) (h : Nat) (e : HandlerEntry) (qid : Nat) (r : PRec) (x : RingRec) : Prop :=
  sVal c 55 = ⟨x.hdr, false⟩
    ∧ (∀ j, j < 8 → tget ⟨0, false⟩ c.regs.s (56 + j) = ⟨x.words.getD j 0, x.p && decide (j < x.words.length)⟩)
    ∧ (∀ j, j < 55 → tget ⟨0, false⟩ c.regs.s j = tget ⟨0, false⟩ k.regs.s j)
    ∧ aVal c 31 = ⟨BitVec.ofNat 48 r.at0, false⟩
    ∧ (∀ j, j ≠ 31 → tget ⟨0, false⟩ c.regs.a j = tget ⟨0, false⟩ k.regs.a j)
    ∧ c.regs.p = k.regs.p ∧ c.regs.v = k.regs.v ∧ c.regs.oc = k.regs.oc ∧ c.mem = k.mem ∧ c.tl = k.tl
    ∧ c.rn.mode = 2 ∧ c.rn.block = e.block ∧ c.rn.begin0 = k.tm.p + 1
    ∧ c.ms.handler = some ⟨h, qid, r.no, k.tm.now, e.budget⟩ ∧ c.ms.curHdr = x.hdr ∧ c.ms.disp = k.ms.disp + 1

theorem Core.dispatch_begun (c : Core) (env : Env) (h : Nat) (e : HandlerEntry) (qid : Nat) (r : PRec) (x : RingRec) :
    handlerBegun (settled (c.dispatch env h e qid r x)) c h e qid r x :=
  ⟨recordRegs_header .., fun _ hj => recordRegs_word _ _ _ _ hj, fun _ hj => recordRegs_low _ _ _ _ hj, tget_tput_self _ _ _ _,
    fun _ hj => tget_tput_ne _ _ _ hj, rfl, rfl, rfl, rfl, rfl, rfl, rfl, rfl, rfl, rfl, rfl⟩

/-- The dispatch changes core `n` alone, beside the queue whose ring it reads. -/
theorem dispatched_core {s : State} (n qid : Nat) (r : PRec) (e : HandlerEntry) (hg : s.gated = false) :
    othersKept s (s.dispatched n qid r e) n ∧ (s.dispatched n qid r e).core n
      = settled ((found s n).dispatch (s.env n) (s.handlerAt n qid r) e qid r (s.recordAt n qid r)) :=
  core_of_onCore hg rfl

/-! ### HANDLER_BUDGET_EXPIRY -/

/-- HANDLER_BUDGET_EXPIRY in the ccyc to which the core has come. -/
def Core.budgetExpiry (c : Core) (env : Env) : Core :=
  match c.ms.handler with
  | none => c
  | some h =>
    if h.budget = 0 || c.tm.now - h.at0 ≤ h.budget || c.rn.stop ≠ .no then c
    else c.queueFault c.rn.ctx (kviEntry c.rn.image 6 h.hidx) .etimeout 4 0 h.hidx 0 (env.dev * 2 ^ 20 + h.qid)

theorem hands_handlerBudgetExpiry {s : State} {n delta : Nat} (hf : fit (.handlerBudgetExpiry n delta) s = true) :
    hands (.handlerBudgetExpiry n delta) s n ((reached s n delta).budgetExpiry (s.env n)) :=
  hands_of_event (fun env c => c.budgetExpiry env) hf rfl

/-- QUEUE of a core that runs stops it, and counts. -/
theorem Core.queueFault_stops {c : Core} (h : c.rn.stop = .no) (rctx kvi : Nat) (st : Status) (op ctx member seq handle : Nat) :
    c.queueFault rctx kvi st op ctx member seq handle
      = Core.stoppedBy { c with ms := { c.ms with qfCnt := satAdd c.ms.qfCnt 1 } }
        ⟨0x0A, true, 5, kvi, c.rn.runCcyc, BitVec.ofNat 64 (queueSpec0 st.code op ctx member seq), BitVec.ofNat 64 handle, st, rctx⟩ :=
  Core.raiseIn_stops (c := { c with ms := { c.ms with qfCnt := satAdd c.ms.qfCnt 1 } }) h ..

theorem Core.budgetExpiry_late {c : Core} (env : Env) {h : Handler} (hh : c.ms.handler = some h) (h0 : h.budget ≠ 0)
    (hlate : h.budget < c.tm.now - h.at0) (hrun : c.rn.stop = .no) :
    c.budgetExpiry env
      = c.queueFault c.rn.ctx (kviEntry c.rn.image 6 h.hidx) .etimeout 4 0 h.hidx 0 (env.dev * 2 ^ 20 + h.qid) := by
  unfold Core.budgetExpiry
  rw [hh]
  exact if_neg (by simp [h0, hrun]; omega)

theorem handlersRunOnTheirRecords : HandlersRunOnTheirRecords := by
  intro s n delta qid r e h
  refine ⟨?_, ?_⟩
  · intro s1 k s2 y hx hf hm hh hrun hs hrec hready he hv hmay
    have hhx : s1.handlerAt n qid r = hx := s1.handlerAt_eq n qid r
    have hat : k.atDispatch = true := by simp [Core.atDispatch, hm, hh, hrun]
    obtain ⟨hk, hc⟩ := dispatched_core n qid r e (gated_onCore n (fun env k => k.comeTo env delta) (gated_of_fit hf))
    have hbegun := (found s1 n).dispatch_begun (s1.env n) hx e qid r y
    rw [← hhx] at hbegun he
    rw [← hhx]
    exact ⟨_, exec_handlerDispatch_begins hf hat hs hrec hready he hv hmay,
      othersKept_trans (othersKept_onCore n _ (gated_of_fit hf)) hk, hc ▸ hbegun⟩
  · intro k hf hh h0 hlate hrun
    have hc := hands_handlerBudgetExpiry hf
    rw [Core.budgetExpiry_late _ hh h0 hlate hrun, Core.queueFault_stops hrun] at hc
    exact ⟨_, _, hc, ⟨rfl, rfl, rfl, rfl⟩, rfl, rfl, rfl, rfl, rfl⟩

/-- Settles O21: each kind of end of a block, a run or a handler, then the dispatch of a handler and its budget. -/
theorem blocksAndHandlersRun : Obligations.BlocksAndHandlersRun := ⟨blocksFollowOneAnother, handlersRunOnTheirRecords⟩

end Sys2Proof.Machine
end

section
/-!
SUPPORT. Words that issue, and the clears of beam tiles (O9; 03 R74, R83).
-/

namespace Sys2Proof.Machine

open Sys2Proof Sys2Proof.Safety

/-! ### A word that issues -/

/-- Where a word issues and its guard holds, its operation acts on the core of `issuing`. -/
theorem Core.issue_acts {i : Instr} {s : State} {x : Issue} {e : Engine} {lead : Bool} (ha : acts i s x e lead = true)
    (body : Core → Core) : (found s x.core).issue (s.env x.core) x e lead body = body (issuing s x e lead) := by
  obtain ⟨hfit, hguard⟩ := Bool.and_eq_true_iff.1 ha
  obtain ⟨-, hcan⟩ := Bool.and_eq_true_iff.1 hfit
  have hpair : guarded s x e lead = (issuing s x e lead, true) := Prod.ext rfl hguard
  refine (if_pos hcan).trans ?_
  change (match guarded s x e lead with | (c, true) => body c | (c, false) => c) = _
  rw [hpair]

/-- A word that acts leaves its core as its operation makes it, and hands over what the operation raises and sends. -/
theorem hands_of_issueOn {i : Instr} {s : State} {x : Issue} {e : Engine} {lead : Bool} {body : Env → Core → Core}
    (he : exec i s = accept i (s.issueOn x e lead body)) (ha : acts i s x e lead = true) :
    hands i s x.core (body (s.env x.core) (issuing s x e lead)) := by
  have hf : fit i s = true := (Bool.and_eq_true_iff.1 (Bool.and_eq_true_iff.1 ha).1).1
  have hcore : s.issueOn x e lead body = s.onCore x.core fun _ _ => body (s.env x.core) (issuing s x e lead) :=
    (s.onCore_const x.core _).trans (congrArg (fun c => s.onCore x.core fun _ _ => c) (Core.issue_acts ha _))
  exact hands_of_onCore (gated_of_fit hf) ((exec_next (wf_of_fit hf) he).trans (congrArg _ hcore))

/-- A beam operation that acts in a scheduled block (03 R74). -/
theorem leaves_of_beamOn {i : Instr} {s : State} {x : Issue} {f : Nat → Core → Core} (he : exec i s = accept i (s.beamOn x f))
    (ha : acts i s x .mxe false = true) (hm : (issuing s x .mxe false).rn.mode = 1) :
    leaves i s x.core (f ((issuing s x .mxe false).kvi .mxe x.word) (issuing s x .mxe false)) := by
  have h := (hands_of_issueOn he ha).1
  rwa [if_pos hm] at h

/-! ### A tile is cleared -/

theorem tget_tdrop {β : Type} (d : β) (p : Nat → Bool) (m : SMap β) (k : Nat) :
    tget d (tdrop p m) k = if p k = true then d else tget d m k := by
  induction m with
  | nil => simp [tdrop]
  | cons y t ih =>
    by_cases hk : k = y.1
    · subst hk
      by_cases hy : p y.1 = true
      · simpa [tdrop, hy] using ih
      · simp [tdrop, hy, tget]
    · by_cases hy : p y.1 = true
      · simp [tdrop, hy, ih, tget, hk]
      · simp [tdrop, hy, ih, tget, hk]

/-- A clear that is alone in its ccyc, at the end of it. -/
theorem Core.beamEnd_clear {c : Core} {tile : Nat} {m : TileMode} (h : c.pev = [(c.tm.p, .clear tile m)]) :
    c.beamEnd = Core.clearEvent { c with pev := [] } (.clear tile m) := by
  simp [Core.beamEnd, h, isBeam, isClear, List.filter_cons]

theorem Core.clearEvent_beam (c : Core) (tile : Nat) (m : TileMode) (k : Nat) :
    tget Entry.zero (c.clearEvent (.clear tile m)).mx.beam k
      = if k / 8192 = tile then Entry.zero else tget Entry.zero c.mx.beam k := by
  simp [Core.clearEvent, tget_tdrop]

theorem Core.clearEvent_modes (c : Core) (tile : Nat) (m : TileMode) (t : Nat) :
    tget TileMode.reset (c.clearEvent (.clear tile m)).mx.modes t = if t = tile then m else tget TileMode.reset c.mx.modes t :=
  tget_tput ..

/-- Settles O9: MCLR and MANC put a clear at the end of their ccyc; the clear empties its tile, and a run starts with no entry and no
mode stored. -/
theorem tileClearsTakeEffect : Obligations.TileClearsTakeEffect := by
  refine ⟨?_, fun c tile m h => ?_⟩
  · intro s x tile anchor k hm
    exact ⟨(leaves_of_beamOn rfl · hm), (leaves_of_beamOn rfl · hm)⟩
  rw [Core.beamEnd_clear h]
  refine ⟨fun k hk => ?_, fun k hk => ?_, ?_, fun t ht => ?_, rfl, rfl, rfl, fun c env n gap => ⟨fun k => rfl, fun t => rfl⟩⟩
  · rw [Core.clearEvent_beam, if_pos hk]
  · rw [Core.clearEvent_beam, if_neg hk]
  · rw [Core.clearEvent_modes, if_pos rfl]
  · rw [Core.clearEvent_modes, if_neg ht]

end Sys2Proof.Machine
end

section
/-!
SUPPORT. What MOUT and MFLG write, and the FP32 entry with a tag that O10 does not set apart (03 R94 to R97).
-/

namespace Sys2Proof.Machine

open Sys2Proof Sys2Proof.Safety

/-! ### The words of an entry -/

/-- An untagged FP32 entry gives its own bits (R95). -/
theorem outF32_untagged {en : Entry} (h : en.tag = .none) (a : Int) : outF32 true a en = en.x.truncate 32 := by
  simp [outF32, h]

/-- A RAW word of an FP32 entry: its bits in word 0, and 0 in the others (R95). -/
theorem outRaw_fp32 (en : Entry) (w : Nat) : outRaw true en w = if w = 0 then en.x.truncate 32 else 0 := by
  have hlow : (en.x &&& 0xFFFFFFFF#128).toNat = en.x.toNat % 2 ^ 32 := Nat.and_two_pow_sub_one_eq_mod en.x.toNat 32
  apply BitVec.eq_of_toNat_eq
  simp only [outRaw, if_true, hlow, BitVec.toNat_ofNat]
  split
  next hw => simp [hw]
  next hw =>
    have hlt : en.x.toNat % 2 ^ 32 < 2 ^ (32 * w) :=
      (Nat.mod_lt _ (by decide)).trans_le (Nat.pow_le_pow_right (by decide) (by omega))
    rw [Nat.shiftRight_eq_div_pow, Nat.div_eq_of_lt hlt]
    rfl

theorem outRaw_untagged {en : Entry} (h : en.tag = .none) (w : Nat) : outRaw false en w = en.x.extractLsb' (32 * w) 32 := by
  simp [outRaw, h, BitVec.extractLsb']

theorem b2n_testBit (f : Bool) (b : Nat) : (b2n f).testBit b = (decide (b = 0) && f) := by
  cases f
  · simp [b2n]
  · rw [Bool.and_true]
    exact Nat.testBit_two_pow (n := 0).trans (decide_eq_decide.2 eq_comm)

/-- Flags laid one above the other: each bit is its flag. -/
theorem testBit_foldl_flags (f : Nat → Bool) (b : Nat) {a n acc : Nat} (hacc : acc < 2 ^ a) :
    ((upFrom a n).foldl (fun w k => w + fld (b2n (f k)) k 1) acc).testBit b
      = if a ≤ b ∧ b < a + n then f b else acc.testBit b := by
  induction n generalizing a acc with
  | zero => simp [upFrom]
  | succ n ih =>
    have hflag : b2n (f a) < 2 := by
      unfold b2n
      split
      all_goals decide
    have hfld : acc + fld (b2n (f a)) a 1 = 2 ^ a * b2n (f a) + acc := by
      rw [fld, Nat.pow_one, Nat.mod_eq_of_lt hflag, Nat.shiftLeft_eq, Nat.mul_comm, Nat.add_comm]
    have hnext : 2 ^ a * b2n (f a) + acc < 2 ^ (a + 1) := by
      have hle := Nat.mul_le_mul_left (2 ^ a) (Nat.le_of_lt_succ hflag)
      rw [Nat.pow_succ]
      omega
    rw [upFrom, List.foldl_cons, hfld, ih hnext, Nat.testBit_two_pow_mul_add _ hacc, b2n_testBit]
    rcases Nat.lt_trichotomy b a with hb | rfl | hb
    · rw [if_neg (by omega), if_pos hb, if_neg (by omega)]
    · simp
    · have hhigh : acc.testBit b = false := Nat.testBit_lt_two_pow (hacc.trans_le (Nat.pow_le_pow_right (by decide) hb.le))
      have hne : b - a ≠ 0 := by omega
      have hrange : (a + 1 ≤ b ∧ b < a + 1 + n) ↔ (a ≤ b ∧ b < a + (n + 1)) := by omega
      rw [if_neg hb.not_gt, hhigh, decide_eq_false hne, Bool.false_and]
      exact if_congr hrange rfl rfl

theorem flagWord_getLsbD (f : Nat → Bool) {b : Nat} (hb : b < 32) :
    (BitVec.ofNat 32 ((upFrom 0 32).foldl (fun w k => w + fld (b2n (f k)) k 1) 0)).getLsbD b = f b := by
  rw [BitVec.getLsbD_ofNat, testBit_foldl_flags f b (Nat.two_pow_pos 0), if_pos (by omega)]
  simp [hb]

/-! ### MOUT and MFLG -/

section
variable {s : State} {x : Issue} {row : BitVec 9} {vd : BitVec 6} {ofmt : BitVec 2} {half : Bool} {tile : BitVec 3}
  (hm : (issuing s x .mxe false).rn.mode = 1)
include hm

/-- MOUT FP32 and BF16 write slot h of each column. -/
theorem mout_writes_slot (ha : acts (.mout x row vd ofmt half) s x .mxe false = true) (hf : ofmt ≠ 2) :
    let k := issuing s x .mxe false
    let en := fun (j : Nat) => tget Entry.zero k.mx.beam (128 * row.toNat + j)
    let m := tget TileMode.reset k.mx.modes (row.toNat / 64)
    ∃ lanes, leaves (.mout x row vd ofmt half) s x.core (writing k .mxe (k.kvi .mxe x.word) ⟨3, vd.toNat⟩ 4 (.lanes lanes))
      ∧ lanes.length = 128
      ∧ ∀ j, j < 128 → ∃ v, (2 * j + (if half then 1 else 0), Lane.mk v (en j).poison) ∈ lanes
        ∧ (m.fp32 = true → (en j).tag = .none → ofmt = 0 → v = (en j).x.truncate 32)
        ∧ (ofmt = 0 → v = outF32 m.fp32 m.anchor (en j)) ∧ (ofmt = 1 → v = outBf16 m.fp32 m.anchor (en j)) := by
  intro k en m
  have h := leaves_of_beamOn rfl ha hm
  dsimp only at h
  rw [if_neg hf] at h
  refine ⟨_, h, (List.length_map _).trans rfl, fun j hj => ⟨_, List.mem_map.2 ⟨j, mem_upFrom.2 ⟨by omega, by omega⟩, rfl⟩, ?_, ?_, ?_⟩⟩
  · intro hfp ht h0
    rw [if_pos h0]
    exact (congrArg (outF32 · _ _) hfp).trans (outF32_untagged ht _)
  · exact fun h0 => if_pos h0
  · rintro rfl
    exact if_neg (by decide)

/-- MOUT RAW writes the four slots of each column, two in each register. -/
theorem mout_writes_raw (ha : acts (.mout x row vd 2 half) s x .mxe false = true) :
    let k := issuing s x .mxe false
    let kvi := k.kvi .mxe x.word
    let en := fun (j : Nat) => tget Entry.zero k.mx.beam (128 * row.toNat + j)
    let m := tget TileMode.reset k.mx.modes (row.toNat / 64)
    ∃ l0 l1, leaves (.mout x row vd 2 half) s x.core
        (writing (writing k .mxe kvi ⟨3, vd.toNat⟩ 4 (.lanes l0)) .mxe kvi ⟨3, vd.toNat + 1⟩ 5 (.lanes l1))
      ∧ ∀ j w, j < 128 → w < 4 →
        ∃ v, (2 * j + w % 2, Lane.mk v (en j).poison) ∈ (if w < 2 then l0 else l1)
          ∧ (m.fp32 = true → v = if w = 0 then (en j).x.truncate 32 else 0)
          ∧ (m.fp32 = false → (en j).tag = .none → v = (en j).x.extractLsb' (32 * w) 32) := by
  intro k kvi en m
  have h := leaves_of_beamOn rfl ha hm
  dsimp only at h
  rw [if_pos rfl] at h
  refine ⟨_, _, h, fun j w hj hw => ⟨outRaw m.fp32 (en j) w, ?_, fun hfp => ?_, fun hfp ht => ?_⟩⟩
  · have hmem : j ∈ upFrom 0 128 := mem_upFrom.2 ⟨by omega, by omega⟩
    interval_cases w
    · exact List.mem_flatMap.2 ⟨j, hmem, List.mem_cons_self⟩
    · exact List.mem_flatMap.2 ⟨j, hmem, List.mem_cons_of_mem _ List.mem_cons_self⟩
    · exact List.mem_flatMap.2 ⟨j, hmem, List.mem_cons_self⟩
    · exact List.mem_flatMap.2 ⟨j, hmem, List.mem_cons_of_mem _ List.mem_cons_self⟩
  · rw [hfp, outRaw_fp32]
  · rw [hfp, outRaw_untagged ht]

/-- MFLG writes the INEXACT flags of a tile. -/
theorem mflg_writes_flags (ha : acts (.mflg x tile vd) s x .mxe false = true) :
    let k := issuing s x .mxe false
    ∃ lanes, leaves (.mflg x tile vd) s x.core (writing k .mxe (k.kvi .mxe x.word) ⟨3, vd.toNat⟩ 4 (.lanes lanes))
      ∧ ∀ j h, j < 128 → h < 2 → ∃ v : W32, (2 * j + h, Lane.mk v false) ∈ lanes
        ∧ ∀ b, b < 32 → v.getLsbD b = (tget Entry.zero k.mx.beam (128 * (64 * tile.toNat + 32 * h + b) + j)).inexact := by
  intro k
  refine ⟨_, leaves_of_beamOn rfl ha hm, fun j h hj hh => ⟨_, ?_, fun b hb =>
    flagWord_getLsbD (fun b => (tget Entry.zero k.mx.beam (128 * (64 * tile.toNat + 32 * h + b) + j)).inexact) hb⟩⟩
  have hmem : j ∈ upFrom 0 128 := mem_upFrom.2 ⟨by omega, by omega⟩
  interval_cases h
  · exact List.mem_flatMap.2 ⟨j, hmem, List.mem_cons_self⟩
  · exact List.mem_flatMap.2 ⟨j, hmem, List.mem_cons_of_mem _ List.mem_cons_self⟩

end

/-! ### The FP32 entry with a tag -/

/-- A core in a scheduled block whose tile 0, in FP32 mode, has received an MRAW row with the pattern of NaN in column 0. The loader
refuses such an MRAW (R98); the model performs it, and entry 0 takes the tag. -/
def taggedFp32Core : Core :=
  Core.beamEvent { Core.reset with rn := { Core.reset.rn with mode := 1 } } (.raw 0 0 [(tagPattern .nan, false)])

/-- The core in block 0 of its job. -/
def taggedFp32 : State := { State.reset with
  cores := [(0, taggedFp32Core)]
  jobs := [(0, { Job.empty with images := [{ CoreImage.empty with blocks := [⟨64, nEnd, 0, []⟩] }] })] }

/-- A word for core 0. -/
def firstWord : Issue := ⟨0, 0, 0, none⟩

theorem taggedFp32_acts : acts (.mout firstWord 0 0 0 false) taggedFp32 firstWord .mxe false = true := by decide +kernel

/-- The tag overrides the bits of the entry, which are 0 (R95). -/
theorem taggedFp32_entry :
    let k := issuing taggedFp32 firstWord .mxe false
    let en := tget Entry.zero k.mx.beam (128 * (0 : BitVec 9).toNat + 0)
    let m := tget TileMode.reset k.mx.modes ((0 : BitVec 9).toNat / 64)
    k.rn.mode = 1 ∧ m.fp32 = true ∧ en.x.truncate 32 = (0 : W32) ∧ outF32 m.fp32 m.anchor en = 0x7FC00000 := by
  decide +kernel

/-- Refutes O10: the statement wants the bits of every entry of an FP32 tile, and MOUT gives NaN for one that has the tag NaN.
`mout_writes_slot`, `mout_writes_raw` and `mflg_writes_flags` say what holds: the statement, for FP32 entries without a tag. -/
theorem not_beamOutputsReachVRegisters : ¬ Obligations.BeamOutputsReachVRegisters := by
  intro h
  obtain ⟨hmode, hfp, hbits, hnan⟩ := taggedFp32_entry
  obtain ⟨hmout, -, -⟩ := h taggedFp32 firstWord 0 0 0 false 0 hmode
  obtain ⟨lanes, -, -, hlane⟩ := hmout taggedFp32_acts (by decide)
  obtain ⟨v, -, hown, hout, -⟩ := hlane 0 (by decide)
  have hclash : (0 : W32) = 0x7FC00000 := hbits.symm.trans ((hown hfp rfl).symm.trans ((hout rfl).trans hnan))
  exact absurd hclash (by decide)

end Sys2Proof.Machine
end

section
/-!
SUPPORT. Reads of registers and lines by an engine: what a read that breaks no obligation of the schedule gives, and what any read leaves
as it was (02 R39, R61; 05 R142).
-/

namespace Sys2Proof.Machine

open Sys2Proof Sys2Proof.Safety Sys2Proof.Claims

/-! ### Reads that break no obligation -/

section
variable {c : Core} {r : Res} (env : Env) (e : Engine) (kvi : Nat)

theorem Core.checkRead_clean (lpos : Nat) (dest : Option Nat) (h : clean c r = true) :
    c.checkRead env e kvi r lpos dest = (c, false) := by
  unfold Core.checkRead
  cases hc : c.checked
  · rfl
  · simp only [clean, hc, Bool.not_true, Bool.false_or, Bool.and_eq_true, Option.isNone_iff_eq_none, Bool.not_eq_true'] at h
    obtain ⟨hpend, haudit⟩ := h
    simp [Core.earlyRead, Core.staleRead, hpend, haudit]

theorem Core.readS_clean {n : Nat} (h : clean c ⟨0, n⟩ = true) : c.readS env e kvi n = (c, tget ⟨0, false⟩ c.regs.s n) := by
  simp only [Core.readS, Core.checkRead_clean env e kvi 0 none h]

theorem Core.readA_clean {n : Nat} (h : clean c ⟨1, n⟩ = true) : c.readA env e kvi n = (c, tget ⟨0, false⟩ c.regs.a n) := by
  simp only [Core.readA, Core.checkRead_clean env e kvi 0 none h]

theorem Core.readV_clean {n : Nat} (h : clean c ⟨3, n⟩ = true) : c.readV env e kvi n = (c, lanesOf c.regs.v n) := by
  simp only [Core.readV, Core.checkRead_clean env e kvi 0 none h]

theorem Core.readOc_clean {n : Nat} (dest : Option Nat) (h : clean c ⟨4, n⟩ = true) :
    c.readOc env e kvi n dest = (c, lanesOf c.regs.oc n) := by
  simp only [Core.readOc, Core.checkRead_clean env e kvi 0 dest h]

/-- The core with accesses to lines by an engine in this ccyc, for the write `dest`. -/
def Core.readsOf (c : Core) (e : Engine) (kvi : Nat) (dest : Option Nat) (ls : List Nat) : Core :=
  { c with ck := { c.ck with acc := c.ck.acc ++ ls.map fun l => ⟨c.tm.p, e, false, l, kvi, dest⟩ } }

theorem Core.readsOf_cons (c : Core) (e : Engine) (kvi : Nat) (dest : Option Nat) (y : Nat) (ls : List Nat) :
    (c.access c.tm.p e false y kvi dest).readsOf e kvi dest ls = c.readsOf e kvi dest (y :: ls) := by
  simp [Core.readsOf, Core.access]

theorem Core.readLines_clean (dest : Option Nat) (place : Nat) {ls : List Nat} (h : ∀ y ∈ ls, clean c ⟨5, y⟩ = true) :
    c.readLines env e kvi dest [] place ls = (c.readsOf e kvi dest ls, ls.map c.lineNow) := by
  induction ls generalizing c place with
  | nil => simp [Core.readLines, Core.readsOf]
  | cons y ls ih =>
    obtain ⟨hy, hls⟩ := List.forall_mem_cons.1 h
    have hrest := ih (c := c.access c.tm.p e false y kvi dest) (place + 1) hls
    simp only [Core.readLines, Core.checkRead_clean env e kvi place dest hy, Core.readLine, Core.eccRead, hrest]
    exact Prod.ext (c.readsOf_cons e kvi dest y ls) rfl

end

/-! ### What any read leaves as it was -/

/-- What a read cannot touch, whatever it finds: it can only make violations, take ports, draw a free value, and report stored
errors. -/
def Core.work (c : Core) : CTime × Regs × SMap Byte × List PWrite × Tallies × Vxe × Nat :=
  (c.tm, c.regs, c.mem, c.pend, c.tl, c.vx, c.ids)

section
variable (c : Core) (env : Env) (e : Engine) (kvi : Nat)

theorem Core.earlyRead_work (r : Res) (dest : Option Nat) : (c.earlyRead e kvi r dest).1.work = c.work := by
  unfold Core.earlyRead
  split
  all_goals rfl

theorem Core.staleRead_work (r : Res) (lpos : Nat) (dest : Option Nat) : (c.staleRead env e kvi r lpos dest).1.work = c.work := by
  unfold Core.staleRead
  split
  · rfl
  · split
    · rfl
    · dsimp only
      split
      all_goals rfl

theorem Core.checkRead_work (r : Res) (lpos : Nat) (dest : Option Nat) : (c.checkRead env e kvi r lpos dest).1.work = c.work := by
  unfold Core.checkRead
  split
  · rfl
  · exact (Core.staleRead_work ..).trans (Core.earlyRead_work ..)

theorem Core.eccRead_work (eng line place : Nat) (ecc : List EccObs) : (c.eccRead env eng kvi line place ecc).work = c.work := by
  induction ecc with
  | nil => rfl
  | cons o ecc ih =>
    unfold Core.eccRead
    dsimp only
    split
    · exact ih
    · split
      · exact ih
      · exact ih

theorem Core.readLines_work (dest : Option Nat) (ecc : List EccObs) (place : Nat) (ls : List Nat) :
    (c.readLines env e kvi dest ecc place ls).1.work = c.work := by
  induction ls generalizing c place with
  | nil => rfl
  | cons y ls ih =>
    refine (ih _ _).trans ((Core.eccRead_work _ env kvi ..).trans ?_)
    exact c.checkRead_work env e kvi ⟨5, y⟩ place dest

theorem Core.readLines_length (dest : Option Nat) (ecc : List EccObs) (place : Nat) (ls : List Nat) :
    (c.readLines env e kvi dest ecc place ls).2.length = ls.length := by
  induction ls generalizing c place with
  | nil => rfl
  | cons y ls ih => exact congrArg (· + 1) (ih _ _)

theorem Core.readOc_work (n : Nat) (dest : Option Nat) : (c.readOc env e kvi n dest).1.work = c.work :=
  c.checkRead_work env e kvi ⟨4, n⟩ 0 dest

end

end Sys2Proof.Machine
end

section
/-!
SUPPORT. The bytes of lines and lanes: what a line's value holds of the scratchpad, and which bytes the lanes of a row, a column, a
strided read and a transposing read bring (04 R107; 05 R145, R147).
-/

namespace Sys2Proof.Machine

open Sys2Proof Sys2Proof.Safety Sys2Proof.Claims

/-! ### Lists -/

theorem upFrom_eq_range' (a n : Nat) : upFrom a n = List.range' a n := by
  induction n generalizing a with
  | zero => rfl
  | succ n ih => rw [upFrom, ih, List.range'_succ]

theorem upFrom_zero (n : Nat) : upFrom 0 n = List.range n := by
  rw [upFrom_eq_range', List.range_eq_range']

theorem upFrom_eq_map_range (a n : Nat) : upFrom a n = (List.range n).map (a + ·) := by
  rw [upFrom_eq_range', List.range'_eq_map_range]

theorem lanesOf_eq (m : SMap Lane) (r : Nat) : lanesOf m r = (List.range 256).map fun i => tget Lane.zero m (256 * r + i) := by
  rw [lanesOf, upFrom_eq_map_range, List.map_map]
  rfl

/-- Numbered lanes: the numbering of a list that is a function of the place. -/
theorem numbered_range {α : Type} (f : Nat → α) (n : Nat) :
    (((List.range n).map f).zipIdx.map fun x => (x.2, x.1)) = (List.range n).map fun i => (i, f i) := by
  apply List.ext_getElem
  · simp
  · intro i h1 h2
    simp

theorem any_range_of_const {f : Nat → Bool} {b : Bool} {n : Nat} (hn : 0 < n) (h : ∀ k, k < n → f k = b) :
    (List.range n).any f = b := by
  cases b with
  | true => exact List.any_eq_true.2 ⟨0, List.mem_range.2 hn, h 0 hn⟩
  | false => exact List.any_eq_false.2 fun k hk => by simp [h k (List.mem_range.1 hk)]

/-! ### Digits -/

/-- Digits of `b` bits laid one above the other: each bit is its digit's. -/
theorem testBit_digits {b : Nat} {l : List Nat} (h : ∀ x ∈ l, x < 2 ^ b) (q : Nat) {t : Nat} (ht : t < b) :
    (l.foldr (fun x acc => x + 2 ^ b * acc) 0).testBit (b * q + t) = (l.getD q 0).testBit t := by
  induction l generalizing q with
  | nil => simp
  | cons x l ih =>
    obtain ⟨hx, hl⟩ := List.forall_mem_cons.1 h
    rw [List.foldr_cons, Nat.add_comm x, Nat.testBit_two_pow_mul_add _ hx]
    cases q with
    | zero => simp [ht]
    | succ q =>
      have hge : ¬ b * (q + 1) + t < b := by rw [Nat.mul_succ]; omega
      have hsub : b * (q + 1) + t - b = b * q + t := by rw [Nat.mul_succ]; omega
      rw [if_neg hge, hsub, ih hl, List.getD_cons_succ]

theorem testBit_leVal (l : List Byte) (q : Nat) {t : Nat} (ht : t < 8) : (leVal l).testBit (8 * q + t) = (l.getD q 0).getLsbD t := by
  have hfold : leVal l = (l.map (·.toNat)).foldr (fun x acc => x + 2 ^ 8 * acc) 0 := by
    induction l with
    | nil => rfl
    | cons b l ih =>
      rw [leVal, ih]
      rfl
  have hdigit : (l.map (·.toNat)).getD q 0 = (l.getD q 0).toNat := List.getD_map (d := (0 : Byte)) ..
  have hbyte : ∀ x ∈ l.map (·.toNat), x < 2 ^ 8 := by
    intro x hx
    obtain ⟨b, -, rfl⟩ := List.mem_map.1 hx
    exact b.isLt
  rw [hfold, testBit_digits hbyte q ht, hdigit, BitVec.testBit_toNat]

theorem readBytes_eq (m : SMap Byte) (a n : Nat) : readBytes m a n = (List.range n).map fun i => tget 0 m (a + i) := by
  have h : readBytes m a n = (upFrom a n).map (tget 0 m) := by
    induction n generalizing a with
    | zero => rfl
    | succ n ih => rw [readBytes, upFrom, List.map_cons, ih]
  rw [h, upFrom_eq_map_range, List.map_map]
  rfl

/-- Byte `j` of a line, as the scratchpad holds it. -/
theorem Core.lineNow_byte (c : Core) (line : Nat) {j : Nat} (hj : j < 256) :
    (c.lineNow line).v.extractLsb' (8 * j) 8 = tget 0 c.mem (256 * line + j) := by
  apply BitVec.eq_of_getLsbD_eq
  intro t ht
  have hbyte : (readBytes c.mem (256 * line) 256).getD j 0 = tget 0 c.mem (256 * line + j) := by
    simp [readBytes_eq, List.getD_eq_getElem?_getD, hj]
  rw [BitVec.getLsbD_extractLsb', Core.lineNow, BitVec.getLsbD_ofNat, testBit_leVal _ _ ht, hbyte]
  simp [ht]
  omega

/-! ### The lanes of a row or a column -/

theorem linesToLanes_length (u : Nat) (ls : List LineVal) : (linesToLanes u ls).length = 64 * ls.length := by
  induction ls generalizing u with
  | nil => rfl
  | cons l ls ih => simp [linesToLanes, upFrom_zero, ih]; omega

theorem mem_linesToLanes (a : Nat) {ls : List LineVal} {u i : Nat} (hu : u < ls.length) (hi : i < 64) :
    (64 * (a + u) + i, Lane.mk ((ls.getD u LineVal.zero).v.extractLsb' (32 * i) 32) (ls.getD u LineVal.zero).p) ∈ linesToLanes a ls := by
  induction ls generalizing a u with
  | nil => simp at hu
  | cons l ls ih =>
    rw [linesToLanes, List.mem_append]
    cases u with
    | zero => exact .inl (List.mem_map.2 ⟨i, mem_upFrom.2 ⟨by omega, by omega⟩, by simp⟩)
    | succ u =>
      have hmem := ih (a + 1) (u := u) (by simpa using hu)
      rw [show a + 1 + u = a + (u + 1) by omega] at hmem
      exact .inr (by simpa using hmem)

/-- The lines that a read has brought, with the mark of its address, one by one. -/
theorem poisonLines_getD (c : Core) (p : Bool) {ls : List Nat} {u : Nat} (hu : u < ls.length) :
    (poisonLines p (ls.map c.lineNow)).getD u LineVal.zero
      = ⟨(c.lineNow (ls.getD u 0)).v, tget false c.pois (ls.getD u 0) || p⟩ := by
  simp [poisonLines, List.getD_eq_getElem?_getD, hu, Core.lineNow]

/-- Four lines bring their 1,024 bytes in order. -/
theorem laneByte_linesToLanes (c : Core) (p : Bool) {ls : List Nat} (h4 : ls.length = 4) {j : Nat} (hj : j < 1024) :
    laneByte (linesToLanes 0 (poisonLines p (ls.map c.lineNow))) j (tget 0 c.mem (256 * ls.getD (j / 256) 0 + j % 256))
      (tget false c.pois (ls.getD (j / 256) 0) || p) := by
  have hu : j / 256 < ls.length := by omega
  have hmem := mem_linesToLanes 0 (ls := poisonLines p (ls.map c.lineNow)) (u := j / 256) (i := j % 256 / 4)
    (by simpa [poisonLines] using hu) (by omega)
  rw [poisonLines_getD c p hu, show 64 * (0 + j / 256) + j % 256 / 4 = j / 4 by omega] at hmem
  refine ⟨_, hmem, ?_⟩
  rw [← c.lineNow_byte _ (Nat.mod_lt j (by decide))]
  apply BitVec.eq_of_getLsbD_eq
  intro t ht
  have hbit : 8 * (j % 4) + t < 32 := by omega
  have hpos : 32 * (j % 256 / 4) + (8 * (j % 4) + t) = 8 * (j % 256) + t := by omega
  simp only [BitVec.getLsbD_extractLsb', ht, hbit, decide_true, Bool.true_and, hpos]

/-! ### The lanes of a strided read -/

theorem bits_testBit (x lo : Nat) {w t : Nat} (ht : t < w) : (bits x lo w).testBit t = x.testBit (lo + t) := by
  simp [bits, Nat.testBit_mod_two_pow, ht]

/-- Element `e` of a strided read of elements of `n` bytes, with its mark. -/
def strideElem (n b0 : Nat) (ls : List LineVal) (e : Nat) : Nat × Bool :=
  let l := ls.getD (e / 64) LineVal.zero
  if e < 256 then (bits l.v.toNat (8 * (b0 + 4 * (e % 64))) (8 * n), l.p) else (0, false)

/-- Lane `i` of a strided read: its elements one above the other. -/
def strideLane (n b0 : Nat) (ls : List LineVal) (i : Nat) : Lane :=
  let el := (List.range (4 / n)).map fun k => strideElem n b0 ls (4 / n * i + k)
  ⟨BitVec.ofNat 32 (el.foldr (fun x acc => x.1 + 2 ^ (8 * n) * acc) 0), el.any (·.2)⟩

theorem strideLanes_eq (w : BitVec 2) (b0 : Nat) (ls : List LineVal) :
    strideLanes w b0 ls = (List.range 256).map fun i => (i, strideLane (strideWidth w) b0 ls i) := by
  simp only [strideLanes, upFrom_zero]
  rfl

theorem strideElem_lt (n b0 : Nat) (ls : List LineVal) (e : Nat) : (strideElem n b0 ls e).1 < 2 ^ (8 * n) := by
  unfold strideElem
  dsimp only
  split
  · exact Nat.mod_lt _ (Nat.two_pow_pos _)
  · exact Nat.two_pow_pos _

section
variable {n : Nat} (hn : n = 1 ∨ n = 2 ∨ n = 4)
include hn

/-- Byte `j` of a strided read of elements of `n` bytes: its element among all, and among those of its lane. -/
theorem elem_of_byte (j : Nat) : 4 / n * (j / 4) + j % 4 / n = j / n ∧ j % 4 / n < 4 / n ∧ j % 4 = n * (j % 4 / n) + j % n := by
  rcases hn with rfl | rfl | rfl
  all_goals omega

/-- The elements of one lane lie in one line, and all of them among the 256 or none. -/
theorem line_of_elem {j k : Nat} (hk : k < 4 / n) :
    (4 / n * (j / 4) + k) / 64 = j / n / 64 ∧ (4 / n * (j / 4) + k < 256 ↔ j / n < 256) := by
  rcases hn with rfl | rfl | rfl
  all_goals omega

/-- Byte `j` of a strided read is a byte of its element. -/
theorem strideLane_bit (b0 j : Nat) (ls : List LineVal) {t : Nat} (ht : t < 8) :
    ((strideLane n b0 ls (j / 4)).v.extractLsb' (8 * (j % 4)) 8).getLsbD t
      = (strideElem n b0 ls (j / n)).1.testBit (8 * (j % n) + t) := by
  obtain ⟨helem, hin, hplace⟩ := elem_of_byte hn j
  have hbit : 8 * (j % 4) + t = 8 * n * (j % 4 / n) + (8 * (j % n) + t) := by
    rw [Nat.mul_assoc]
    omega
  have hlow : 8 * (j % n) + t < 8 * n := by
    have := Nat.mod_lt j (show 0 < n by omega)
    omega
  have h32 : 8 * (j % 4) + t < 32 := by omega
  have hfold : ∀ l : List (Nat × Bool), l.foldr (fun x acc => x.1 + 2 ^ (8 * n) * acc) 0
      = (l.map (·.1)).foldr (fun x acc => x + 2 ^ (8 * n) * acc) 0 := fun l => by rw [List.foldr_map]
  rw [BitVec.getLsbD_extractLsb', strideLane, BitVec.getLsbD_ofNat, hfold, List.map_map, decide_eq_true ht, decide_eq_true h32,
    Bool.true_and, Bool.true_and, hbit, testBit_digits _ _ hlow]
  · simp [List.getD_eq_getElem?_getD, hin, helem]
  · intro x hx
    obtain ⟨k, -, rfl⟩ := List.mem_map.1 hx
    exact strideElem_lt ..

/-- The elements of a lane have one mark, which is the lane's. -/
theorem strideLane_mark (b0 j : Nat) (ls : List LineVal) :
    (strideLane n b0 ls (j / 4)).p = (strideElem n b0 ls (j / n)).2 := by
  have hpos : 0 < 4 / n := (Nat.zero_le _).trans_lt (elem_of_byte hn j).2.1
  refine (List.any_map ..).trans (any_range_of_const hpos fun k hk => ?_)
  obtain ⟨hline, hin⟩ := line_of_elem hn (j := j) hk
  simp only [Function.comp_apply, strideElem, hline, hin]
  split
  all_goals rfl

end

/-- A bit of an element is a bit of the scratchpad. -/
theorem strideElem_bit (c : Core) (p : Bool) {n b0 e r t : Nat} {ls : List Nat} (h4 : ls.length = 4) (he : e < 256) (hr : r < n)
    (hb : b0 + n ≤ 4) (ht : t < 8) :
    (strideElem n b0 (poisonLines p (ls.map c.lineNow)) e).1.testBit (8 * r + t)
      = (tget 0 c.mem (256 * ls.getD (e / 64) 0 + b0 + 4 * (e % 64) + r)).getLsbD t := by
  have hbyte : b0 + 4 * (e % 64) + r < 256 := by omega
  have hplace : 8 * (b0 + 4 * (e % 64)) + (8 * r + t) = 8 * (b0 + 4 * (e % 64) + r) + t := by omega
  rw [show 256 * ls.getD (e / 64) 0 + b0 + 4 * (e % 64) + r = 256 * ls.getD (e / 64) 0 + (b0 + 4 * (e % 64) + r) by omega,
    ← c.lineNow_byte _ hbyte, BitVec.getLsbD_extractLsb', strideElem, if_pos he, bits_testBit _ _ (by omega), hplace,
    BitVec.testBit_toNat, poisonLines_getD c p (by omega)]
  simp [ht]

theorem strideWidth_cases (w : BitVec 2) : strideWidth w = 1 ∨ strideWidth w = 2 ∨ strideWidth w = 4 := by
  unfold strideWidth
  split
  · exact .inr (.inr rfl)
  · split
    · exact .inr (.inl rfl)
    · exact .inl rfl

/-- A strided read brings its 256 elements in order, and 0 beyond them. -/
theorem laneByte_strideLanes (c : Core) (p : Bool) {w : BitVec 2} {b0 : Nat} {ls : List Nat} (h4 : ls.length = 4)
    (hb : b0 + strideWidth w ≤ 4) {j : Nat} (hj : j < 1024) :
    laneByte (strideLanes w b0 (poisonLines p (ls.map c.lineNow))) j
      (if j < 256 * strideWidth w then
        tget 0 c.mem (256 * ls.getD (j / strideWidth w / 64) 0 + b0 + 4 * (j / strideWidth w % 64) + j % strideWidth w)
      else 0)
      (decide (j < 256 * strideWidth w) && (tget false c.pois (ls.getD (j / strideWidth w / 64) 0) || p)) := by
  have hn := strideWidth_cases w
  rw [strideLanes_eq]
  generalize strideWidth w = n at hb hn
  have hpos : 0 < n := by omega
  have hlt : j < 256 * n ↔ j / n < 256 := (Nat.div_lt_iff_lt_mul hpos).symm
  have hmark : (strideLane n b0 (poisonLines p (ls.map c.lineNow)) (j / 4)).p
      = (decide (j < 256 * n) && (tget false c.pois (ls.getD (j / n / 64) 0) || p)) := by
    rw [strideLane_mark hn, strideElem, decide_eq_decide.2 hlt]
    by_cases he : j / n < 256
    · rw [if_pos he, poisonLines_getD c p (by omega), decide_eq_true he, Bool.true_and]
    · rw [if_neg he, decide_eq_false he, Bool.false_and]
  have hbyte : (strideLane n b0 (poisonLines p (ls.map c.lineNow)) (j / 4)).v.extractLsb' (8 * (j % 4)) 8
      = if j < 256 * n then tget 0 c.mem (256 * ls.getD (j / n / 64) 0 + b0 + 4 * (j / n % 64) + j % n) else 0 := by
    apply BitVec.eq_of_getLsbD_eq
    intro t ht
    rw [strideLane_bit hn b0 j _ ht]
    by_cases he : j / n < 256
    · rw [if_pos (hlt.2 he), strideElem_bit c p h4 he (Nat.mod_lt _ hpos) hb ht]
    · rw [if_neg (mt hlt.1 he), strideElem, if_neg he]
      simp
  exact ⟨_, List.mem_map.2 ⟨j / 4, List.mem_range.2 (by omega), Prod.ext rfl (congrArg (Lane.mk _) hmark)⟩, hbyte⟩

/-! ### The lanes of a transposing read -/

theorem mem_numbered {α : Type} {l : List α} {n : Nat} {a : α} (h : l[n]? = some a) : (n, a) ∈ l.zipIdx.map fun x => (x.2, x.1) :=
  List.mem_map.2 ⟨(a, n), List.mem_zipIdx_iff_getElem?.2 h, rfl⟩

/-- Blocks of one length, one behind the other. -/
theorem getElem?_flatMap_range {α : Type} {f : Nat → List α} {m : Nat} (hf : ∀ u, (f u).length = m) {n u i : Nat} (hu : u < n)
    (hi : i < m) : ((List.range n).flatMap f)[m * u + i]? = (f u)[i]? := by
  induction n with
  | zero => omega
  | succ n ih =>
    have hlen : ((List.range n).flatMap f).length = m * n := by simp [List.length_flatMap, hf, Nat.mul_comm]
    rw [List.range_succ, List.flatMap_append, List.flatMap_singleton]
    by_cases hlast : u = n
    · subst hlast
      rw [List.getElem?_append_right (by omega), hlen, Nat.add_sub_cancel_left]
    · have hin : m * u + i < m * n := by
        have := Nat.mul_le_mul_left m (show u + 1 ≤ n by omega)
        rw [Nat.mul_succ] at this
        omega
      rw [List.getElem?_append_left (by omega), ih (by omega)]

theorem transposedLine_length (tw t : Nat) (ls : List LineVal) : (transposedLine tw t ls).length = 64 := by
  simp [transposedLine, upFrom_zero]

/-- With 32-bit elements, word `i` of transposed line `t` is element `t` of line `i`. -/
theorem transposedLine_word {t i : Nat} (ls : List LineVal) (hi : i < 64) :
    (transposedLine 0 t ls)[i]? = some ⟨(ls.getD i LineVal.zero).v.extractLsb' (32 * t) 32, (ls.getD i LineVal.zero).p⟩ := by
  have hv : ∀ v : BitVec 2048, BitVec.ofNat 32 (bits v.toNat (32 * t) 32) = v.extractLsb' (32 * t) 32 := by
    intro v
    apply BitVec.eq_of_getLsbD_eq
    intro k hk
    rw [BitVec.getLsbD_ofNat, bits_testBit _ _ hk, BitVec.testBit_toNat, BitVec.getLsbD_extractLsb']
  simp [transposedLine, upFrom_zero, hi, hv]

theorem mem_transposedReg (ls : List LineVal) (k : Nat) {u i : Nat} (hu : u < 4) (hi : i < 64) :
    (64 * u + i, Lane.mk ((ls.getD i LineVal.zero).v.extractLsb' (32 * (4 * k + u)) 32) (ls.getD i LineVal.zero).p)
      ∈ transposedReg 0 k ls := by
  refine mem_numbered ?_
  rw [upFrom_zero, getElem?_flatMap_range (fun u => transposedLine_length 0 (4 * k + u) ls) hu hi]
  exact transposedLine_word ls hi

end Sys2Proof.Machine
end

section
/-!
SUPPORT. The loads of V registers and operand-cache entries (O11; 04 R109; 05 R140, R144 to R147).
-/

namespace Sys2Proof.Machine

open Sys2Proof Sys2Proof.Safety Sys2Proof.Claims

/-! ### Words of the VXE -/

/-- A word of the VXE that acts: its operation meets the core of `issuing`, in which the mode is noted. -/
theorem hands_of_vxeOn {i : Instr} {s : State} {x : Issue} {f : Env → Nat → Core → Core} (he : exec i s = accept i (s.vxeOn x f))
    (ha : acts i s x .vxe false = true) :
    hands i s x.core
      (f (s.env x.core) ((issuing s x .vxe false).kvi .vxe x.word) (vxBase (issuing s x .vxe false) false)) :=
  hands_of_issueOn (body := fun env c => f env (c.kvi .vxe x.word) (vxBase c false)) he ha

/-- The core with these faults to hand over. -/
def Core.withFaults (c : Core) (flt : List RawFault) : Core := { c with flt := flt }

/-- A core that differs in its faults alone leaves the same. -/
theorem leaves_of_faults {i : Instr} {s : State} {n : Nat} {c d : Core} {flt : List RawFault} (h : leaves i s n c)
    (hc : c = d.withFaults flt) : leaves i s n d := by
  subst hc
  exact h

section
variable {k : Core} {l : LineOp}

theorem Core.lineBase_clean (env : Env) (e : Engine) (kvi : Nat) (hl : lineClean k l = true) :
    k.lineBase env e kvi l = (k, if l.aen then (aVal k l.areg).v.toNat / 256 % 2 ^ 17 else 0, lineMark k l) := by
  unfold Core.lineBase lineMark
  cases haen : l.aen
  · rfl
  · have hread := Core.readA_clean env e kvi (c := k) (n := l.areg.toNat) (by simpa [lineClean, haen] using hl)
    simp only [hread, if_true, bits, Nat.shiftRight_eq_div_pow]
    rfl

/-- The lines of a word that stay within their row, column and scratchpad; the use of a poisoned A register is counted and reported. -/
theorem Core.lineSet_clean (env : Env) (kvi kind : Nat) {geo : Nat → Option (List Nat)} {ls : List Nat} (hl : lineClean k l = true)
    (hgeo : geo (lineOf k l l.line) = some ls) :
    ∃ flt, (vxBase k false).lineSet env kvi l kind geo = ((vxBase k (lineMark k l)).withFaults flt, some (ls, lineMark k l)) := by
  have hbase := Core.lineBase_clean (k := vxBase k false) env .vxe kvi hl
  have hline : lineAt (if l.aen then (aVal (vxBase k false) l.areg).v.toNat / 256 % 2 ^ 17 else 0) l.line = lineOf k l l.line := rfl
  have hmark : lineMark (vxBase k false) l = lineMark k l := rfl
  simp only [Core.lineSet, hbase, hline, hmark, hgeo]
  cases lineMark k l
  · exact ⟨_, rfl⟩
  · exact ⟨_, rfl⟩

end

theorem fourLines_eq {n : Nat} {col : Bool} (h : if col then n / 64 ≤ 2044 else n % 64 ≤ 60) :
    fourLines n col = some (fourFrom n col) := by
  cases col
  · exact if_pos h
  · exact if_pos h

theorem fourFrom_length (n : Nat) (col : Bool) : (fourFrom n col).length = 4 := by
  cases col
  · rfl
  · rfl

/-- The four lines of a strided read (05 R145). -/
def strideFrom (n : Nat) (d : Int) : List Nat :=
  [n, ((n : Int) + d).toNat, ((n : Int) + 2 * d).toNat, ((n : Int) + 3 * d).toNat]

/-- A strided read whose second and fourth lines lie in the scratchpad lies in it whole. -/
theorem strideLines_eq {n : Nat} {d : Int} (hn : n < 131072) (h1 : 0 ≤ (n : Int) + d) (h3 : 0 ≤ (n : Int) + 3 * d)
    (h1' : (n : Int) + d < 131072) (h3' : (n : Int) + 3 * d < 131072) : strideLines n d = some (strideFrom n d) := by
  have inside : ∀ m : Nat, m ≤ 3 → ((n : Int) + m * d ≥ 0 && (n : Int) + m * d < lineCount) = true := by
    intro m hm
    rw [Bool.and_eq_true, decide_eq_true_eq, decide_eq_true_eq, lineCount]
    interval_cases m
    all_goals omega
  simp only [strideLines, inside 0 (by decide), inside 1 (by decide), inside 2 (by decide), inside 3 (by decide)]
  rfl

theorem transposeLines_eq {n : Nat} {shape : Bool} (h : if shape then n / 64 + 64 ≤ 2048 else n % 64 = 0) :
    transposeLines n shape = some ((List.range 64).map fun i => n + if shape then 64 * i else i) := by
  cases shape
  · rw [transposeLines, if_neg (by simp), if_pos (by simpa using h), upFrom_zero]
    rfl
  · rw [transposeLines, if_pos rfl, if_pos (by simp at h; omega), upFrom_zero]
    rfl

theorem lineOf_lt (c : Core) (l : LineOp) (line : BitVec 17) : lineOf c l line < 131072 := Nat.mod_lt _ (by decide)

/-! ### Four lines into a register -/

theorem maxLat_eq_slowest (rl : Bool) (ls : List Nat) : maxLat rl ls = slowest rl ls := List.foldl_map

theorem Core.readWaiting_length (c : Core) (env : Env) (kvi : Nat) (rl : Bool) (ecc : List EccObs) (place last : Nat) (ls : List Nat) :
    (c.readWaiting env kvi rl ecc place last ls).2.1.length = ls.length := by
  induction ls generalizing c place last with
  | nil => rfl
  | cons y ls ih =>
    unfold Core.readWaiting
    simp only [List.length_append, Core.readLines_length, ih, List.length_cons, List.length_nil]
    omega

theorem Core.readVx_length (c : Core) (env : Env) (kvi : Nat) (rl : Bool) (ecc : List EccObs) (ls : List Nat) :
    (c.readVx env kvi rl ecc ls).2.1.length = ls.length := by
  unfold Core.readVx
  split
  · exact Core.readWaiting_length ..
  · exact Core.readLines_length ..

/-- In scheduled mode all lines are read at issue. -/
theorem Core.readVx_scheduled {c : Core} (env : Env) (kvi : Nat) (rl : Bool) {ls : List Nat} (hm : c.rn.mode ≠ 2)
    (hls : ∀ y ∈ ls, clean c ⟨5, y⟩ = true) :
    c.readVx env kvi rl [] ls = (c.readsOf .vxe kvi (some c.ids) ls, ls.map c.lineNow, c.tm.p + slowest rl ls) := by
  simp only [Core.readVx, if_neg hm, Core.readLines_clean env .vxe kvi (some c.ids) 0 hls, maxLat_eq_slowest]

section
variable {k : Core} {l : LineOp} (env : Env) (kvi : Nat) (rl : Bool) (r : Res) (extra : Nat) {geo : Nat → Option (List Nat)}
  {ls : List Nat} (lanes : List LineVal → List (Nat × Lane)) (hl : lineClean k l = true) (hgeo : geo (lineOf k l l.line) = some ls)
include hl hgeo

theorem Core.load4_scheduled (hm : k.rn.mode = 1) (hls : ∀ y ∈ ls, clean k ⟨5, y⟩ = true) :
    ∃ flt, (vxBase k false).load4 env kvi l rl [] r extra geo lanes
      = (Claims.loading (vxReads (vxBase k (lineMark k l)) kvi ls) kvi r (slowest rl ls + extra)
          (lanes (poisonLines (lineMark k l) (ls.map k.lineNow)))).withFaults flt := by
  obtain ⟨flt, hset⟩ := Core.lineSet_clean env kvi 0 hl hgeo
  have hmode : ((vxBase k (lineMark k l)).withFaults flt).rn.mode ≠ 2 := by
    change k.rn.mode ≠ 2
    omega
  refine ⟨flt, ?_⟩
  simp only [Core.load4, hset]
  rw [Core.readVx_scheduled env kvi rl hmode hls, Nat.add_assoc]
  rfl

/-- In any mode the register is under way. -/
theorem Core.load4_posts (h4 : ls.length = 4) (hlanes : ∀ vs : List LineVal, vs.length = 4 → (lanes vs).length = 256) :
    ∃ w ∈ ((vxBase k false).load4 env kvi l rl [] r extra geo lanes).pend,
      ∃ b, w.res = r ∧ w.eng = .vxe ∧ w.pay = .lanes b ∧ b.length = 256 := by
  obtain ⟨flt, hset⟩ := Core.lineSet_clean env kvi 0 hl hgeo
  simp only [Core.load4, hset]
  refine ⟨_, List.mem_append_right _ List.mem_cons_self, _, rfl, rfl, rfl, hlanes _ ?_⟩
  rw [poisonLines, List.length_map, Core.readVx_length, h4]

end

/-- What a load of four lines leaves, in scheduled mode and in service mode. -/
theorem loads_of_load4 {i : Instr} {s : State} {x : Issue} {l : LineOp} {rl : Bool} {r : Res} {extra : Nat}
    {geo : Nat → Option (List Nat)} {lanes : List LineVal → List (Nat × Lane)} {ls : List Nat} {byte : Nat → Byte} {bad : Nat → Bool}
    (he : exec i s = accept i (s.vxeOn x fun env kvi c => c.load4 env kvi l rl [] r extra geo lanes)) (h4 : ls.length = 4)
    (hlanes : ∀ vs : List LineVal, vs.length = 4 → (lanes vs).length = 256)
    (hgeo : geo (lineOf (issuing s x .vxe false) l l.line) = some ls)
    (hbyte : ∀ j, j < 1024 → laneByte (lanes (poisonLines (lineMark (issuing s x .vxe false) l)
      (ls.map (issuing s x .vxe false).lineNow))) j (byte j) (bad j)) :
    let k := issuing s x .vxe false
    let kvi := k.kvi .vxe x.word
    acts i s x .vxe false = true → lineClean k l = true →
      (k.rn.mode = 1 → (∀ y ∈ ls, clean k ⟨5, y⟩ = true) →
        ∃ b, leaves i s x.core (loading (vxReads (vxBase k (lineMark k l)) kvi ls) kvi r (slowest rl ls + extra) b)
          ∧ b.length = 256 ∧ ∀ j, j < 1024 → laneByte b j (byte j) (bad j))
      ∧ (k.rn.mode = 2 → ∃ u w b, exec i s = .next u ∧ othersKept s u x.core ∧ w ∈ (u.core x.core).pend
        ∧ w.res = r ∧ w.eng = .vxe ∧ w.pay = .lanes b ∧ b.length = 256) := by
  intro k kvi ha hl
  obtain ⟨hleaves, -⟩ := hands_of_vxeOn he ha
  refine ⟨fun hm hls => ?_, fun _ => ?_⟩
  · obtain ⟨flt, hload⟩ := Core.load4_scheduled (s.env x.core) kvi rl r extra lanes hl hgeo hm hls
    exact ⟨_, leaves_of_faults hleaves hload, hlanes _ (by simp [poisonLines, h4]), hbyte⟩
  · obtain ⟨u, hnext, hcore, hkept⟩ := hleaves
    obtain ⟨w, hw, b, hres, heng, hpay, hlen⟩ := Core.load4_posts (s.env x.core) kvi rl r extra lanes hl hgeo h4 hlanes
    exact ⟨u, w, b, hnext, hkept, hcore ▸ hw, hres, heng, hpay, hlen⟩

theorem linesToLanes_four {vs : List LineVal} (h : vs.length = 4) : (linesToLanes 0 vs).length = 256 := by
  rw [linesToLanes_length, h]

theorem strideLanes_length (w : BitVec 2) (b0 : Nat) (vs : List LineVal) : (strideLanes w b0 vs).length = 256 := by
  simp [strideLanes_eq]

/-- The elements of a strided read that the loader admits lie in their lines whole (05 R145). -/
theorem strideWidth_fits {x : Issue} {d : VDest} {l : LineOp} {stride : BitVec 14} {w b0 : BitVec 2} {rl : Bool} {ecc : List EccObs}
    (h : (Instr.vldStrided x d l stride w b0 rl ecc).wf = true) : b0.toNat + strideWidth w ≤ 4 := by
  have hf : (Instr.vldStrided x d l stride w b0 rl ecc).fieldsOk = true := (Bool.and_eq_true_iff.1 h).2
  simp only [Instr.fieldsOk, Bool.and_eq_true, Bool.or_eq_true, decide_eq_true_eq] at hf
  obtain ⟨⟨⟨⟨-, hw0⟩, hw1⟩, -⟩, -⟩ := hf
  have hb := b0.isLt
  unfold strideWidth
  split
  next hw =>
    have hb0 : b0 = 0 := hw0.resolve_left fun h => h hw
    simp [hb0]
  next hw =>
    split
    next hw' =>
      have heven : b0.toNat % 2 = 0 := hw1.resolve_left fun h => h hw'
      omega
    next => omega

theorem vectorLoadsReadTheirLines : VectorLoadsReadTheirLines := by
  intro s x v e l col rl stride w b0 d k kvi n mark loads ls image marks sl wd strided smarks
  refine ⟨fun hgeo => ⟨?_, ?_⟩, fun h1 h3 h1' h3' ha => ?_⟩
  case refine_3 =>
    have hfit := strideWidth_fits (wf_of_fit (Bool.and_eq_true_iff.1 (Bool.and_eq_true_iff.1 ha).1).1)
    have hgeo := strideLines_eq (lineOf_lt k l l.line) h1 h3 h1' h3'
    cases d
    all_goals
      exact loads_of_load4 rfl rfl (fun vs _ => strideLanes_length w b0.toNat vs) hgeo
        (fun j hj => laneByte_strideLanes k mark rfl hfit hj) ha
  all_goals
    exact loads_of_load4 rfl (fourFrom_length n col) (fun _ => linesToLanes_four) (fourLines_eq hgeo)
      fun j hj => laneByte_linesToLanes k mark (fourFrom_length n col) hj

end Sys2Proof.Machine
end

section
/-!
SUPPORT. The transposing form of VLD (O11; 05 R147).
-/

namespace Sys2Proof.Machine

open Sys2Proof Sys2Proof.Safety Sys2Proof.Claims

/-- The sixteen register writes of a transposing read stand one behind the other, each a ccyc after the one before. -/
theorem Core.postTile_eq (c : Core) (kvi v n : Nat) :
    c.postTile kvi v n =
      ({ c with
          pend := c.pend ++ (List.range n).map fun j => ⟨c.ids + j, ⟨3, v + j⟩, c.tm.p, c.tm.p + 30 + j, .vxe, kvi, .lanes [], true⟩
          ids := c.ids + n },
        (List.range n).map fun j => c.ids + j) := by
  induction n with
  | zero => simp [Core.postTile]
  | succ n ih => simp [Core.postTile, ih, Core.postVld, List.range_succ, Nat.add_assoc]

/-- What names a transposing read: its registers, its lines and the width of its elements. -/
def TrOp.order (o : TrOp) : Nat × List Nat × List Nat × Nat := (o.id, o.dests, o.src, o.tw)

/-- The first reads of a transposing read go to its lines alone: they touch no register, and no write under way. -/
theorem Core.transposeStep_reads (c : Core) (env : Env) (op : Nat) :
    let u := c.transposeStep env op 0
    u.vx.tr.map TrOp.order = c.vx.tr.map TrOp.order ∧ u.pend = c.pend ∧ u.regs = c.regs ∧ u.mem = c.mem ∧ u.tl = c.tl := by
  unfold Core.transposeStep
  split
  · exact ⟨rfl, rfl, rfl, rfl, rfl⟩
  next o _ =>
    have hwork := c.readLines_work env .vxe o.kvi (some op) o.ecc (4 * 0) ((o.src.drop (4 * 0)).take 4)
    simp only [Core.work, Prod.mk.injEq] at hwork
    obtain ⟨-, hregs, hmem, hpend, htl, hvx, -⟩ := hwork
    dsimp only
    rw [if_pos (by decide)]
    refine ⟨?_, hpend, hregs, hmem, htl⟩
    change ((List.map _ (Core.readLines _ _ _ _ _ _ _ _).1.vx.tr).map TrOp.order) = _
    rw [hvx, List.map_map]
    refine List.map_congr_left fun y _ => ?_
    simp only [Function.comp_apply]
    split
    all_goals rfl

/-- The core that has taken a transposing read of the lines `ls`: its sixteen writes are under way, and its first reads are due. -/
def Core.takeTile (c : Core) (kvi v tw : Nat) (ls : List Nat) (p : Bool) : Core :=
  { c with
    pend := c.pend ++ (List.range 16).map fun j => ⟨c.ids + j, ⟨3, v + j⟩, c.tm.p, c.tm.p + 30 + j, .vxe, kvi, .lanes [], true⟩
    ids := c.ids + 16 + 1
    vx := { c.vx with tr := c.vx.tr ++ [TrOp.mk (c.ids + 16) kvi ls tw ((List.range 16).map fun j => c.ids + j) [] false p []] } }

/-- A transposing read that acts takes its tile, and reads its first lines. -/
theorem leaves_vldTranspose {s : State} {x : Issue} {v : BitVec 6} {l : LineOp} {tw : BitVec 2} {tshape rl : Bool} {ls : List Nat}
    (ha : acts (.vldTranspose x v l tw tshape rl []) s x .vxe false = true) (hl : lineClean (issuing s x .vxe false) l = true)
    (hgeo : transposeLines (lineOf (issuing s x .vxe false) l l.line) tshape = some ls) :
    let k := issuing s x .vxe false
    let taken := (vxBase k (lineMark k l)).takeTile (k.kvi .vxe x.word) v.toNat tw.toNat ls (lineMark k l)
    ∃ flt, leaves (.vldTranspose x v l tw tshape rl []) s x.core
      ((taken.withFaults flt).transposeStep (s.env x.core) (k.ids + 16) 0) := by
  obtain ⟨hleaves, -⟩ := hands_of_vxeOn rfl ha
  obtain ⟨flt, hset⟩ := Core.lineSet_clean (k := issuing s x .vxe false) (geo := fun n => transposeLines n tshape) (s.env x.core)
    ((issuing s x .vxe false).kvi .vxe x.word) 0 hl hgeo
  simp only [hset, Core.postTile_eq] at hleaves
  exact ⟨flt, hleaves⟩

/-- After the first reads of the tile one more transposing read is under way, with its lines and registers. -/
theorem Core.takeTile_order (c : Core) (kvi v tw : Nat) (ls : List Nat) (p : Bool) (flt : List RawFault) (env : Env) :
    let u := ((c.takeTile kvi v tw ls p).withFaults flt).transposeStep env (c.ids + 16) 0
    u.vx.tr.length = c.vx.tr.length + 1
      ∧ ∃ op ∈ u.vx.tr, op.order = (c.ids + 16, (List.range 16).map fun j => c.ids + j, ls, tw) := by
  intro u
  have htr : u.vx.tr.map TrOp.order = _ := (Core.transposeStep_reads ..).1
  constructor
  · have hlen := congrArg List.length htr
    rw [List.length_map, List.length_map] at hlen
    exact hlen.trans (List.length_append ..)
  · refine List.mem_map.1 (htr ▸ ?_)
    exact List.mem_map_of_mem (List.mem_append_right c.vx.tr List.mem_cons_self)

theorem transposingLoadWritesSixteenRegisters : TransposingLoadWritesSixteenRegisters := by
  refine ⟨?_, fun ls k u i _ _ hu hi => ⟨_, mem_transposedReg ls k hu hi⟩⟩
  intro s x v l tw tshape rl k kvi n ls ha hl hgeo
  obtain ⟨flt, u, hnext, hcore, hkept⟩ := leaves_vldTranspose ha hl (transposeLines_eq hgeo)
  obtain ⟨-, hpend, hregs, hmem, htl⟩ := Core.transposeStep_reads
    (((vxBase k (lineMark k l)).takeTile kvi v.toNat tw.toNat ls (lineMark k l)).withFaults flt) (s.env x.core) (k.ids + 16)
  obtain ⟨hlen, op, hop, horder⟩ := (vxBase k (lineMark k l)).takeTile_order kvi v.toNat tw.toNat ls (lineMark k l) flt (s.env x.core)
  simp only [TrOp.order, Prod.mk.injEq] at horder
  obtain ⟨-, hdests, hsrc, htw⟩ := horder
  refine ⟨u, op, hnext, hkept, ?_⟩
  rw [hcore]
  exact ⟨hpend, hlen, hop, hdests, hsrc, htw, hregs, hmem, congrArg (·.t) htl⟩

/-- Settles O11: a load of four lines by its lines and its bytes, a transposing read by its writes and its words. -/
theorem vectorLoadsWriteTheirRegisters : Obligations.VectorLoadsWriteTheirRegisters :=
  ⟨vectorLoadsReadTheirLines, transposingLoadWritesSixteenRegisters⟩

end Sys2Proof.Machine
end

section
/-!
SUPPORT. VST, OCPUT and LUTLD (O12; 04 R107, R109, R123, R134).
-/

namespace Sys2Proof.Machine

open Sys2Proof Sys2Proof.Safety Sys2Proof.Claims

/-! ### The lines of a V register -/

/-- Lanes 64 u to 64 u + 63 of a V register are line u of its image. -/
theorem lanesOf_line (m : SMap Lane) (r : Nat) {u : Nat} (hu : u < 4) :
    ((lanesOf m r).drop (64 * u)).take 64 = (List.range 64).map fun i => tget Lane.zero m (256 * r + (64 * u + i)) := by
  apply List.ext_getElem
  · simp [lanesOf_eq]
    omega
  · intro i h1 h2
    simp [lanesOf_eq]

theorem laneLine_lanesOf (m : SMap Lane) (r : Nat) {u : Nat} (hu : u < 4) :
    laneLine (lanesOf m r) u
      = ((List.range 64).flatMap fun i => leBytes (tget Lane.zero m (256 * r + (64 * u + i))).v.toNat 4,
        (List.range 64).any fun i => (tget Lane.zero m (256 * r + (64 * u + i))).p) := by
  simp only [laneLine, lanesBytes, lanesOf_line m r hu, List.flatMap_map, List.any_map]
  rfl

/-! ### VST -/

/-- The core that has taken the write of line `j` of a VST. -/
def Core.storeLine (c : Core) (kvi : Nat) (lanes : List Lane) (p : Bool) (line j : Nat) : Core :=
  { c with
    pend := c.pend ++ [⟨c.ids, ⟨5, line⟩, c.tm.p + j / 2, c.tm.p + j / 2 + 2, .vxe, kvi,
      .bytes 0 (laneLine lanes j).1 ((laneLine lanes j).2 || p), false⟩]
    ids := c.ids + 1
    ck := { c.ck with acc := c.ck.acc ++ [⟨c.tm.p + j / 2, .vxe, true, line, kvi, some c.ids⟩] } }

/-- The writes of lines 0 to m - 1 by VST stand one behind the other. -/
theorem Core.storeLines_eq (c : Core) (kvi : Nat) (lanes : List Lane) (p : Bool) (line : Nat → Nat) (m : Nat) :
    (List.range m).foldl (fun c j => c.storeLine kvi lanes p (line j) j) c =
      { c with
        pend := c.pend ++ (List.range m).map fun j => ⟨c.ids + j, ⟨5, line j⟩, c.tm.p + j / 2, c.tm.p + j / 2 + 2, .vxe, kvi,
          .bytes 0 (laneLine lanes j).1 ((laneLine lanes j).2 || p), false⟩
        ids := c.ids + m
        ck := { c.ck with
          acc := c.ck.acc ++ (List.range m).map fun j => ⟨c.tm.p + j / 2, .vxe, true, line j, kvi, some (c.ids + j)⟩ } } := by
  induction m with
  | zero => simp
  | succ m ih =>
    rw [List.range_succ, List.foldl_append, ih]
    simp [Core.storeLine, Nat.add_assoc]

/-- The four lines of a geometry, numbered. -/
theorem fourFrom_zipIdx (n : Nat) (col : Bool) : (fourFrom n col).zipIdx = (List.range 4).map fun j => ((fourFrom n col).getD j 0, j) := by
  cases col
  · rfl
  · rfl

/-- A VST that acts takes the writes of its four lines one after the other. -/
theorem leaves_vst {s : State} {x : Issue} {v : BitVec 6} {l : LineOp} {col : Bool}
    (ha : acts (.vst x v l col) s x .vxe false = true) (hv : clean (issuing s x .vxe false) ⟨3, v.toNat⟩ = true)
    (hl : lineClean (issuing s x .vxe false) l = true) {ls : List Nat}
    (hgeo : fourLines (lineOf (issuing s x .vxe false) l l.line) col = some ls) :
    let k := issuing s x .vxe false
    ∃ flt, leaves (.vst x v l col) s x.core (ls.zipIdx.foldl
      (fun c y => c.storeLine (k.kvi .vxe x.word) (lanesOf k.regs.v v.toNat) (lineMark k l) y.1 y.2)
      ((vxBase k (lineMark k l)).withFaults flt)) := by
  obtain ⟨hleaves, -⟩ := hands_of_vxeOn rfl ha
  have hread := Core.readV_clean (c := vxBase (issuing s x .vxe false) false) (s.env x.core) .vxe
    ((issuing s x .vxe false).kvi .vxe x.word) hv
  obtain ⟨flt, hset⟩ := Core.lineSet_clean (k := issuing s x .vxe false) (geo := fun n => fourLines n col) (s.env x.core)
    ((issuing s x .vxe false).kvi .vxe x.word) 1 hl hgeo
  simp only [hread, hset] at hleaves
  exact ⟨flt, hleaves⟩

theorem vst_writes {s : State} {x : Issue} {v : BitVec 6} {l : LineOp} {col : Bool}
    (ha : acts (.vst x v l col) s x .vxe false = true) (hv : clean (issuing s x .vxe false) ⟨3, v.toNat⟩ = true)
    (hl : lineClean (issuing s x .vxe false) l = true)
    (hgeo : let n := lineOf (issuing s x .vxe false) l l.line; if col then n / 64 ≤ 2044 else n % 64 ≤ 60) :
    let k := issuing s x .vxe false
    let kvi := k.kvi .vxe x.word
    let line := fun (u : Nat) => (fourFrom (lineOf k l l.line) col).getD u 0
    let image := fun (u : Nat) => laneLine (lanesOf k.regs.v v.toNat) u
    ∃ u, exec (.vst x v l col) s = .next u ∧ othersKept s u x.core
      ∧ (u.core x.core).regs = k.regs ∧ (u.core x.core).mem = k.mem ∧ (u.core x.core).tl = k.tl
      ∧ (u.core x.core).pend = k.pend ++ (List.range 4).map (fun j => ⟨k.ids + j, ⟨5, line j⟩, k.tm.p + j / 2, k.tm.p + j / 2 + 2,
        .vxe, kvi, .bytes 0 (image j).1 ((image j).2 || lineMark k l), false⟩)
      ∧ (u.core x.core).ck.acc = k.ck.acc ++ (List.range 4).map (fun j =>
        ⟨k.tm.p + j / 2, .vxe, true, line j, kvi, some (k.ids + j)⟩) := by
  intro k kvi line image
  obtain ⟨flt, u, hnext, hcore, hkept⟩ := leaves_vst ha hv hl (fourLines_eq hgeo)
  rw [fourFrom_zipIdx, List.foldl_map, Core.storeLines_eq] at hcore
  refine ⟨u, hnext, hkept, ?_⟩
  rw [hcore]
  exact ⟨rfl, rfl, rfl, rfl, rfl⟩

/-! ### OCPUT and LUTLD -/

theorem ocput_copies {s : State} {x : Issue} {v : BitVec 6} {e : BitVec 9} (ha : acts (.ocput x v e) s x .vxe false = true)
    (hv : clean (issuing s x .vxe false) ⟨3, v.toNat⟩ = true) :
    let k := issuing s x .vxe false
    leaves (.ocput x v e) s x.core (writing (vxBase k false) .vxe (k.kvi .vxe x.word) ⟨4, e.toNat⟩ 2
      (.lanes ((List.range 256).map fun i => (i, tget Lane.zero k.regs.v (256 * v.toNat + i))))) := by
  obtain ⟨hleaves, -⟩ := hands_of_vxeOn rfl ha
  have hread := Core.readV_clean (c := vxBase (issuing s x .vxe false) false) (s.env x.core) .vxe
    ((issuing s x .vxe false).kvi .vxe x.word) hv
  simp only [hread, lanesOf_eq, numbered_range] at hleaves
  exact hleaves

/-- The activation table that LUTLD makes of an entry and its bounds, none of them poisoned (04 R123). -/
def tableOf (lo hi : W64) (knots : List Lane) (entry : Nat) : ActTable :=
  let l : W32 := lo.truncate 32
  let h : W32 := hi.truncate 32
  ⟨actValid l h, l, h, actScale l h, knots, entry⟩

theorem lutld_takes_table {s : State} {x : Issue} {slo shi : BitVec 6} {e : BitVec 9}
    (ha : acts (.lutld x slo shi e) s x .vxe false = true) (hlo : clean (issuing s x .vxe false) ⟨0, slo.toNat⟩ = true)
    (hhi : clean (issuing s x .vxe false) ⟨0, shi.toNat⟩ = true) (he : clean (issuing s x .vxe false) ⟨4, e.toNat⟩ = true)
    (hplo : (sVal (issuing s x .vxe false) slo).p = false) (hphi : (sVal (issuing s x .vxe false) shi).p = false) :
    let k := issuing s x .vxe false
    leaves (.lutld x slo shi e) s x.core ((vxBase k false).later 2
      (.lut (tableOf (sVal k slo).v (sVal k shi).v (lanesOf k.regs.oc e.toNat) e.toNat))) := by
  obtain ⟨hleaves, -⟩ := hands_of_vxeOn rfl ha
  have hreadLo := Core.readS_clean (c := vxBase (issuing s x .vxe false) false) (s.env x.core) .vxe
    ((issuing s x .vxe false).kvi .vxe x.word) hlo
  have hreadHi := Core.readS_clean (c := vxBase (issuing s x .vxe false) false) (s.env x.core) .vxe
    ((issuing s x .vxe false).kvi .vxe x.word) hhi
  have hreadOc := Core.readOc_clean (c := vxBase (issuing s x .vxe false) false) (s.env x.core) .vxe
    ((issuing s x .vxe false).kvi .vxe x.word) none he
  have hmarkLo : (tget (⟨0, false⟩ : SVal) (vxBase (issuing s x .vxe false) false).regs.s slo.toNat).p = false := hplo
  have hmarkHi : (tget (⟨0, false⟩ : SVal) (vxBase (issuing s x .vxe false) false).regs.s shi.toNat).p = false := hphi
  simp only [hreadLo, hreadHi, hreadOc, hmarkLo, hmarkHi, Core.usePoison, Bool.or_false, ne_eq, not_true_eq_false,
    Bool.false_eq_true, if_false, List.map_id'] at hleaves
  exact hleaves

/-- Settles O12: the lines of VST one by one, OCPUT by its copy, LUTLD by its table. -/
theorem vectorStoresAndTables : Obligations.VectorStoresAndTables := by
  intro s x v e l col slo shi k kvi n lane oc line data marked
  refine ⟨fun ha hv hl hgeo => ?_, ocput_copies, fun ha hlo hhi he hplo hphi => ?_⟩
  · obtain ⟨u, hnext, hkept, hregs, hmem, htl, hpend, hacc⟩ := vst_writes ha hv hl hgeo
    refine ⟨u, hnext, hkept, hregs, hmem, htl, hpend.trans ?_, hacc⟩
    refine congrArg (k.pend ++ ·) (List.map_congr_left fun j hj => ?_)
    simp only [laneLine_lanesOf _ _ (List.mem_range.1 hj)]
    rfl
  · exact ⟨_, lutld_takes_table ha hlo hhi he hplo hphi, rfl, rfl, lanesOf_eq ..⟩

end Sys2Proof.Machine
end

section
/-!
SUPPORT. VOP: the chain that is taken for its stamp, and what its stages MUL, ADD and SHF compute (O13, O14; 04 R109, R113 to R115, R119,
R131).
-/

namespace Sys2Proof.Machine

open Sys2Proof Sys2Proof.Safety Sys2Proof.Claims

/-! ### A chain is taken -/

/-- What names a chain: its number, its stamp, its entry, its operands and its guard. -/
def VxOp.order (o : VxOp) : Nat × Nat × Chain × VopFields × Option Guard := (o.id, o.stamp, o.chain, o.f, o.guard)

theorem Core.readEarly_work (c : Core) (env : Env) (o : VxOp) (entry : Nat) : (c.readEarly env o entry).1.work = c.work := by
  have hread := c.readOc_work env .vxe o.kvi entry (some o.dest)
  unfold Core.readEarly
  dsimp only
  split
  · exact hread
  · rfl

/-- The reads of operand-cache entries ahead of the stamp touch no register, and bring the chain its operands alone. -/
theorem Core.ocReads_keeps (c : Core) (env : Env) (o : VxOp) (l : List (Nat × Nat)) :
    (c.ocReads env o l).1.work = c.work ∧ (c.ocReads env o l).2.order = o.order := by
  induction l generalizing c o with
  | nil => exact ⟨rfl, rfl⟩
  | cons y l ih =>
    unfold Core.ocReads
    split
    · obtain ⟨hwork, horder⟩ := ih (c.readEarly env o y.1).1
        { o with
          early := o.early ++ (c.readEarly env o y.1).2.1
          vals := o.vals ++ [(⟨4, y.1⟩, (c.readEarly env o y.1).2.2)] }
      exact ⟨hwork.trans (c.readEarly_work env o y.1), horder⟩
    · exact ih ..

/-- The writes of a chain: V[VD], and S[SD] where RED names one (04 R113). -/
def Core.chainWrites (c : Core) (kvi : Nat) (f : VopFields) (ch : Chain) : List PWrite :=
  [⟨c.ids, ⟨3, f.vd.toNat⟩, c.tm.p + 1, c.tm.p + 3 + chainLat ch.stages, .vxe, kvi, .lanes [], false⟩]
    ++ if f.sde ∧ 6 ∈ ch.stages then
      [⟨c.ids + 1, ⟨0, f.sd.toNat⟩, c.tm.p + 1, c.tm.p + 5 + chainLat ch.stages, .vxe, kvi, .s 0 false, false⟩] else []

/-- The core that has put a chain ahead: it issues in the next ccyc. -/
def Core.putChain (c : Core) (o : VxOp) : Core :=
  Core.later { c with vx := { c.vx with ops := c.vx.ops ++ [o] } } 1 (.stage o.id 0)

theorem Core.takeChain_takes (c : Core) (env : Env) (kvi : Nat) (g : Option Guard) (f : VopFields) (ch : Chain) :
    ∃ c' o, c.takeChain env kvi g f ch = Core.putChain c' o
      ∧ c'.work = (c.tm, c.regs, c.mem, c.pend ++ c.chainWrites kvi f ch, c.tl, c.vx, c.ids + (c.chainWrites kvi f ch).length + 1)
      ∧ o.order = (c.ids + (c.chainWrites kvi f ch).length, c.tm.p + 1, ch, f, g) := by
  have hcond : (ch.stages.contains 6 && f.sde) = decide (f.sde ∧ 6 ∈ ch.stages) := by
    simp [Bool.and_comm, Bool.decide_and]
  unfold Core.takeChain Core.chainWrites
  simp only [hcond, Core.post]
  by_cases hred : f.sde ∧ 6 ∈ ch.stages
  · simp only [hred, and_self, decide_true, if_true, ← List.append_assoc]
    exact ⟨_, _, rfl, (Core.ocReads_keeps ..).1, (Core.ocReads_keeps ..).2⟩
  · simp only [hred, decide_false, Bool.false_eq_true, if_false, List.append_nil]
    exact ⟨_, _, rfl, (Core.ocReads_keeps ..).1, (Core.ocReads_keeps ..).2⟩

theorem chainLat_eq (stages : List Nat) : chainLat stages = (stages.map fun st => [2, 3, 3, 1, 6, 2, 8, 3].getD st 3).sum := by
  refine congrArg List.sum (List.map_congr_left fun st _ => ?_)
  rcases st with _ | _ | _ | _ | _ | _ | _ | _ | st
  all_goals rfl

theorem chainsAreTakenForTheirStamp : ChainsAreTakenForTheirStamp := by
  intro s x f word k kvi ch lat ha hword
  obtain ⟨⟨u, hnext, hcore, hkept⟩, -⟩ := hands_of_issueOn rfl ha
  obtain ⟨c, o, htaken, hwork, horder⟩ := Core.takeChain_takes k (s.env x.core) kvi x.guard f ch
  simp only [hword] at hcore
  rw [show Core.takeChain _ _ _ _ _ _ = _ from htaken] at hcore
  simp only [Core.work, Prod.mk.injEq] at hwork
  obtain ⟨htm, hregs, hmem, hpend, htl, hvx, -⟩ := hwork
  simp only [VxOp.order, Prod.mk.injEq] at horder
  obtain ⟨-, hstamp, hchain, hf, hguard⟩ := horder
  refine ⟨u, o, .lanes [], hnext, hkept, ?_⟩
  rw [hcore]
  refine ⟨hregs, hmem, htl, hpend.trans ?_, congrArg (fun v : Vxe => v.ops ++ [o]) hvx, hstamp, hchain, hf, hguard, ?_⟩
  · rw [Core.chainWrites, chainLat_eq, ← List.append_assoc]
  · rw [← htm]
    exact List.mem_append_right _ List.mem_cons_self

/-! ### What stages compute -/

/-- A stage of two operands computes its result in each lane. -/
theorem zipLanes_lane (g : Lane → Lane → LaneOut) {a b : List Lane} {i : Nat} (ha : i < a.length) (hb : i < b.length) :
    (zipLanes g a b)[i]? = some (g (a.getD i Lane.zero) (b.getD i Lane.zero)) := by
  simp [zipLanes, List.getD_eq_getElem?_getD, ha, hb]

theorem stagesComputeLaneByLane : StagesComputeLaneByLane := by
  intro a b form i ha hb hi va vb
  exact ⟨⟨_, zipLanes_lane _ (by omega) (by omega)⟩, ⟨_, zipLanes_lane _ (by omega) (by omega)⟩⟩

/-- Settles O13: a chain that is taken keeps its operands while it reads the operand cache, and MUL and ADD act on each pair of
lanes. -/
theorem chainsRunThroughTheirStages : Obligations.ChainsRunThroughTheirStages :=
  ⟨chainsAreTakenForTheirStamp, stagesComputeLaneByLane⟩

theorem stageShf_lane (pat : W64) (a : List Lane) {i : Nat} (hi : i < 256) :
    (stageShf pat a)[i]? = some (a.getD (16 * (i / 16) + bits pat.toNat (4 * (i % 16)) 4) Lane.zero, VFlags.none) := by
  simp [stageShf, upFrom_zero, hi]

/-- Settles O14: lane 16 g + k lies in group g at place k. -/
theorem shufflesMoveLanesWithinGroups : Obligations.ShufflesMoveLanesWithinGroups := by
  intro a pat g k _ hg hk
  have hgroup : (16 * g + k) / 16 = g := by omega
  have hplace : (16 * g + k) % 16 = k := by omega
  have hpat : bits pat.toNat (4 * k) 4 = (pat.extractLsb' (4 * k) 4).toNat := by
    rw [BitVec.extractLsb'_toNat]
    rfl
  have hlane := stageShf_lane pat a (i := 16 * g + k) (by omega)
  rw [hgroup, hplace, hpat] at hlane
  exact ⟨_, hlane⟩

end Sys2Proof.Machine
end

section
/-!
SUPPORT. Packets that come to the landing unit (O23; 05 R154 to R157, R161).
-/

namespace Sys2Proof.Machine

open Sys2Proof Sys2Proof.Safety Sys2Proof.Claims

/-! ### A packet comes to its core -/

theorem reached_take (s : State) (n delta pkt : Nat) : reached (s.take pkt) n delta = reached s n delta := rfl

/-- A packet whose turn has come, and for which the buffer has room, acts on its core alone. -/
theorem exec_landingArrival_line {s : State} {n delta pkt : Nat} {p : LinePkt} (hf : fit (.landingArrival n delta pkt) s = true)
    (hmsg : s.msg pkt = some (.line n p)) (hturn : s.inTurn pkt (.line n p) = true) (hfence : s.fenced = false)
    (hroom : p.sched = true ∨ (reached s n delta).lu.level + (splitLines p.addr p.data).length ≤ 256) :
    exec (.landingArrival n delta pkt) s = .next ((s.take pkt).onCore n fun _ _ => (reached s n delta).arrive p) := by
  have hnow : Core.comeTo { s.core n with fc := s.freeCtr } (s.env n) delta = reached s n delta := rfl
  have hfits : ¬ ((!p.sched && !decide (256 ≥ (reached s n delta).lu.level + (splitLines p.addr p.data).length)) = true) := by
    rcases hroom with h | h
    · simp [h]
    · simp [h]
  have hact : (s.take pkt).onCore n (fun env x => (x.comeTo env delta).arrive p)
      = (s.take pkt).onCore n fun _ _ => (reached s n delta).arrive p := by
    rw [State.onCore_const, ← reached_take s n delta pkt]
    rfl
  refine exec_next (wf_of_fit hf) ?_
  rw [exec_landingArrival, execLandingArrival]
  simp only [gated_of_fit hf, hmsg, Option.elim_some, hturn, hfence, hnow, if_neg hfits, hact, Bool.not_true, Bool.or_false,
    Bool.false_eq_true, ne_eq, not_true_eq_false, if_false]

/-- A packet that needs no window, or whose window admits it, is held. -/
theorem Core.arrive_holds {c : Core} {p : LinePkt} {w : Option Nat}
    (hw : (w = none ∧ (p.kind = .dma ∨ p.kind = .datom ∨ p.kind = .host))
      ∨ ∃ m, w = some m ∧ (p.kind = .write ∨ ∃ q, p.kind = .record q)
        ∧ c.lu.check p.addr p.data.length p.src.fabric = .ok m) : c.arrive p = c.hold p w := by
  rcases hw with ⟨rfl, hkind⟩ | ⟨m, rfl, hkind, hwin⟩
  · have hfree : p.kind.checked = false := by
      rcases hkind with h | h | h
      all_goals rw [h]; rfl
    simp [Core.arrive, hfree]
  · have hcheck : p.kind.checked = true := by
      rcases hkind with h | ⟨q, h⟩
      all_goals rw [h]; rfl
    simp [Core.arrive, hcheck, hwin]

/-- A packet with payload is held behind those before it, and nothing else is done for it yet. -/
theorem Core.hold_keeps (c : Core) {p : LinePkt} (w : Option Nat) (hdata : p.data ≠ []) :
    dataKept (c.hold p w) c ∧ (c.hold p w).lu.buf = c.lu.buf ++ [⟨c.lu.arrNo, p, splitLines p.addr p.data, w⟩]
      ∧ (c.hold p w).lu.rejCnt = c.lu.rejCnt ∧ (c.hold p w).tx = c.tx ∧ (c.hold p w).flt = c.flt := by
  have hne : p.data.isEmpty = false := by simpa using hdata
  simp [Core.hold, hne, dataKept]

/-- What LW_REJ_SRC holds of a packet that is rejected (05 R164). -/
theorem rejSrc_fields (src : Source) (cause : Nat) :
    fld src.dev 0 12 + fld src.core 12 8 + fld (b2n src.fabric) 20 1 + fld cause 21 3
      = src.dev % 4096 + 4096 * (src.core % 256) + (if src.fabric then 2 ^ 20 else 0) + 2 ^ 21 * (cause % 8) := by
  simp only [fld, Nat.shiftLeft_eq]
  cases src.fabric
  · simp [b2n]
    omega
  · simp [b2n]
    omega

theorem Core.arrive_rejected {c : Core} {p : LinePkt} {cause : Nat} (hkind : p.kind = .write)
    (hwin : c.lu.check p.addr p.data.length p.src.fabric = .error cause) :
    c.arrive p = c.reject p.src cause .write p.addr p.reply := by
  simp [Core.arrive, hkind, PktKind.checked, hwin]

theorem packetsEnterTheLandingBuffer : PacketsEnterTheLandingBuffer := by
  intro s n delta pkt p i k goes hf hmsg hturn hfence hdata hroom
  have hexec := exec_landingArrival_line hf hmsg hturn hfence hroom
  refine ⟨fun w hw => ?_, fun cause hkind hwin => ?_⟩
  · obtain ⟨hkept, hbuf, hrej, htx, hflt⟩ := k.hold_keeps w hdata
    rw [Core.arrive_holds hw] at hexec
    exact ⟨k.hold p w, ⟨hexec, hkept⟩, hbuf, hrej, htx, hflt⟩
  · rw [Core.arrive_rejected hkind hwin] at hexec
    exact ⟨_, ⟨hexec, rfl, rfl, rfl, rfl⟩, rfl, satAdd_one_toNat _, congrArg (BitVec.ofNat 32) (rejSrc_fields ..), rfl, rfl⟩

end Sys2Proof.Machine
end

section
/-!
SUPPORT. Lines that the landing unit places at the end of a ccyc, and how they become visible (O23; 05 R154, R157, R190).
-/

namespace Sys2Proof.Machine

open Sys2Proof Sys2Proof.Safety Sys2Proof.Claims

/-! ### The end of a ccyc -/

/-- The core whose landing unit has nothing more to do at the end of this ccyc. -/
def Core.idled (c : Core) : Core := { c with lu := { c.lu with place := none, serve := none, atom := none } }

theorem Core.atomWrite_none {c : Core} (h : c.lu.atomW = none) : c.atomWrite = c := by
  simp [Core.atomWrite, h]

section
variable {c : Core} (env : Env)

theorem Core.landEnd_place {ecc : List EccObs} (hp : c.lu.place = some ecc) (hs : c.lu.serve = none) (ha : c.lu.atom = none)
    (hw : c.lu.atomW = none) : c.landEnd env = (Core.placeLines env ecc 2 0 c.lu.order c.idled).finishHeld := by
  have h : c.idled.atomWrite = c.idled := Core.atomWrite_none hw
  simp only [Core.landEnd, hp, hs, ha]
  change (Core.placeLines env ecc 2 0 c.idled.atomWrite.lu.order c.idled.atomWrite).finishHeld = _
  rw [h]
  rfl

theorem Core.landEnd_serve {ecc : List EccObs} (hp : c.lu.place = none) (hs : c.lu.serve = some ecc) (ha : c.lu.atom = none)
    (hw : c.lu.atomW = none) : c.landEnd env = c.idled.serveRead env ecc := by
  simp only [Core.landEnd, hp, hs, ha]
  exact congrArg (Core.serveRead · env ecc) (Core.atomWrite_none (c := c.idled) hw)

theorem Core.landEnd_atom {ecc : List EccObs} (hp : c.lu.place = none) (hs : c.lu.serve = none) (ha : c.lu.atom = some ecc)
    (hw : c.lu.atomW = none) : c.landEnd env = c.idled.atomRead env ecc := by
  simp only [Core.landEnd, hp, hs, ha]
  exact congrArg (Core.atomRead · env ecc) (Core.atomWrite_none (c := c.idled) hw)

theorem Core.landEnd_write (hp : c.lu.place = none) (hs : c.lu.serve = none) (ha : c.lu.atom = none) :
    c.landEnd env = c.idled.atomWrite := by
  simp only [Core.landEnd, hp, hs, ha]
  rfl

end

/-! ### What placing lines leaves as it was -/

/-- What placing lines cannot touch: it orders events, takes ports, and counts. -/
def Core.beyondPlacing (c : Core) :
    CTime × Regs × SMap Byte × SMap Bool × Tallies × List RawFault × List Msg × Option (List EccObs) :=
  (c.tm, c.regs, c.mem, c.pois, c.tl, c.flt, c.tx, c.lu.place)

/-- `u` comes of `c` by placing `j` lines: no event that `c` awaits is lost. -/
structure Core.Placed (j : Nat) (c u : Core) : Prop where
  beyond : u.beyondPlacing = c.beyondPlacing
  events : c.nev ⊆ u.nev
  lines : u.lu.lines = c.lu.lines + BitVec.ofNat 64 j

namespace Core.Placed

theorem refl (c : Core) : Placed 0 c c := ⟨rfl, List.Subset.refl _, (BitVec.add_zero _).symm⟩

theorem trans {i j : Nat} {c d u : Core} (h : Placed i c d) (h' : Placed j d u) : Placed (i + j) c u := by
  refine ⟨h'.beyond.trans h.beyond, fun _ hx => h'.events (h.events hx), ?_⟩
  rw [h'.lines, h.lines, BitVec.add_assoc, BitVec.ofNat_add]

theorem at_event (c : Core) (dt : Nat) (e : NEv) : Placed 0 c (c.at dt e) :=
  ⟨rfl, List.subset_append_left .., (BitVec.add_zero _).symm⟩

/-- Steps that each place no line place none together. -/
theorem foldl {α : Type} {f : Core → α → Core} (hf : ∀ c a, Placed 0 c (f c a)) (l : List α) (c : Core) :
    Placed 0 c (l.foldl f c) :=
  List.foldlRecOn l f (refl c) fun u hu a _ => hu.trans (hf u a)

theorem now_eq {j : Nat} {c u : Core} (h : Placed j c u) : u.tm.now = c.tm.now :=
  congrArg (fun x => x.1.now) h.beyond

/-- What has been placed changes nothing that can be seen yet. -/
theorem landKept {j : Nat} {c u : Core} (h : Placed j c u) : landKept u c := by
  have hkeep := h.beyond
  simp only [Core.beyondPlacing, Prod.mk.injEq] at hkeep
  obtain ⟨-, hregs, hmem, hpois, htl, hflt, -, -⟩ := hkeep
  exact ⟨⟨hregs, hmem, hpois, htl⟩, hflt, fun _ hx => h.events hx⟩

end Core.Placed

/-- A packet that leaves the buffer has its arrival put ahead, and its transaction one piece fewer to place. -/
theorem Core.piecePlaced_placed (c : Core) (p : LinePkt) : Core.Placed 0 c (c.piecePlaced p) := by
  unfold Core.piecePlaced
  split
  · split
    · exact ⟨rfl, List.Subset.refl _, (BitVec.add_zero _).symm⟩
    · exact .refl c
  · exact .refl c

theorem Core.finishHeld_placed (c : Core) : Core.Placed 0 c c.finishHeld := by
  have hdrop : Core.Placed 0 c { c with lu := { c.lu with buf := (releaseEmpty [] c.lu.buf).2 } } :=
    ⟨rfl, List.Subset.refl _, (BitVec.add_zero _).symm⟩
  exact hdrop.trans (.foldl (fun d (h : Held) => (d.piecePlaced_placed h.pkt).trans (.at_event ..)) _ _)

/-! ### One line -/

/-- A write that meets no stored error brings its own bytes. -/
theorem Core.merged_nil (c : Core) (env : Env) (eng kvi addr : Nat) (d : List Byte) (p : Bool) :
    c.merged env eng kvi addr d p [] = (c, addr, d, p) := by
  unfold Core.merged
  generalize (if d.isEmpty then [] else (mergedWords addr d.length).zipIdx) = words
  induction words with
  | nil => rfl
  | cons w t ih => exact ih

theorem Core.placeLine_placed (c : Core) (p : LinePkt) (addr : Nat) (d : List Byte) (poison : Bool) :
    Core.Placed 0 c (c.placeLine p addr d poison) := by
  unfold Core.placeLine
  split
  · exact .at_event ..
  · obtain ⟨hbeyond, hevents, hlines⟩ := Core.Placed.foldl
      (f := fun (d : Core) (x : Nat × List Byte) => d.at 2 (.place x.1 x.2 poison)) (fun d x => .at_event ..) _ c
    exact ⟨hbeyond, hevents, hlines⟩

theorem Core.countIn_placed (c : Core) (p : LinePkt) (n : Nat) : Core.Placed 0 c (c.countIn p n) := by
  unfold Core.countIn
  split
  · exact ⟨rfl, List.Subset.refl _, (BitVec.add_zero _).symm⟩
  · exact .refl c

/-- The core that has placed a line of a held packet, where no stored error is met. -/
def Core.withLine (c : Core) (h : Held) (addr : Nat) (d : List Byte) : Core :=
  let c := ((c.usePort true (addr / 256)).placeLine h.pkt addr d h.pkt.poison).countIn h.pkt d.length
  { c with lu := { c.lu with lines := c.lu.lines + 1, buf := dropLine h.no addr c.lu.buf } }

theorem Core.withLine_placed (c : Core) (h : Held) (addr : Nat) (d : List Byte) : Core.Placed 1 c (c.withLine h addr d) := by
  have hport : Core.Placed 0 c (c.usePort true (addr / 256)) := ⟨rfl, List.Subset.refl _, (BitVec.add_zero _).symm⟩
  obtain ⟨hbeyond, hevents, hlines⟩ := (hport.trans (Core.placeLine_placed _ h.pkt addr d h.pkt.poison)).trans
    (Core.countIn_placed _ h.pkt d.length)
  refine ⟨hbeyond, hevents, ?_⟩
  exact (congrArg (· + 1) hlines).trans (congrArg (· + 1) (BitVec.add_zero _))

/-- A line outside any transfer with coinciding destinations becomes visible two ccyc later. -/
theorem Core.withLine_event (c : Core) {h : Held} (addr : Nat) (d : List Byte) (hwalk : h.pkt.walk = none) :
    (c.tm.now + 2, .place addr d h.pkt.poison) ∈ (c.withLine h addr d).nev := by
  have hplaced := Core.countIn_placed ((c.usePort true (addr / 256)).placeLine h.pkt addr d h.pkt.poison) h.pkt d.length
  refine hplaced.events ?_
  simp [Core.placeLine, hwalk, Core.at, Core.usePort]

/-! ### The lines of a ccyc -/

/-- Whether a line must wait: for what came before it, for an ATOM, for a port or for its bank (R154, R190). -/
def Core.lineWaits (c : Core) (h : Held) (line : Nat) : Bool := c.lu.earlier h.no line || c.atomOn line || !c.portFree true line

section
variable (env : Env) (left k : Nat) (h : Held) (addr : Nat) (d : List Byte) (t : List (Held × Nat × List Byte)) {c : Core}

theorem Core.placeLines_waits (hw : c.lineWaits h (addr / 256) = true) :
    Core.placeLines env [] (left + 1) k ((h, addr, d) :: t) c = Core.placeLines env [] (left + 1) k t c := by
  rw [Core.placeLines]
  exact if_pos hw

theorem Core.placeLines_takes (hw : c.lineWaits h (addr / 256) = false) :
    Core.placeLines env [] (left + 1) k ((h, addr, d) :: t) c = Core.placeLines env [] left (k + 1) t (c.withLine h addr d) := by
  rw [Core.placeLines]
  refine (if_neg (ne_true_of_eq_false hw)).trans ?_
  simp only [List.filter_nil, Core.merged_nil]
  rfl

end

/-- A ccyc places no more lines than it has left. -/
theorem Core.placeLines_placed (env : Env) (left k : Nat) (l : List (Held × Nat × List Byte)) (c : Core) :
    ∃ j ≤ left, Core.Placed j c (Core.placeLines env [] left k l c) := by
  induction l generalizing left k c with
  | nil =>
    cases left
    all_goals exact ⟨0, Nat.zero_le _, .refl c⟩
  | cons x t ih =>
    obtain ⟨h, addr, d⟩ := x
    cases left with
    | zero => exact ⟨0, Nat.zero_le _, .refl c⟩
    | succ left =>
      cases hw : c.lineWaits h (addr / 256) with
      | true =>
        rw [Core.placeLines_waits env left k h addr d t hw]
        exact ih ..
      | false =>
        rw [Core.placeLines_takes env left k h addr d t hw]
        obtain ⟨j, hj, hplaced⟩ := ih left (k + 1) (c.withLine h addr d)
        exact ⟨1 + j, by omega, (c.withLine_placed h addr d).trans hplaced⟩

/-- The first line of the buffer is placed if it need not wait, and one more at most. -/
theorem Core.landEnd_places {c : Core} (env : Env) {h : Held} {addr : Nat} {d : List Byte} (hp : c.lu.place = some [])
    (hs : c.lu.serve = none) (ha : c.lu.atom = none) (hw : c.lu.atomW = none) (hfirst : c.lu.order.head? = some (h, addr, d))
    (hgo : c.lineWaits h (addr / 256) = false) :
    ∃ j ≤ 1, Core.Placed j (c.idled.withLine h addr d) (c.landEnd env) := by
  obtain ⟨t, horder⟩ := List.head?_eq_some_iff.1 hfirst
  rw [Core.landEnd_place env hp hs ha hw, horder, Core.placeLines_takes env 1 0 h addr d t (c := c.idled) hgo]
  obtain ⟨j, hj, hplaced⟩ := Core.placeLines_placed env 1 (0 + 1) t (c.idled.withLine h addr d)
  exact ⟨j, hj, hplaced.trans (Core.finishHeld_placed _)⟩

theorem placementPlacesTheFirstLine {c : Core} (env : Env) {h : Held} {addr : Nat} {d : List Byte} (hp : c.lu.place = some [])
    (hs : c.lu.serve = none) (ha : c.lu.atom = none) (hw : c.lu.atomW = none) (hfirst : c.lu.order.head? = some (h, addr, d))
    (hwalk : h.pkt.walk = none) (hgo : c.lineWaits h (addr / 256) = false) :
    let u := c.landEnd env
    landKept u c ∧ u.tx = c.tx ∧ (c.tm.now + 2, .place addr d h.pkt.poison) ∈ u.nev
      ∧ (u.lu.lines = c.lu.lines + 1 ∨ u.lu.lines = c.lu.lines + 2) ∧ u.lu.place = none := by
  intro u
  obtain ⟨j, hj, hrest⟩ := Core.landEnd_places env hp hs ha hw hfirst hgo
  have hall : Core.Placed (1 + j) c.idled u := (c.idled.withLine_placed h addr d).trans hrest
  have hlines : u.lu.lines = c.lu.lines + BitVec.ofNat 64 (1 + j) := hall.lines
  have hbeyond := hall.beyond
  simp only [Core.beyondPlacing, Prod.mk.injEq] at hbeyond
  obtain ⟨-, -, -, -, -, -, htx, hplace⟩ := hbeyond
  refine ⟨hall.landKept, htx, hrest.events (c.idled.withLine_event addr d hwalk), ?_, hplace⟩
  interval_cases j
  · exact .inl hlines
  · exact .inr hlines

/-! ### Lines become visible -/

theorem Core.landed_place (c : Core) (addr : Nat) (d : List Byte) (p : Bool) :
    let u := c.landed (.place addr d p)
    bytesAt u addr d.length = d ∧ (∀ j, j < addr ∨ addr + d.length ≤ j → tget 0 u.mem j = tget 0 c.mem j)
      ∧ { u with mem := c.mem, pois := c.pois } = c :=
  ⟨readBytes_writeBytes c.mem addr d, fun j hj => tget_writeBytes_out c.mem addr d j hj, rfl⟩

/-- The arrival of a write raises the tally of its window and answers the sender. -/
theorem Core.landed_arrive (c : Core) (m : Nat) {pkt : LinePkt} (hkind : pkt.kind = .write) :
    c.landed (.arrive (some m) pkt)
      = (c.addChange ⟨true, m, .inc, 1, .dma0, 0xFFFFFFFF⟩).send (.reply pkt.reply .ok 0 0 0 [] false) := by
  simp [Core.landed, hkind]

theorem landedLinesBecomeVisible : LandedLinesBecomeVisible := by
  refine ⟨?_, ?_, ?_⟩
  · intro s n delta ecc k hf
    exact (hands_of_event (fun _ k => { k with lu := { k.lu with place := some ecc } }) hf rfl).1
  · intro c env h addr d hp hs ha hw hfirst hwalk hearlier hatom hport
    exact placementPlacesTheFirstLine env hp hs ha hw hfirst hwalk (by simp [Core.lineWaits, hearlier, hatom, hport])
  · intro c addr m d p pkt
    refine ⟨c.landed_place addr d p, fun hkind => ?_⟩
    rw [c.landed_arrive m hkind]
    exact ⟨rfl, rfl, rfl, rfl⟩

end Sys2Proof.Machine
end

section
/-!
SUPPORT. Remote reads and atomics at the end of a ccyc (O23; 05 R162, R163; 10 R304, R305).
-/

namespace Sys2Proof.Machine

open Sys2Proof Sys2Proof.Safety Sys2Proof.Claims

/-! ### Bytes and their value -/

theorem leBytes_leVal (l : List Byte) : leBytes (leVal l) l.length = l := by
  induction l with
  | nil => rfl
  | cons b l ih =>
    have hlow : BitVec.ofNat 8 (b.toNat + 256 * leVal l) = b := by
      apply BitVec.eq_of_toNat_eq
      rw [BitVec.toNat_ofNat]
      omega
    have hhigh : (b.toNat + 256 * leVal l) / 256 = leVal l := by omega
    rw [leVal, List.length_cons, leBytes, hlow, hhigh, ih]

theorem leVal_take (n : Nat) (l : List Byte) : leVal (l.take n) = leVal l % 256 ^ n := by
  induction n generalizing l with
  | zero => simp [leVal, Nat.mod_one]
  | succ n ih =>
    cases l with
    | nil => simp [leVal]
    | cons b l =>
      have hlow : (b.toNat + 256 * leVal l) % 256 = b.toNat := by omega
      have hhigh : (b.toNat + 256 * leVal l) / 256 = leVal l := by omega
      rw [List.take_succ_cons, leVal, leVal, ih, Nat.pow_succ', Nat.mod_mul, hlow, hhigh]

theorem leVal_drop (n : Nat) (l : List Byte) : leVal (l.drop n) = leVal l / 256 ^ n := by
  induction n generalizing l with
  | zero => simp
  | succ n ih =>
    cases l with
    | nil => simp [leVal]
    | cons b l =>
      have hhigh : (b.toNat + 256 * leVal l) / 256 = leVal l := by omega
      rw [List.drop_succ_cons, leVal, ih, Nat.pow_succ', ← Nat.div_div_eq_div_mul, hhigh]

theorem two_pow_eight_mul (n : Nat) : 2 ^ (8 * n) = 256 ^ n := Nat.pow_mul 2 8 n

theorem leVal_lt (l : List Byte) : leVal l < 2 ^ (8 * l.length) := by
  have h := leVal_take l.length l
  rw [List.take_length] at h
  rw [h, two_pow_eight_mul]
  exact Nat.mod_lt _ (Nat.pow_pos (by decide))

theorem toNat_ofNat_leVal {w : Nat} {l : List Byte} (h : 8 * l.length ≤ w) : (BitVec.ofNat w (leVal l)).toNat = leVal l :=
  (BitVec.toNat_ofNat ..).trans (Nat.mod_eq_of_lt ((leVal_lt l).trans_le (Nat.pow_le_pow_right (by decide) h)))

/-- A field of whole bytes is the value of those bytes. -/
theorem bits_leVal (l : List Byte) (o n : Nat) : bits (leVal l) (8 * o) (8 * n) = leVal ((l.drop o).take n) := by
  rw [leVal_take, leVal_drop, bits, Nat.shiftRight_eq_div_pow, two_pow_eight_mul, two_pow_eight_mul]

theorem readBytes_drop_take (m : SMap Byte) (a : Nat) {n o k : Nat} (h : o + k ≤ n) :
    ((readBytes m a n).drop o).take k = readBytes m (a + o) k := by
  simp only [readBytes_eq]
  apply List.ext_getElem
  · simp
    omega
  · intro i h1 h2
    simp [Nat.add_assoc]

section
variable (c : Core)

theorem Core.lineNow_toNat (line : Nat) : (c.lineNow line).v.toNat = leVal (readBytes c.mem (256 * line) 256) :=
  toNat_ofNat_leVal (by rw [readBytes_length])

section
variable {addr n : Nat} (h : addr % 256 + n ≤ 256)
include h

/-- Bytes cut from the line that holds them. -/
theorem Core.lineNow_bytes :
    ((leBytes (c.lineNow (addr / 256)).v.toNat 256).drop (addr % 256)).take n = bytesAt c addr n := by
  have hline := leBytes_leVal (readBytes c.mem (256 * (addr / 256)) 256)
  rw [readBytes_length] at hline
  rw [c.lineNow_toNat, hline, readBytes_drop_take _ _ h, Nat.div_add_mod]
  rfl

theorem Core.lineNow_bits : bits (c.lineNow (addr / 256)).v.toNat (8 * (addr % 256)) (8 * n) = leVal (bytesAt c addr n) := by
  rw [c.lineNow_toNat, bits_leVal, readBytes_drop_take _ _ h, Nat.div_add_mod]
  rfl

theorem linesOf_one (hn : 0 < n) : linesOf addr n = [addr / 256] := by
  have hcount : (addr + n - 1) / 256 + 1 - addr / 256 = 1 := by omega
  rw [linesOf, hcount]
  rfl

end

/-! ### A remote read is served -/

theorem nextRead_one {r : Request} {len : Nat} (no : Nat) (hreq : r.req = .read len) : nextRead [(no, r)] = some ((no, r), []) := by
  cases hs : r.sched
  · simp [nextRead, pick, hreq, hs]
  · simp [nextRead, pick, hreq, hs]

theorem Core.serveLines_one (env : Env) {line : Nat} (hport : c.portFree false line = true) :
    Core.serveLines env [] 0 [line] c = some (c.usePort false line, [c.lineNow line]) := by
  simp only [Core.serveLines, hport]
  rfl

/-- The one request that waits, a read of one line, is answered through an idle port. -/
theorem Core.serveRead_one (env : Env) {no len : Nat} {r : Request} (hrem : c.lu.remote = [(no, r)]) (hreq : r.req = .read len)
    (hport : c.portFree false (r.dpa % scrBytes / 256) = true) (hpos : 0 < len) (hline : r.dpa % scrBytes % 256 + len ≤ 256) :
    c.serveRead env [] = { c with
      lu := { (c.usePort false (r.dpa % scrBytes / 256)).lu with remote := [] }
      tx := c.tx ++ [.reply r.reply .ok 0 0 0 (bytesAt c (r.dpa % scrBytes) len)
        (tget false c.pois (r.dpa % scrBytes / 256))] } := by
  rw [← c.lineNow_bytes hline]
  simp only [Core.serveRead, hrem, nextRead_one no hreq, hreq, linesOf_one hline hpos, c.serveLines_one env hport,
    List.flatMap_singleton, List.any_cons, List.any_nil, Bool.or_false]
  rfl

/-! ### An atomic -/

theorem nextAtom_one {r : Request} {op : AtomOp} (no : Nat) (hreq : r.req = .atom op) : nextAtom [(no, r)] = some ((no, r), []) := by
  simp [nextAtom, pick, hreq]

theorem atomLen_eq (op : AtomOp) : atomLen op = 8 ∨ atomLen op = 4 := by
  unfold atomLen
  split
  · exact .inl rfl
  · exact .inr rfl

/-- A number of as many bytes as an atomic has is the value of a doubleword. -/
theorem toNat_ofNat_atom (op : AtomOp) {x : Nat} (hx : x < 2 ^ (8 * atomLen op)) : (BitVec.ofNat 64 x).toNat = x := by
  refine (BitVec.toNat_ofNat ..).trans (Nat.mod_eq_of_lt (hx.trans_le (Nat.pow_le_pow_right (by decide) ?_)))
  rcases atomLen_eq op with h | h
  all_goals omega

/-- The new value of an atomic, as a number below 2^(8 n). -/
theorem atomNew_toNat (op : AtomOp) {old : Nat} (hold : old < 2 ^ (8 * atomLen op)) :
    (atomNew op (BitVec.ofNat 64 old)).toNat = atomOf op.aop op.sgn (atomLen op) old (op.b.toNat % 2 ^ (8 * atomLen op))
      (op.c.toNat % 2 ^ (8 * atomLen op)) := by
  have hwidth : (if op.w8 = true then 64 else 32) = 8 * atomLen op := by
    unfold atomLen
    split
    all_goals rfl
  have hmod : ∀ x, (BitVec.ofNat 64 (x % 2 ^ (8 * atomLen op))).toNat = x % 2 ^ (8 * atomLen op) := fun x =>
    toNat_ofNat_atom op (Nat.mod_lt x (Nat.two_pow_pos _))
  simp only [atomNew, atomOf, hwidth, toNat_ofNat_atom op hold, Nat.mod_eq_of_lt hold]
  rcases op.aop.toNat with _ | _ | _ | _ | a
  · exact hmod _
  · simp only [apply_ite BitVec.toNat, hmod, toNat_ofNat_atom op hold]
  · simp only [apply_ite BitVec.toNat, hmod, toNat_ofNat_atom op hold]
  · exact hmod _
  · simp only [apply_ite BitVec.toNat, hmod, toNat_ofNat_atom op hold]

/-- The one request that waits, an atomic, reads its line through an idle port; its write is still to come. -/
theorem Core.atomRead_one (env : Env) {no : Nat} {r : Request} {op : AtomOp} (hrem : c.lu.remote = [(no, r)])
    (hreq : r.req = .atom op) (hw : c.lu.atomW = none) (halign : r.dpa % scrBytes % atomLen op = 0)
    (hland : c.landingOn (r.dpa % scrBytes / 256) = false) (hearlier : c.lu.earlier no (r.dpa % scrBytes / 256) = false)
    (hport : c.portFree false (r.dpa % scrBytes / 256) = true) :
    let addr := r.dpa % scrBytes
    let n := atomLen op
    let old := leVal (bytesAt c addr n)
    let new := atomOf op.aop op.sgn n old (op.b.toNat % 2 ^ (8 * n)) (op.c.toNat % 2 ^ (8 * n))
    let p := tget false c.pois (addr / 256)
    c.atomRead env [] = { c with
      lu := { (c.usePort false (addr / 256)).lu with
        remote := []
        atomW := some ⟨addr, leBytes new n, p || op.p, r.reply, leBytes old 8, p⟩ } } := by
  intro addr n old new p
  have hfits : addr % 256 + atomLen op ≤ 256 := by
    have halign : addr % atomLen op = 0 := halign
    rcases atomLen_eq op with h | h
    all_goals
      rw [h] at halign ⊢
      omega
  have hold : old < 2 ^ (8 * atomLen op) := by
    have h := leVal_lt (bytesAt c addr (atomLen op))
    rwa [bytesAt, readBytes_length] at h
  have hbits : bits (c.lineNow (addr / 256)).v.toNat (8 * (addr % 256)) (8 * atomLen op) = old := c.lineNow_bits hfits
  have hold8 : leBytes (BitVec.ofNat 64 (bits (c.lineNow (addr / 256)).v.toNat (8 * (addr % 256)) (8 * atomLen op))).toNat 8
      = leBytes old 8 := by rw [hbits, toNat_ofNat_atom op hold]
  have hnew : leBytes (atomNew op (BitVec.ofNat 64
      (bits (c.lineNow (addr / 256)).v.toNat (8 * (addr % 256)) (8 * atomLen op)))).toNat n = leBytes new n := by
    rw [hbits, atomNew_toNat op hold]
  rw [← hold8, ← hnew]
  simp only [Core.atomRead, hrem, nextAtom_one no hreq, hreq, hw, hland, hearlier, hport, List.filter_nil, Core.merged_nil]
  rfl

theorem Core.atomWrite_some {w : AtomW} (hw : c.lu.atomW = some w) (hport : c.portFree true (w.addr / 256) = true) :
    c.atomWrite = { c with
      nev := c.nev ++ [(c.tm.now + 2, .place w.addr w.data w.p), (c.tm.now + 2, .atomDone w.reply w.old w.oldP)]
      lu := { (c.usePort true (w.addr / 256)).lu with atomW := none, lines := c.lu.lines + 1 } } := by
  simp only [Core.atomWrite, hw, hport, Core.at, List.append_assoc]
  rfl

end

/-! ### The statement -/

theorem remoteReadIsAnswered {c : Core} (env : Env) {no len : Nat} {r : Request} (hrem : c.lu.remote = [(no, r)])
    (hplace : c.lu.place = none) (hw : c.lu.atomW = none) (hport : c.portFree false (r.dpa % 0x2000000 / 256) = true)
    (hs : c.lu.serve = some []) (ha : c.lu.atom = none) (hreq : r.req = .read len) (hpos : 0 < len)
    (hline : r.dpa % 0x2000000 % 256 + len ≤ 256) :
    let u := c.landEnd env
    landKept u c ∧ u.lu.remote = [] ∧ u.lu.serve = none
      ∧ u.tx = c.tx ++ [.reply r.reply .ok 0 0 0 (bytesAt c (r.dpa % 0x2000000) len) (tget false c.pois (r.dpa % 0x2000000 / 256))] := by
  dsimp only
  rw [Core.landEnd_serve env hplace hs ha hw, c.idled.serveRead_one env hrem hreq hport hpos hline]
  exact ⟨⟨⟨rfl, rfl, rfl, rfl⟩, rfl, fun _ hx => hx⟩, rfl, rfl, rfl⟩

theorem atomicReadsItsLine {c : Core} (env : Env) {no : Nat} {r : Request} {op : AtomOp} (hrem : c.lu.remote = [(no, r)])
    (hplace : c.lu.place = none) (hw : c.lu.atomW = none) (hport : c.portFree false (r.dpa % 0x2000000 / 256) = true)
    (hs : c.lu.serve = none) (ha : c.lu.atom = some []) (hreq : r.req = .atom op) (halign : r.dpa % 0x2000000 % atomLen op = 0)
    (hland : c.landingOn (r.dpa % 0x2000000 / 256) = false) (hearlier : c.lu.earlier no (r.dpa % 0x2000000 / 256) = false) :
    let u := c.landEnd env
    let n := atomLen op
    let old := leVal (bytesAt c (r.dpa % 0x2000000) n)
    let new := atomOf op.aop op.sgn n old (op.b.toNat % 2 ^ (8 * n)) (op.c.toNat % 2 ^ (8 * n))
    let p := tget false c.pois (r.dpa % 0x2000000 / 256)
    landKept u c ∧ u.lu.remote = [] ∧ u.lu.atom = none ∧ u.tx = c.tx
      ∧ u.lu.atomW = some ⟨r.dpa % 0x2000000, leBytes new n, p || op.p, r.reply, leBytes old 8, p⟩ := by
  dsimp only
  rw [Core.landEnd_atom env hplace hs ha hw, c.idled.atomRead_one env hrem hreq hw halign hland hearlier hport]
  exact ⟨⟨⟨rfl, rfl, rfl, rfl⟩, rfl, fun _ hx => hx⟩, rfl, rfl, rfl, rfl⟩

theorem atomicWritesItsLine {c : Core} (env : Env) {w : AtomW} (hw : c.lu.atomW = some w)
    (hport : c.portFree true (w.addr / 256) = true) (hp : c.lu.place = none) (hs : c.lu.serve = none) (ha : c.lu.atom = none) :
    let u := c.landEnd env
    landKept u c ∧ u.lu.atomW = none ∧ u.tx = c.tx
      ∧ u.nev = c.nev ++ [(c.tm.now + 2, .place w.addr w.data w.p), (c.tm.now + 2, .atomDone w.reply w.old w.oldP)] := by
  dsimp only
  rw [Core.landEnd_write env hp hs ha, c.idled.atomWrite_some hw hport]
  exact ⟨⟨⟨rfl, rfl, rfl, rfl⟩, rfl, fun _ hx => List.mem_append_left _ hx⟩, rfl, rfl, rfl⟩

theorem remoteReadsAndAtomicsAreAnswered : RemoteReadsAndAtomicsAreAnswered := by
  refine ⟨?_, ?_, fun c env w => atomicWritesItsLine env, fun c r old p => rfl⟩
  · intro s n delta ecc k
    exact ⟨fun hf => (hands_of_event (fun _ k => { k with lu := { k.lu with serve := some ecc } }) hf rfl).1,
      fun hf => (hands_of_event (fun _ k => { k with lu := { k.lu with atom := some ecc } }) hf rfl).1⟩
  · intro c env no r addr u p hrem hplace hw hport
    exact ⟨fun len => remoteReadIsAnswered env hrem hplace hw hport, fun op => atomicReadsItsLine env hrem hplace hw hport⟩

/-- Settles O23: packets by their arrival, lines by the order in which a ccyc places them, reads and atomics by the line that holds
their bytes. -/
theorem theLandingUnitServes : Obligations.TheLandingUnitServes :=
  ⟨packetsEnterTheLandingBuffer, landedLinesBecomeVisible, remoteReadsAndAtomicsAreAnswered⟩

end Sys2Proof.Machine
end

section
/-!
SUPPORT. What holds of the device right after a package reset.
-/

namespace Sys2Proof.Machine

open Sys2Proof Sys2Proof.Safety Sys2Proof.Claims

/-! ### The device after a package reset -/

theorem inRange_reset : inRange State.reset.cfg :=
  ⟨.inr (by decide), fun _ => (⟨by decide, by decide⟩ : 1 ≤ 100 ∧ 100 ≤ 60000), by decide, by decide, by decide⟩

theorem memoryCanonical_reset : memoryCanonical State.reset := ⟨rfl, rfl⟩

theorem tablesCanonical_reset : tablesCanonical State.reset := ⟨rfl, rfl, rfl, fun _ => rfl⟩

theorem identitiesUnique_reset : identitiesUnique State.reset :=
  ⟨List.nodup_nil, fun _ hi => absurd hi List.not_mem_nil⟩

/-- Settles O60: every range admits the reset value of its register, every table is empty, and no command is held. -/
theorem invariantsHoldAtReset : Obligations.InvariantsHoldAtReset :=
  ⟨inRange_reset, memoryCanonical_reset, tablesCanonical_reset, identitiesUnique_reset⟩

end Sys2Proof.Machine
end

section
/-!
SUPPORT. What every command of the model leaves in form: HBM and the tables that boundaries walk stay canonical, and the command
processor holds no identity that it did not hold. One relation between states says it, and one lemma per operation of the model.
-/

namespace Sys2Proof.Machine

open Sys2Proof Sys2Proof.Safety Sys2Proof.Claims

/-! ### Tables that are mapped and filtered -/

section
variable {β : Type} {d : β}

theorem trising_filterMap {γ : Type} {f : Nat × β → Option (Nat × γ)} (hf : ∀ x y, f x = some y → y.1 = x.1) {m : SMap β}
    {lo : Nat} (h : trising lo m = true) : trising lo (m.filterMap f) = true := by
  induction m generalizing lo with
  | nil => rfl
  | cons x m ih =>
    simp only [trising, Bool.and_eq_true, decide_eq_true_eq] at h
    obtain ⟨hx, hm⟩ := h
    cases e : f x with
    | none =>
      rw [List.filterMap_cons_none e]
      exact trising_le _ (ih hm) (by omega)
    | some y =>
      rw [List.filterMap_cons_some e]
      have hk := hf x y e
      simp only [trising, Bool.and_eq_true, decide_eq_true_eq, hk]
      exact ⟨hx, ih hm⟩

theorem tnodefault_iff [DecidableEq β] {m : SMap β} : tnodefault d m = true ↔ ∀ x ∈ m, x.2 ≠ d := by
  induction m with
  | nil => simp [tnodefault]
  | cons x m ih => simp [tnodefault, ih]

/-- A table whose entries change, and lose those that hold the default, stays canonical. -/
theorem twf_filterMap [DecidableEq β] {γ : Type} [DecidableEq γ] {c : γ} {f : Nat × β → Option (Nat × γ)} {m : SMap β}
    (hf : ∀ x y, f x = some y → y.1 = x.1) (hd : ∀ x ∈ m, x.2 ≠ d → ∀ y, f x = some y → y.2 ≠ c) (h : twf d m = true) :
    twf c (m.filterMap f) = true := by
  simp only [twf, Bool.and_eq_true] at h ⊢
  refine ⟨trising_filterMap hf h.1, tnodefault_iff.2 fun y hy => ?_⟩
  obtain ⟨x, hx, e⟩ := List.mem_filterMap.1 hy
  exact hd x hx (tnodefault_iff.1 h.2 x hx) y e

theorem twf_map [DecidableEq β] {f : Nat × β → Nat × β} {m : SMap β} (hf : ∀ x, (f x).1 = x.1)
    (hd : ∀ x, x.2 ≠ d → (f x).2 ≠ d) (h : twf d m = true) : twf d (m.map f) = true := by
  rw [← List.filterMap_eq_map]
  refine twf_filterMap (d := d) (fun x y e => ?_) (fun x _ hx y e => ?_) h
  · obtain rfl := Option.some.inj e; exact hf x
  · obtain rfl := Option.some.inj e; exact hd x hx

theorem twf_mapFilter [DecidableEq β] {f : Nat × β → Nat × β} {m : SMap β} (hf : ∀ x, (f x).1 = x.1) (h : twf d m = true) :
    twf d ((m.map f).filter fun x => x.2 ≠ d) = true := by
  rw [← List.filterMap_eq_map, ← List.filterMap_eq_filter, List.filterMap_filterMap]
  refine twf_filterMap (d := d) (fun x y e => ?_) (fun x _ _ y e => ?_) h
  · simp only [Function.comp_apply, Option.bind_some, Option.guard_eq_some_iff] at e
    rw [← e.1]; exact hf x
  · simp only [Function.comp_apply, Option.bind_some, Option.guard_eq_some_iff] at e
    simpa [← e.1] using e.2

/-- A table reads its default, or an entry that it lists. -/
theorem tget_mem {m : SMap β} {k : Nat} : tget d m k = d ∨ (k, tget d m k) ∈ m := by
  induction m with
  | nil => exact .inl rfl
  | cons x m ih =>
    by_cases hk : k = x.1
    · right
      simp [tget, hk]
    · simp only [tget, if_neg hk, List.mem_cons]
      exact ih.imp id .inr

theorem le_of_mem_of_trising {m : SMap β} {lo : Nat} {x : Nat × β} (h : trising lo m = true) (hx : x ∈ m) : lo ≤ x.1 := by
  induction m generalizing lo with
  | nil => cases hx
  | cons y m ih =>
    simp only [trising, Bool.and_eq_true, decide_eq_true_eq] at h
    rcases List.mem_cons.1 hx with rfl | hm
    · exact h.1
    · exact Nat.le_of_succ_le (Nat.le_trans (Nat.succ_le_succ h.1) (ih h.2 hm))

theorem tget_of_mem {m : SMap β} {lo : Nat} {x : Nat × β} (h : trising lo m = true) (hx : x ∈ m) : tget d m x.1 = x.2 := by
  induction m generalizing lo with
  | nil => cases hx
  | cons y m ih =>
    simp only [trising, Bool.and_eq_true, decide_eq_true_eq] at h
    rcases List.mem_cons.1 hx with rfl | hm
    · simp [tget]
    · have hne : x.1 ≠ y.1 := Nat.ne_of_gt (le_of_mem_of_trising h.2 hm)
      simp only [tget, if_neg hne]
      exact ih h.2 hm

end

/-! ### Calendars -/

theorem turnCalendar_eq (m : SMap CalEntry) :
    turnCalendar m = m.filterMap fun x => if x.2.turn = CalEntry.elastic then none else some (x.1, x.2.turn) := by
  induction m with
  | nil => rfl
  | cons x m ih =>
    rw [List.filterMap_cons, ← ih]
    simp only [turnCalendar]
    split <;> rfl

theorem twf_turnCalendar {m : SMap CalEntry} (h : twf CalEntry.elastic m = true) :
    twf CalEntry.elastic (turnCalendar m) = true := by
  rw [turnCalendar_eq]
  refine twf_filterMap (d := CalEntry.elastic) (fun x y e => ?_) (fun x _ _ y e => ?_) h
  · split at e
    · cases e
    · obtain rfl := Option.some.inj e; rfl
  · split at e
    · cases e
    · obtain rfl := Option.some.inj e; assumption

theorem turnFabric_eq (m : SMap FCal) :
    turnFabric m = m.filterMap fun x => if x.2.turn = FCal.free then none else some (x.1, x.2.turn) := by
  induction m with
  | nil => rfl
  | cons x m ih =>
    rw [List.filterMap_cons, ← ih]
    simp only [turnFabric]
    split <;> rfl

theorem twf_turnFabric {m : SMap FCal} (h : twf FCal.free m = true) : twf FCal.free (turnFabric m) = true := by
  rw [turnFabric_eq]
  refine twf_filterMap (d := FCal.free) (fun x y e => ?_) (fun x _ _ y e => ?_) h
  · split at e
    · cases e
    · obtain rfl := Option.some.inj e; rfl
  · split at e
    · cases e
    · obtain rfl := Option.some.inj e; assumption

theorem twf_foldl_tput {β γ : Type} [DecidableEq β] {d : β} {m : SMap β} {l : List γ} {k : γ → Nat} {v : β}
    (h : twf d m = true) : twf d (l.foldl (fun m x => tput d m (k x) v) m) = true :=
  List.foldlRecOn (motive := fun m => twf d m = true) l _ h fun _ hm _ _ => twf_tput _ _ _ _ hm

/-! ### HBM -/

/-- A change of HBM that keeps its bytes, its marks and its calendars in form. -/
def Hbm.Stays (a b : Hbm) : Prop :=
  (a.memWf → b.memWf) ∧ (twf CalEntry.elastic a.cal = true → twf CalEntry.elastic b.cal = true)

theorem Hbm.Stays.refl {a : Hbm} : a.Stays a := ⟨id, id⟩

theorem Hbm.Stays.trans {a b c : Hbm} (h : a.Stays b) (k : b.Stays c) : a.Stays c := ⟨k.1 ∘ h.1, k.2 ∘ h.2⟩

theorem Hbm.stays_write {a : Hbm} {addr : Nat} {d : List Byte} {marks : List Bool} : a.Stays (a.write addr d marks) := by
  refine ⟨a.write_memWf _ _ _, ?_⟩
  unfold Hbm.write
  split
  · exact id
  · exact id

theorem Hbm.stays_put {a : Hbm} {addr : Nat} {d : List Byte} {p : Bool} : a.Stays (a.put addr d p) := Hbm.stays_write

theorem Hbm.stays_putCapture {a : Hbm} {parts : List (Nat × List Byte)} : a.Stays (a.putCapture parts) :=
  ⟨a.putCapture_memWf parts, id⟩

theorem Hbm.stays_dropDie {a : Hbm} : a.Stays a.dropDie := ⟨id, id⟩

theorem Hbm.stays_setQueueOf {a : Hbm} {pc : Nat} {q : ElQueue} : a.Stays (a.setQueueOf pc q) := ⟨id, id⟩

theorem Hbm.stays_foldl {β : Type} {f : Hbm → β → Hbm} (hf : ∀ a x, Hbm.Stays a (f a x)) {l : List β} {a : Hbm} :
    a.Stays (l.foldl f a) :=
  List.foldlRecOn l f .refl fun b hb x _ => hb.trans (hf b x)

theorem Hbm.stays_handOn {a : Hbm} : a.Stays a.handOn :=
  Hbm.stays_foldl fun _ _ => Hbm.stays_foldl fun _ _ => Hbm.stays_setQueueOf

theorem Hbm.stays_release {a : Hbm} {job : Nat} : a.Stays (a.release job) := by
  refine ⟨id, twf_map (fun x => ?_) (fun x hx => ?_)⟩
  · dsimp only
    split
    · rfl
    · rfl
  · dsimp only
    split
    · exact fun e => Bool.noConfusion (congrArg CalEntry.pend e)
    · exact hx

theorem Hbm.reserve_stays {a b : Hbm} {job : Nat} {x : Binding} {cores : List Nat} {y : Nat × Nat}
    (h : a.reserve job x cores = some (b, y)) : a.Stays b := by
  unfold Hbm.reserve at h
  split at h
  · split at h
    · cases h
    · simp only [Option.ite_none_left_eq_some, Option.some.injEq, Prod.mk.injEq] at h
      obtain ⟨-, rfl, -⟩ := h
      exact ⟨id, fun hc => List.foldlRecOn (motive := fun m => twf CalEntry.elastic m = true) _ _ hc fun _ hm _ _ =>
        twf_foldl_tput hm⟩
  · cases h

theorem Hbm.reserveAll_stays {job : Nat} {l : List (Binding × List Nat)} {a b : Hbm} {ids : List (Nat × Nat)}
    (h : a.reserveAll job l = some (b, ids)) : a.Stays b := by
  induction l generalizing a ids with
  | nil => cases h; exact .refl
  | cons x l ih =>
    unfold Hbm.reserveAll at h
    split at h
    · cases h
    · next e =>
      obtain ⟨⟨c, _⟩, hc, he⟩ := Option.map_eq_some_iff.1 h
      cases he
      exact (Hbm.reserve_stays e).trans (ih hc)

/-! ### Ports -/

/-- The ports and their fabric calendars are in canonical form. -/
def PortsWf (m : SMap Port) : Prop := twf Port.reset m = true ∧ ∀ p, twf FCal.free (tget Port.reset m p).cal = true

theorem portsWf_nil : PortsWf [] := ⟨rfl, fun _ => rfl⟩

theorem portsWf_tput {m : SMap Port} {p : Nat} {x : Port} (h : PortsWf m) (hx : twf FCal.free x.cal = true) :
    PortsWf (tput Port.reset m p x) := by
  refine ⟨twf_tput _ _ _ _ h.1, fun q => ?_⟩
  rw [tget_tput]
  split
  · exact hx
  · exact h.2 q

theorem portsWf_mapFilter {m : SMap Port} {f : Port → Port} (h : PortsWf m)
    (hf : ∀ x : Port, twf FCal.free x.cal = true → twf FCal.free (f x).cal = true) :
    PortsWf ((m.map fun (x : Nat × Port) => (x.1, f x.2)).filter fun x => x.2 ≠ Port.reset) := by
  refine ⟨twf_mapFilter (fun _ => rfl) h.1, fun p => ?_⟩
  rcases tget_mem (d := Port.reset) (m := (m.map fun (x : Nat × Port) => (x.1, f x.2)).filter fun x => x.2 ≠ Port.reset)
    (k := p) with e | e
  · rw [e]; rfl
  · obtain ⟨x, hx, hxe⟩ := List.mem_map.1 (List.mem_of_mem_filter e)
    have hm := h.1
    simp only [twf, Bool.and_eq_true] at hm
    have hc := h.2 x.1
    rw [tget_of_mem hm.1 hx] at hc
    have hv := congrArg Prod.snd hxe
    dsimp only at hv
    rw [← hv]
    exact hf _ hc

theorem Port.push_cal {p : Port} {x : TxPkt} : (p.push x).cal = p.cal := by
  unfold Port.push
  dsimp only
  split
  · rfl
  · rfl

theorem Port.inject_cal {p : Port} {t : Nat} {x : TxPkt} : (p.inject t x).cal = p.cal := by
  unfold Port.inject
  split
  · rfl
  · split
    · exact Port.push_cal
    · exact Port.push_cal

theorem Port.admitWaiting_cal {p : Port} {t : Nat} : (p.admitWaiting t).cal = p.cal := by
  unfold Port.admitWaiting
  split
  · rfl
  · dsimp only
    split
    · exact Port.push_cal
    · exact Port.push_cal

theorem Port.setRc_cal {p : Port} {o : Nat} {v : W32} : (p.setRc o v).cal = p.cal := by
  unfold Port.setRc
  split <;> rfl

theorem Port.twf_push {p : Port} {x : TxPkt} (k : twf FCal.free p.cal = true) : twf FCal.free (p.push x).cal = true := by
  rw [Port.push_cal]
  exact k

theorem Port.twf_inject {p : Port} {n : Nat} {x : TxPkt} (k : twf FCal.free p.cal = true) :
    twf FCal.free (p.inject n x).cal = true := by
  rw [Port.inject_cal]
  exact k

theorem Port.twf_setRc {p : Port} {o : Nat} {v : W32} (k : twf FCal.free p.cal = true) :
    twf FCal.free (p.setRc o v).cal = true := by
  rw [Port.setRc_cal]
  exact k

theorem Port.twf_zeroCounts {p : Port} (k : twf FCal.free p.cal = true) : twf FCal.free p.zeroCounts.cal = true := k

theorem Port.twf_pendSlot {p : Port} {n : Nat} {r : Bool} {c : Nat} (k : twf FCal.free p.cal = true) :
    twf FCal.free (p.pendSlot n r c).cal = true := twf_tput _ _ _ _ k

theorem Port.twf_pendSlots {β : Type} {p : Port} {l : List β} {n : β → Nat} {r : Bool} {c : Nat}
    (k : twf FCal.free p.cal = true) : twf FCal.free (l.foldl (fun (p : Port) x => p.pendSlot (n x) r c) p).cal = true :=
  List.foldlRecOn (motive := fun p : Port => twf FCal.free p.cal = true) l _ k fun _ hp _ _ => Port.twf_pendSlot hp

theorem Clocks.setRc_isl {x : Clocks} {o : Nat} {v : W32} : (x.setRc o v).isl = x.isl := by
  unfold Clocks.setRc
  split <;> rfl

/-! ### Identities of commands -/

/-- The identities of the commands that the command processor holds. -/
def HostIf.ids (h : HostIf) : List Nat := (h.exec ++ h.elastic ++ h.bulk ++ h.stalled).map (·.id)

theorem HostIf.ids_congr {a b : HostIf} (hexec : b.exec.map (·.id) = a.exec.map (·.id))
    (helastic : b.elastic.map (·.id) = a.elastic.map (·.id)) (hbulk : b.bulk.map (·.id) = a.bulk.map (·.id))
    (hstalled : b.stalled.map (·.id) = a.stalled.map (·.id)) : b.ids.Subperm a.ids := by
  simp only [HostIf.ids, List.map_append, hexec, helastic, hbulk, hstalled]
  exact .refl _

theorem map_id_map {f : Cmd → Cmd} (hf : ∀ c, (f c).id = c.id) (l : List Cmd) : (l.map f).map (·.id) = l.map (·.id) := by
  rw [List.map_map]
  exact List.map_congr_left fun c _ => hf c

theorem HostIf.ids_filter (h : HostIf) (p : Cmd → Bool) :
    ({ h with exec := h.exec.filter p } : HostIf).ids.Subperm h.ids := by
  refine (List.Sublist.map _ ?_).subperm
  simp only [List.append_assoc]
  exact List.filter_sublist.append_right _

theorem HostIf.ids_filterBulk (h : HostIf) (p : Cmd → Bool) :
    ({ h with bulk := h.bulk.filter p } : HostIf).ids.Subperm h.ids := by
  refine (List.Sublist.map _ ?_).subperm
  exact (List.filter_sublist.append_left _).append_right _

/-- What joins the end of a queue is held together with what was. -/
theorem HostIf.ids_exec {h : HostIf} {c : Cmd} {l : List Nat} (hc : (c.id :: h.ids).Subperm l) {d : Cmd}
    (e : d.id = c.id) : ({ h with exec := h.exec ++ [d] } : HostIf).ids.Subperm l := by
  refine List.Subperm.trans (List.perm_iff_count.2 fun a => ?_).subperm hc
  simp only [HostIf.ids, List.map_append, List.map_cons, List.map_nil, List.count_append, List.count_cons, List.count_nil, e]
  omega

theorem HostIf.ids_elastic {h : HostIf} {c : Cmd} {l : List Nat} (hc : (c.id :: h.ids).Subperm l) :
    ({ h with elastic := h.elastic ++ [c] } : HostIf).ids.Subperm l := by
  refine List.Subperm.trans (List.perm_iff_count.2 fun a => ?_).subperm hc
  simp only [HostIf.ids, List.map_append, List.map_cons, List.map_nil, List.count_append, List.count_cons, List.count_nil]
  omega

theorem HostIf.ids_bulk {h : HostIf} {c : Cmd} {l : List Nat} (hc : (c.id :: h.ids).Subperm l) :
    ({ h with bulk := h.bulk ++ [c] } : HostIf).ids.Subperm l := by
  refine List.Subperm.trans (List.perm_iff_count.2 fun a => ?_).subperm hc
  simp only [HostIf.ids, List.map_append, List.map_cons, List.map_nil, List.count_append, List.count_cons, List.count_nil]
  omega

theorem HostIf.ids_stalled {h : HostIf} {c : Cmd} {l : List Nat} (hc : (c.id :: h.ids).Subperm l) :
    ({ h with stalled := h.stalled ++ [c] } : HostIf).ids.Subperm l := by
  refine List.Subperm.trans (List.perm_iff_count.2 fun a => ?_).subperm hc
  simp only [HostIf.ids, List.map_append, List.map_cons, List.map_nil, List.count_append, List.count_cons, List.count_nil]
  omega

theorem HostIf.ids_of_bulk {h : HostIf} {c : Cmd} {l : List Cmd} (e : h.bulk = c :: l) :
    (c.id :: ({ h with bulk := l } : HostIf).ids).Subperm h.ids := by
  refine (List.perm_iff_count.2 fun a => ?_).subperm
  simp only [HostIf.ids, e, List.map_append, List.map_cons, List.count_append, List.count_cons]
  omega

theorem HostIf.ids_unstall (h : HostIf) : h.unstall.ids.Subperm h.ids := by
  unfold HostIf.unstall
  split
  · exact .refl _
  · next c l e =>
    split
    · refine (List.perm_iff_count.2 fun a => ?_).subperm
      simp only [HostIf.ids, e, List.map_append, List.map_cons, List.map_nil, List.count_append, List.count_cons, List.count_nil]
      omega
    · exact .refl _

theorem HostIf.ids_of_elastic {h : HostIf} {c : Cmd} {l : List Cmd} (e : h.elastic = c :: l) :
    (c.id :: ({ h with elastic := l } : HostIf).ids).Subperm h.ids := by
  refine (List.perm_iff_count.2 fun a => ?_).subperm
  simp only [HostIf.ids, e, List.map_append, List.map_cons, List.count_append, List.count_cons]
  omega

/-! ### What a step leaves in form -/

/-- From `s` to `t`, HBM and the tables stay canonical, and no identity of a command comes that was not there. -/
structure Keeps (s t : State) : Prop where
  hbm : s.hbm.Stays t.hbm
  isl : twf Island.off s.clk.isl = true → twf Island.off t.clk.isl = true
  ports : PortsWf s.ports → PortsWf t.ports
  ids : t.host.ids.Subperm s.host.ids
  next : s.nextId ≤ t.nextId

/-- The part of a state that `Keeps` speaks of. -/
structure HeldView where
  mem : SMap Byte
  pois : SMap Bool
  cal : SMap CalEntry
  isl : SMap Island
  ports : SMap Port
  exec : List Cmd
  elastic : List Cmd
  bulk : List Cmd
  stalled : List Cmd
  next : Nat

abbrev State.heldView (s : State) : HeldView :=
  ⟨s.hbm.mem, s.hbm.pois, s.hbm.cal, s.clk.isl, s.ports, s.host.exec, s.host.elastic, s.host.bulk, s.host.stalled, s.nextId⟩

theorem Keeps.refl (s : State) : Keeps s s := ⟨.refl, id, id, .refl _, le_rfl⟩

theorem Keeps.trans {s t u : State} (h : Keeps s t) (k : Keeps t u) : Keeps s u :=
  ⟨h.hbm.trans k.hbm, k.isl ∘ h.isl, k.ports ∘ h.ports, k.ids.trans h.ids, h.next.trans k.next⟩

theorem Keeps.of_heldView {t u : State} (e : u.heldView = t.heldView) : Keeps t u := by
  simp only [State.heldView, HeldView.mk.injEq] at e
  obtain ⟨hmem, hpois, hcal, hisl, hports, hexec, helastic, hbulk, hstalled, hnext⟩ := e
  refine ⟨⟨?_, ?_⟩, ?_, ?_, ?_, ?_⟩
  · rw [Hbm.memWf, Hbm.memWf, hmem, hpois]; exact id
  · rw [hcal]; exact id
  · rw [hisl]; exact id
  · rw [hports]; exact id
  · rw [HostIf.ids, HostIf.ids, hexec, helastic, hbulk, hstalled]
  · rw [hnext]

section
variable {s t : State} (h : Keeps s t)
include h

/-- A change of what `Keeps` does not speak of. -/
theorem Keeps.same {u : State} (e : u.heldView = t.heldView) : Keeps s u := h.trans (.of_heldView e)

theorem Keeps.setHbm {u : State} (k : t.hbm.Stays u.hbm) (e : ({ u with hbm := t.hbm } : State).heldView = t.heldView) :
    Keeps s u :=
  have k' := Keeps.of_heldView e
  h.trans ⟨k, k'.isl, k'.ports, k'.ids, k'.next⟩

theorem Keeps.setIslands {u : State} (k : twf Island.off t.clk.isl = true → twf Island.off u.clk.isl = true)
    (e : ({ u with clk := t.clk } : State).heldView = t.heldView) : Keeps s u :=
  have k' := Keeps.of_heldView e
  h.trans ⟨k'.hbm, k, k'.ports, k'.ids, k'.next⟩

/-- A change of the clocks that leaves the islands alone. -/
theorem Keeps.withClk {x : Clocks} (e : x.isl = t.clk.isl) : Keeps s { t with clk := x } :=
  h.setIslands (by rw [e]; exact id) (by rfl)

theorem Keeps.withMss {x : MssState} : Keeps s { t with mss := x } := h.same (by rfl)

theorem Keeps.setPorts {u : State} (k : PortsWf t.ports → PortsWf u.ports)
    (e : ({ u with ports := t.ports } : State).heldView = t.heldView) : Keeps s u :=
  have k' := Keeps.of_heldView e
  h.trans ⟨k'.hbm, k'.isl, k, k'.ids, k'.next⟩

/-- The queues of commands hold nothing that the first state did not hold. -/
theorem Keeps.setIds {u : State} (k : u.host.ids.Subperm s.host.ids)
    (e : ({ u with host := t.host } : State).heldView = t.heldView) : Keeps s u :=
  have k' := h.trans (Keeps.of_heldView e)
  ⟨k'.hbm, k'.isl, k'.ports, k, k'.next⟩

theorem Keeps.setHost {u : State} (k : u.host.ids.Subperm t.host.ids)
    (e : ({ u with host := t.host } : State).heldView = t.heldView) : Keeps s u := h.setIds (k.trans h.ids) e

/-- An identity is given. -/
theorem Keeps.bump {u : State} (e : u.heldView = { t with nextId := t.nextId + 1 }.heldView) : Keeps s u :=
  h.trans (.trans (t := { t with nextId := t.nextId + 1 }) ⟨.refl, id, id, .refl _, Nat.le_succ _⟩ (.of_heldView e))

omit h in
theorem Keeps.ite {c : Prop} [Decidable c] {a b : State} (ha : Keeps s a) (hb : Keeps s b) : Keeps s (if c then a else b) := by
  split
  · exact ha
  · exact hb

omit h in
theorem Keeps.ite_fst {α : Type} {c : Prop} [Decidable c] {a b : State × α} (ha : Keeps s a.1) (hb : Keeps s b.1) :
    Keeps s (if c then a else b).1 := by
  split
  · exact ha
  · exact hb

theorem Keeps.foldl {β : Type} {f : State → β → State} (hf : ∀ u b, Keeps s u → Keeps s (f u b)) {l : List β} :
    Keeps s (l.foldl f t) :=
  List.foldlRecOn l f h fun u hu b _ => hf u b hu

/-! ### Units -/

theorem Keeps.setCore {k c} : Keeps s (t.setCore k c) := h.same (by rfl)

theorem Keeps.modCore {k f} : Keeps s (t.modCore k f) := h.setCore

theorem Keeps.setJob {j x} : Keeps s (t.setJob j x) := h.same (by rfl)

/-- A port changes; its fabric calendar keeps its form, as it does where it is left alone. -/
theorem Keeps.setPort {p x} (k : twf FCal.free (t.port p).cal = true → twf FCal.free x.cal = true) :
    Keeps s (t.setPort p x) :=
  h.setPorts (fun hp => portsWf_tput hp (k (hp.2 p))) (by rfl)

theorem Keeps.setHub {i x} : Keeps s (t.setHub i x) := h.same (by rfl)

theorem Keeps.setQueue {q x} : Keeps s (t.setQueue q x) := h.same (by rfl)

theorem Keeps.setIsland {i x} : Keeps s (t.setIsland i x) := h.setIslands (twf_tput _ _ _ _) (by rfl)

theorem Keeps.setRing {r x} : Keeps s (t.setRing r x) := h.same (by rfl)

theorem Keeps.emit {o} : Keeps s (t.emit o) := h.same (by rfl)

theorem Keeps.put {m} : Keeps s (t.put m) := h.bump (by rfl)

theorem Keeps.take {id} : Keeps s (t.take id) := h.same (by rfl)

end

end Sys2Proof.Machine
end

section
/-!
SUPPORT. The operations of the model keep HBM, the tables and the identities in form: one lemma for each, in the model's order.
-/

namespace Sys2Proof.Machine

open Sys2Proof Sys2Proof.Safety Sys2Proof.Claims

section
variable {s t : State} (h : Keeps s t)
include h

/-! ### Operations of Device -/

theorem Keeps.mapPorts {f} (hf : ∀ x : Port, twf FCal.free x.cal = true → twf FCal.free (f x).cal = true) :
    Keeps s (t.mapPorts f) :=
  h.setPorts (fun hp => portsWf_mapFilter hp hf) (by rfl)

theorem Keeps.draw : Keeps s t.draw := h.same (by rfl)

theorem Keeps.alert {k} : Keeps s (t.alert k) := h.same (by rfl)

theorem Keeps.ledger {type data} : Keeps s (t.ledger type data) := .ite (h.same (by rfl)) (.alert (h.same (by rfl)))

theorem Keeps.ledgerFault {data} : Keeps s (t.ledgerFault data) := .ite (.ledger (h.same (by rfl))) (h.same (by rfl))

theorem Keeps.logRec {f} : Keeps s (t.logRec f).1 := .ledgerFault (.emit (h.same (by rfl)))

theorem Keeps.logNamed {k byCore f} : Keeps s (t.logNamed k byCore f) := .ite h (.ite h.logRec.setJob h.logRec)

theorem Keeps.logCore {k f} : Keeps s (t.logCore k f) := h.logNamed

theorem Keeps.sendOwn {p dev b} : Keeps s (t.sendOwn p dev b) := .ite (h.setPort Port.twf_push) h

theorem Keeps.sendPartner {p b} : Keeps s (t.sendPartner p b) := h.sendOwn

theorem Keeps.sendCluster {b} : Keeps s (t.sendCluster b) :=
  .foldl (h.foldl fun _ _ hu => hu.sendPartner) fun _ _ hu => hu.sendOwn

theorem Keeps.sendOn {dev out x} : Keeps s (t.sendOn dev out x) := .ite (h.same (by rfl)) (h.setPort Port.twf_push)

theorem Keeps.sendEntry {out a} : Keeps s (t.sendEntry out a) := .ite (h.same (by rfl)) (h.setPort (by exact id))

theorem Keeps.answerTo {r st cause pc slot data poison} : Keeps s (t.answerTo r st cause pc slot data poison) := by
  unfold State.answerTo
  dsimp only
  split
  · exact h
  · exact h
  · split
    · exact h
    · exact .ite h.put h.put
  · exact h.emit
  · exact h.put
  · exact .ite h h.setQueue
  · split
    · split
      · exact h.same (by rfl)
      · exact .sendEntry (h.same (by rfl))
    · split
      · exact h.same (by rfl)
      · exact .sendOn (h.same (by rfl))

theorem Keeps.answer {r st cause pc slot data poison} : Keeps s (t.answer r st cause pc slot data poison) := by
  unfold State.answer
  dsimp only
  split
  · split
    · exact h
    · split
      · exact h.same (by rfl)
      · split
        · exact .answerTo (h.same (by rfl))
        · exact .answerTo (h.same (by rfl))
  · exact h.answerTo

theorem Keeps.sendFabric {hdr data sched r} : Keeps s (t.sendFabric hdr data sched r) := by
  unfold State.sendFabric
  split
  · exact h.answer
  · exact .ite h.answer (.ite (.same h (by rfl)) (.setPort (.same h (by rfl)) Port.twf_inject))

theorem Keeps.fenceAnswer {m} : Keeps s (t.fenceAnswer m) := by
  unfold State.fenceAnswer
  split
  · exact h.answer
  · split
    · exact h.answer
    · exact h.answer
  · exact h.answer
  · exact h.answer
  · exact h

theorem Keeps.deliver {m} : Keeps s (t.deliver m) := by
  unfold State.deliver
  split
  · exact h.answer
  · exact .ite h.setQueue.answer (.ite h.setQueue.answer h.answer)
  · exact h.sendFabric
  · exact h.put

theorem Keeps.noteFirst {k} : Keeps s (t.noteFirst k) := .ite h (.ite h.setJob h)

theorem Keeps.onCore {k f} : Keeps s (t.onCore k f) := by
  have hc : ∀ c : Core, Keeps s
      (((c.tx.foldl State.deliver (c.flt.foldl (fun (s : State) x => s.logCore k x)
        { t.setCore k { c with fc := 0, flt := [], tx := [] } with freeCtr := c.fc }))).noteFirst k) := fun c =>
    .noteFirst (.foldl (.foldl (.same h (by rfl)) fun _ _ hu => hu.logCore) fun _ _ hu => hu.deliver)
  unfold State.onCore
  exact .ite h (.ite (.same (hc _) (by rfl)) (hc _))

/-! ### Operations of Access -/

theorem Keeps.modHub {i f} : Keeps s (t.modHub i f) := h.setHub

theorem Keeps.logUnit {source unit island cls stop job run s0 s1} :
    Keeps s (t.logUnit source unit island cls stop job run s0 s1).1 := h.logRec

theorem Keeps.hbmError {burst ue} : Keeps s (t.hbmError burst ue) :=
  .ite (.logUnit (.same h.modHub (by rfl))) (.ite (.ledger (.same h.modHub (by rfl))) (.same h.modHub (by rfl)))

theorem Keeps.hbmErrors {ecc k l} : Keeps s (State.hbmErrors ecc k l t).1 := by
  induction l generalizing t k with
  | nil => exact h
  | cons b l ih => exact ih (.foldl h fun _ _ hu => hu.hbmError)

theorem Keeps.touch {ecc l} : Keeps s (t.touch ecc l).1 := h.hbmErrors

/-! ### Operations of Common -/

theorem Keeps.issueOn {x e lead body} : Keeps s (t.issueOn x e lead body) := h.onCore

/-! ### Operations of Queues -/

theorem Keeps.refuse {qid r st} : Keeps s (t.refuse qid r st) := h.setQueue.answer

theorem Keeps.ringWrite {qid hbm reader base off d poison src r} : Keeps s (t.ringWrite qid hbm reader base off d poison src r) :=
  .ite (.answer (.setHbm h Hbm.stays_put (by rfl))) h.put

theorem Keeps.placeMain {qid n conn r} : Keeps s (t.placeMain qid n conn r) := .ringWrite (.ite (.same h (by rfl))
    (.ringWrite (.same h (by rfl))))

theorem Keeps.placeSpill {qid n r} : Keeps s (t.placeSpill qid n r) := by
  refine .answer (.setHbm h ?_ (by rfl))
  dsimp only
  split
  · exact Hbm.stays_put
  · exact Hbm.stays_put.trans Hbm.stays_put

theorem Keeps.placeElastic {qid n conn r} : Keeps s (t.placeElastic qid n conn r) :=
  .ite h.placeMain (.ite h.refuse (.ite h.setQueue.answer (.ite h.placeSpill h.setQueue.answer)))

theorem Keeps.returnCredit {c n} : Keeps s (t.returnCredit c n) := .ite h (.ite h.put h.answer)

theorem Keeps.popFront {qid} : Keeps s (t.popFront qid) := h.setQueue

theorem Keeps.release {qid no} : Keeps s (t.release qid no) := by
  unfold State.release
  dsimp only
  split
  · exact h
  · split
    · exact .ite h.setQueue.popFront.returnCredit h.setQueue.popFront
    · exact h.setQueue.popFront

theorem Keeps.hubConn {q qid op} : Keeps s (t.hubConn q qid op) := h.deliver

theorem Keeps.queueGone {qid} : Keeps s (t.queueGone qid) :=
  .ite h (.ite (.ite h.setQueue.setHub.hubConn h.setQueue) (.modCore (.ite h.setQueue.setHub.hubConn h.setQueue)))

theorem Keeps.deliverTotal {qid e partl} : Keeps s (t.deliverTotal qid e partl) := h.setHub.setQueue.deliver

theorem Keeps.expireBefore {qid key at0} : Keeps s (t.expireBefore qid key at0) := by
  unfold State.expireBefore
  dsimp only
  split
  · exact h
  · split
    · exact h
    · exact .ite h.deliverTotal h

/-! ### Operations of Records -/

theorem Keeps.addRecord {ring x} : Keeps s (t.addRecord ring x) := .ite (h.same (by rfl)) h.setRing

theorem Keeps.cmdRecord {c st detail} : Keeps s (t.cmdRecord c st detail) := .ite h h.addRecord

theorem Keeps.finish {id st detail} : Keeps s (t.finish id st detail) := by
  unfold State.finish
  split
  · exact h
  · exact .cmdRecord (.setHost h (HostIf.ids_filter _ _) (by rfl))

theorem Keeps.badState {id} : Keeps s (t.badState id) := by
  unfold State.badState
  split
  · exact h
  · exact h.finish

theorem Keeps.badParam {id k} : Keeps s (t.badParam id k) := h.finish

theorem Keeps.noRecord {id st} : Keeps s (t.noRecord id st) := h.finish

theorem Keeps.settleDevice : Keeps s t.settleDevice := by
  unfold State.settleDevice
  dsimp only
  split
  · exact h.same (by rfl)
  · split
    · exact h.same (by rfl)
    · split
      · split
        · exact .finish (h.same (by rfl))
        · exact h.same (by rfl)
      · exact h

theorem Keeps.runRecord {r st detail digest} : Keeps s (t.runRecord r st detail digest) := h.addRecord

/-! ### Operations of Blocks -/

theorem Keeps.noteCore {k} : Keeps s (t.noteCore k) := .ite h h.setJob

theorem Keeps.assignAt {k} : Keeps s (t.assignAt k) := by
  unfold State.assignAt
  dsimp only
  split
  · exact h
  · split
    · exact h
    · split
      · exact h
      · exact h.setQueue

theorem Keeps.resumeCore {k} : Keeps s (t.resumeCore k) :=
  .ite h (.ite (.ite h.onCore h) (.ite (.ite h.assignAt h.assignAt.onCore) h))

/-! ### Operations of Host -/

theorem Keeps.touchBuffers {ecc l} : Keeps s (t.touchBuffers ecc l).1 := h.touch

theorem Keeps.scrWrite {core a d poison} : Keeps s (t.scrWrite core a d poison) := h.foldl fun _ _ hu => hu.put

theorem Keeps.writeOut {device addr d} : Keeps s (t.writeOut device addr d) := by
  unfold State.writeOut
  split
  · exact h
  · dsimp only
    split
    · exact .setHbm h Hbm.stays_put (by rfl)
    · exact h.scrWrite
    · exact h

theorem Keeps.result {addr d} : Keeps s (t.result addr d) := .ite h h.writeOut.emit

theorem Keeps.defined {fields v} : Keeps s (t.defined fields v).1 := .ite_fst h h.draw

theorem Keeps.dropHostReqs : Keeps s t.dropHostReqs := h.same (by rfl)

theorem Keeps.linkDown : Keeps s t.linkDown :=
  .dropHostReqs (.setHost h (HostIf.ids_congr (map_id_map (f := Cmd.muted) (fun _ => rfl) _)
    (map_id_map (f := Cmd.muted) (fun _ => rfl) _) (map_id_map (f := Cmd.muted) (fun _ => rfl) _)
    (map_id_map (f := Cmd.muted) (fun _ => rfl) _)) (by rfl))

theorem Keeps.writeSqTail {ring v} : Keeps s (t.writeSqTail ring v) := .ite h.setRing h

theorem Keeps.writeCqHead {ring v} : Keeps s (t.writeCqHead ring v) := .ite h.setRing h

theorem Keeps.writeRingCtrl {ring v} : Keeps s (t.writeRingCtrl ring v) := h.defined.setRing

theorem Keeps.writeDefer {ring v} : Keeps s (t.writeDefer ring v) := h.same (by rfl)

theorem Keeps.setHdm {n x} : Keeps s (t.setHdm n x) := by
  cases n
  · exact h.same (by rfl)
  · exact h.same (by rfl)

theorem Keeps.writeBiasCmd {v} : Keeps s (t.writeBiasCmd v) := .ite (.same h.defined (by rfl)) (.ite (.same h.defined
    (by rfl)) (.same h.defined (by rfl)))

theorem Keeps.hostReq {hpa dpa r} : Keeps s (t.hostReq hpa dpa r) := h.foldl fun _ _ hu => hu.put

theorem Keeps.writeBar2Sel {v} : Keeps s (t.writeBar2Sel v) := .same h.defined (by rfl)

/-! ### Operations of Thermal -/

theorem Keeps.thermalRun {job run x} : Keeps s (t.thermalRun job run x) := h.logUnit.setJob

theorem Keeps.ledgerThermal {sensor value point} : Keeps s (t.ledgerThermal sensor value point) := h.ledger

theorem Keeps.thermalNoted {x} : Keeps s (t.thermalNoted x) := h.ledgerThermal.alert

theorem Keeps.thermalAll {x} : Keeps s (t.thermalAll x) := .ite h (.thermalNoted (h.foldl fun _ _ hu => hu.thermalRun))

theorem Keeps.thermalStart {job run} : Keeps s (t.thermalStart job run) := by
  unfold State.thermalStart
  split
  · exact h
  · exact h.thermalRun.thermalNoted

theorem Keeps.setThrottle {n} : Keeps s (t.setThrottle n) := by
  unfold State.setThrottle
  dsimp only
  split
  · exact .ite (h.same (by rfl)) (.same (h.same (by rfl)) (by rfl))
  · exact .ite (h.same (by rfl)) (.same (h.same (by rfl)) (by rfl))
  · exact .ite (h.same (by rfl)) (.same (h.same (by rfl)) (by rfl))

theorem Keeps.throttleStep {sensor value n} : Keeps s (t.throttleStep sensor value n) :=
  .alert (.ledgerThermal (.setThrottle (h.same (by rfl))))

/-! ### Operations of Runs -/

theorem Keeps.spoilDigests {job set} : Keeps s (t.spoilDigests job set) := h.same (by rfl)

theorem Keeps.startRun {job a} : Keeps s (t.startRun job a) := .thermalStart (h.spoilDigests.setJob.foldl fun _ _ hu => hu.onCore)

theorem Keeps.settleJob {job} : Keeps s (t.settleJob job) := .ite h (.settleDevice (h.setJob.foldl fun _ _ hu => hu.finish))

theorem Keeps.cancelStarts {job} : Keeps s (t.cancelStarts job) := h.setJob.foldl fun _ _ hu => hu.noRecord

theorem Keeps.missTick {job p t0} : Keeps s (t.missTick job p t0) := h.logUnit.addRecord.setJob

theorem Keeps.freeCtx {job run} : Keeps s (t.freeCtx job run) := h.foldl fun _ _ hu => hu.modCore

theorem Keeps.newDigest {job r st} : Keeps s (t.newDigest job r st).1 := .ite_fst h (h.same (by rfl))

theorem Keeps.faultCapture {cores idx} : Keeps s (t.faultCapture cores idx) := .ite (h.same (by rfl)) (h.same (by rfl))

theorem Keeps.deviceFault {cause rec} : Keeps s (t.deviceFault cause rec) :=
  .foldl (h.same (by rfl)) fun _ _ hu =>
    .ite hu (.foldl (.setJob (hu.cancelStarts.foldl fun _ _ hv => hv.runRecord.freeCtx)) fun _ _ hv => hv.noRecord)

theorem Keeps.markCore {p} : Keeps s (t.markCore p) := .ite h (h.same (by rfl))

/-! ### Operations of Hbm -/

theorem Keeps.calRefuse {r cause slot} : Keeps s (t.calRefuse r cause slot) := h.modHub.answer

theorem Keeps.addEgress {l} : Keeps s (t.addEgress l) := h.same (by rfl)

theorem Keeps.perform {pc run ecc k r} : Keeps s (t.perform pc run ecc k r).1 := by
  unfold State.perform
  split
  · exact .addEgress (.ite h.hbmErrors.draw h.hbmErrors)
  · exact .setHbm (t := { t with nextId := t.nextId + 1 }) (h.bump (by rfl)) Hbm.stays_write (by rfl)
  · exact .addEgress (.setHbm h.hbmErrors Hbm.stays_put (by rfl))
  · exact .same h.hbmErrors (by rfl)

theorem Keeps.performAll {pc run ecc k l} : Keeps s (State.performAll pc run ecc k l t) := by
  induction l generalizing t k with
  | nil => exact h
  | cons r l ih => exact ih h.perform

theorem Keeps.elasticRun {pc run ecc lent} : Keeps s (t.elasticRun pc run ecc lent) := by
  unfold State.elasticRun
  dsimp only
  split
  · exact h
  · exact .performAll (.ite (.modHub (h.same (by rfl))) (h.same (by rfl)))

theorem Keeps.egress {x} : Keeps s (t.egress x) := .ite h.answer (h.foldl fun _ _ hu => hu.put)

theorem Keeps.slip {c kind src dst skew pc slot} : Keeps s (t.slip c kind src dst skew pc slot) := h.setCore.logCore

theorem Keeps.linkSlipped {c kind pc slot} : Keeps s (t.linkSlipped c kind pc slot) := h.modHub.slip

/-! ### Operations of Clocks -/

theorem Keeps.onIsland {i delta} : Keeps s (t.onIsland i delta).1 := by
  unfold State.onIsland
  split
  · exact h
  · split
    · exact h.same (by rfl)
    · split
      · exact h
      · dsimp only
        exact h.onCore

theorem Keeps.endSlips : Keeps s t.endSlips :=
  h.setIslands (twf_mapFilter fun x => by split <;> rfl) (by rfl)

theorem Keeps.dieEvent : Keeps s t.dieEvent := .endSlips (h.foldl fun _ _ hu => .ite hu.setIsland hu)

theorem Keeps.calibrate {given span i} : Keeps s (t.calibrate given span i) := h.draw.setIsland

theorem Keeps.planStep {m} : Keeps s (t.planStep m) := .ite h (.sendCluster (h.same (by rfl)))

theorem Keeps.correct {x} : Keeps s (t.correct x) := .planStep (h.same (by rfl))

theorem Keeps.stepFrom {e} : Keeps s (t.stepFrom e) := .ite (h.same (by rfl)) (.ite (.planStep (h.same (by rfl))) (.same
    (h.same (by rfl)) (by rfl)))

theorem Keeps.align {e} : Keeps s (t.align e) := .ite (h.same (by rfl)) (.ite (.same (h.same (by rfl)) (by rfl)) (.stepFrom
    (.same (h.same (by rfl)) (by rfl))))

theorem Keeps.bootStep : Keeps s t.bootStep := by
  unfold State.bootStep
  split
  · exact h.stepFrom
  · exact h

theorem Keeps.ledgerRef {r} : Keeps s (t.ledgerRef r) := h.ledger

theorem Keeps.referenceBack {rs} : Keeps s (t.referenceBack rs) := by
  unfold State.referenceBack
  dsimp only
  split
  · exact h
  · exact .ite (.ledgerRef (h.same (by rfl))) (h.same (by rfl))

theorem Keeps.gateClocks {on} : Keeps s (t.gateClocks on) := by
  refine h.setIslands (twf_map (fun x => ?_) (fun x hx => ?_)) (by rfl)
  · dsimp only
    split
    · rfl
    · rfl
  · dsimp only
    split
    · next hp =>
      intro e
      have hq : x.2.present = false := congrArg Island.present (a₁ := { x.2 with clocked := on }) e
      simp [hq] at hp
    · exact hx

theorem Keeps.resumeAll : Keeps s t.resumeAll := h.foldl fun _ _ hu => hu.resumeCore

theorem Keeps.nextChange : Keeps s t.nextChange := by
  unfold State.nextChange
  dsimp only
  split
  · exact h.same (by rfl)
  · split
    · exact h.same (by rfl)
    · split
      · exact .same (h.same (by rfl)) (by rfl)
      · exact .same (h.same (by rfl)) (by rfl)

/-! ### Operations of Ports -/

theorem Keeps.bounce {port i st} : Keeps s (t.bounce port i st) := .ite h.answer h

theorem Keeps.release1 {m} : Keeps s (t.release1 m) := by
  unfold State.release1
  split
  · exact h
  · refine .setPort (.foldl h fun _ _ hu => .setPort hu fun k => ?_) (by exact id)
    split
    · exact Port.twf_push k
    · exact Port.twf_inject k

theorem Keeps.drainMoved : Keeps s t.drainMoved := .foldl (h.same (by rfl)) fun _ _ hu => hu.release1

theorem Keeps.dropOut {agent tag} : Keeps s (t.dropOut agent tag) := h.same (by rfl)

theorem Keeps.loseOut {p} : Keeps s (t.loseOut p) := .drainMoved (.foldl (h.same (by rfl)) fun _ _ hu => hu.answer)

theorem Keeps.switchRoutes {p} : Keeps s (t.switchRoutes p) := h.same (by rfl)

theorem Keeps.ledgerPort {p} : Keeps s (t.ledgerPort p) := h.ledger

theorem Keeps.ledgerPeer {p serial good} : Keeps s (t.ledgerPeer p serial good) := h.ledger

theorem Keeps.freeBuffer {y} : Keeps s (t.freeBuffer y) := by
  unfold State.freeBuffer
  dsimp only
  split
  · exact h.setPort (by exact id)
  · exact h

theorem Keeps.closePort {p st cause} : Keeps s (t.closePort p st cause) := by
  refine .drainMoved (.switchRoutes (.loseOut (.foldl (.setPort h fun k => ?_) fun _ _ hu => hu.freeBuffer.bounce)))
  split
  · exact k
  · exact k

theorem Keeps.fence {p cause} : Keeps s (t.fence p cause) := h.closePort.ledgerPort.alert

theorem Keeps.trainPort {p} : Keeps s (t.trainPort p) := h.setPort (by exact id)

theorem Keeps.random {n} : Keeps s (t.random n).1 := h.same (by rfl)

theorem Keeps.narrow {p x l} (k : twf FCal.free (t.port p).cal = true → twf FCal.free x.cal = true) : Keeps s (t.narrow p x l) :=
  .alert (.ledgerPort (h.setPort (by exact k)))

theorem Keeps.laneFail {p k} : Keeps s (t.laneFail p k) :=
  .ite h (.ite (h.setPort (by exact id)) (.ite (.ledgerPort (h.setPort (by exact id))) (.ite (h.narrow id) (.ledgerPort
      (.closePort (h.setPort (by exact id)))))))

/-! ### Operations of Packets -/

theorem Keeps.stompCopy {i} : Keeps s (t.stompCopy i) := by
  unfold State.stompCopy
  dsimp only
  split
  · exact h
  · split
    · exact h
    · exact .ite h (.emit (h.setPort (by exact id)))

theorem Keeps.received {x} : Keeps s (t.received x).1 :=
  .ite_fst h (.ite_fst (h.setPort (by exact id)) (.ite_fst (.stompCopy (h.setPort (by exact id))) (.ite_fst (h.setPort
      (by exact id)) (h.setPort (by exact id)))))

theorem Keeps.keepBuffer {port vc} : Keeps s (t.keepBuffer port vc) := h.setPort (by exact id)

theorem Keeps.forward {port hdr data own} : Keeps s (t.forward port hdr data own) := by
  unfold State.forward
  dsimp only
  split
  · exact .ite h.bounce (.setPort (.keepBuffer (h.same (by rfl))) Port.twf_push)
  · split
    · exact h.bounce
    · exact .ite h.bounce (.ite (h.keepBuffer.setPort Port.twf_push) h.keepBuffer.sendOn)

theorem Keeps.dropLog {port cause i} : Keeps s (t.dropLog port cause i) := h.same (by rfl)

theorem Keeps.apertureDrop {port hdr} : Keeps s (t.apertureDrop port hdr) :=
  .bounce (.ite (.dropLog (h.setPort (by exact id))) (.ledgerPort (.setPorts h (fun hp => portsWf_tput hp (by exact hp.2 _))
      (by rfl))))

theorem Keeps.countLate {port late} : Keeps s (t.countLate port late) := .ite (h.setPort (by exact id)) h

theorem Keeps.countTerm {i} : Keeps s (t.countTerm i) := .ite h (.ite (h.same (by rfl)) h)

theorem Keeps.packet {x type own act} (ha : ∀ u, Keeps s u → Keeps s (act u)) : Keeps s (t.packet x type own act) :=
  .ite h (.ite h.received (.ite (ha _ h.received) (.ite h.received.forward
    (.ite (.dropLog (.setPort h.received (by exact id))) (ha _ h.received.countTerm)))))

theorem Keeps.request {x type k range act} (ha : ∀ u, Keeps s u → Keeps s (act u)) : Keeps s (t.request x type k range act) :=
  h.packet fun u hu => .ite (ha u hu) hu.apertureDrop

theorem Keeps.begun {r} : Keeps s (t.begun r) := h.same (by rfl)

theorem Keeps.toMemory {x req r} : Keeps s (t.toMemory x req r) := by
  unfold State.toMemory
  dsimp only
  split
  · exact .ite h.put (.foldl (h.bump (by rfl)) fun _ _ hu => hu.put)
  · exact .ite h.answer h.put
  · exact h.answer

theorem Keeps.queuePacket {x type op} : Keeps s (t.queuePacket x type op) := h.request fun _ hu => .put hu.begun

theorem Keeps.farAnswer {agent tag type status data poison} : Keeps s (t.farAnswer agent tag type status data poison) := by
  unfold State.farAnswer
  dsimp only
  split
  · exact h
  · exact .ite h h.answer.dropOut.drainMoved

theorem Keeps.pktAnswer {i type data poison} : Keeps s (t.pktAnswer i type data poison) := h.farAnswer

theorem Keeps.timeStamps {port t1 t4} : Keeps s (t.timeStamps port t1 t4) := by
  unfold State.timeStamps
  dsimp only
  split
  · exact .ite h (.align (.setPorts h (fun hp => portsWf_tput hp (by exact hp.2 _)) (by rfl)))
  · exact h

theorem Keeps.heartbeat {epoch master serial} : Keeps s (t.heartbeat epoch master serial) := by
  have hm : Keeps s (if t.fab.role = 1 then { t with clk := { t.clk with master := false } } else t) := .ite (h.same (by rfl)) h
  exact .ite (h.same (by rfl)) (.ite h (hm.same (by rfl)))

theorem Keeps.installCircuit {id c slots} : Keeps s (t.installCircuit id c slots) :=
  .ite (h.same (by rfl)) (.setPort (h.same (by rfl)) Port.twf_pendSlots)

theorem Keeps.removeCircuit {id} : Keeps s (t.removeCircuit id) :=
  .ite (h.same (by rfl)) (.setPort (h.same (by rfl)) Port.twf_pendSlots)

theorem Keeps.sendShare {port} : Keeps s (t.sendShare port) := .sendPartner (.setPort (.same h (by rfl)) (by exact id))

/-! ### Operations of Transmit -/

theorem Keeps.transmit {p y} : Keeps s (t.transmit p y) := by
  refine .emit (.freeBuffer (.setPort (.ite (h.same (by rfl)) h) ?_))
  split
  · exact id
  · exact id

theorem Keeps.sendAck {p dev} : Keeps s (t.sendAck p dev) := .transmit (h.setPort (by exact id))

theorem Keeps.replay {p n} : Keeps s (t.replay p n) := by
  unfold State.replay
  dsimp only
  split
  · exact h.setPort (by exact id)
  · exact .emit (.ite (.ledgerPort (h.setPort (by exact id))) (h.setPort (by exact id)))

theorem Keeps.sendOf {p y} : Keeps s (t.sendOf p y) := by
  cases y
  · exact h.replay
  · exact h.sendAck
  · exact h.transmit

theorem Keeps.reroute {d e} : Keeps s (t.reroute d e) := by
  unfold State.reroute
  dsimp only
  split
  · exact h.same (by rfl)
  · exact .ite (.same (h.same (by rfl)) (by rfl)) (h.same (by rfl))

theorem Keeps.fabricFrame {n} : Keeps s (t.fabricFrame n) :=
  .foldl (.mapPorts (.same h (by rfl)) fun _ k => twf_turnFabric k) fun _ _ hu => hu.reroute

/-! ### Operations of Registers -/

theorem Keeps.setRc {a v} : Keeps s (t.setRc a v) := by
  unfold State.setRc
  dsimp only
  split
  · exact h
  · split
    · exact h.same (by rfl)
    · exact h.setCore
    · exact h.setHub
    · exact h.setPort Port.twf_setRc
    · exact h.setIslands (by rw [Clocks.setRc_isl]; exact id) (by rfl)
    · exact h.same (by rfl)
    · exact h.same (by rfl)
    · exact h

theorem Keeps.readWord {a same} : Keeps s (t.readWord a same).1 := .ite_fst (.setRc (.same h (by rfl))) h.setRc

theorem Keeps.readTbtLow : Keeps s t.readTbtLow := .emit (h.same (by rfl))

theorem Keeps.readTbtHigh : Keeps s t.readTbtHigh := .emit (h.same (by rfl))

theorem Keeps.readFree {a len} : Keeps s (t.readFree a len) := h.draw.emit

theorem Keeps.readPair {off same half} : Keeps s (t.readPair off same half) := by
  unfold State.readPair
  dsimp only
  split
  · exact h.readWord.readWord.emit
  · exact .same h.readWord (by rfl)
  · split
    · exact h
    · exact .ite h (.emit (.same h.readWord (by rfl)))

/-! ### Operations of Commands -/

/-- A command whose identity is free to be held begins. -/
theorem Keeps.beginCmd {c : Cmd} (hc : (c.id :: t.host.ids).Subperm s.host.ids) : Keeps s (t.beginCmd c) := by
  unfold State.beginCmd
  dsimp only
  split
  · exact h.cmdRecord
  · exact .ite h.cmdRecord (.ite (.setJob (.setIds h (HostIf.ids_exec hc (by rfl)) (by rfl))) (.setIds h (HostIf.ids_exec hc
      (by rfl)) (by rfl)))

theorem Keeps.perform1 {id opc mine bad act} (ha : ∀ c, Keeps s (act c)) : Keeps s (t.perform1 id opc mine bad act) := by
  unfold State.perform1
  split
  · exact h
  · split
    · exact h
    · split
      · exact h.badParam
      · split
        · exact h.badParam
        · exact .ite h.badState (ha _)

theorem Keeps.reading {id opc ecc bufs k} (hk : ∀ u, Keeps s u → Keeps s (k u)) : Keeps s (t.reading id opc ecc bufs k) := by
  unfold State.reading
  split
  · exact hk _ h
  · exact .ite (hk _ h) (.ite h.touchBuffers.noRecord (hk _ h.touchBuffers))

theorem Keeps.runCmd {id opc act} (ha : ∀ c, Keeps s (act c)) : Keeps s (t.runCmd id opc act) := h.perform1 ha

theorem Keeps.await {id} : Keeps s (t.await id) :=
  h.setHost (HostIf.ids_congr (map_id_map (fun _ => by split <;> rfl) _) rfl rfl rfl) (by rfl)

theorem Keeps.admitCmd {c : Cmd} (hc : (c.id :: t.host.ids).Subperm s.host.ids) : Keeps s (t.admitCmd c) := by
  unfold State.admitCmd
  dsimp only
  split
  · exact .setIds h (HostIf.ids_exec hc (by rfl)) (by rfl)
  · split
    · exact h.beginCmd hc
    · exact .ite (.setIds h (HostIf.ids_elastic hc) (by rfl)) (.setIds h (HostIf.ids_stalled hc) (by rfl))
    · exact .ite (.setIds h (HostIf.ids_bulk hc) (by rfl)) h.cmdRecord
    · exact h.cmdRecord

theorem Keeps.beginBulk : Keeps s t.beginBulk := by
  unfold State.beginBulk
  split
  · exact h
  · next c l e =>
    have hc := (HostIf.ids_of_bulk e).trans h.ids
    have hb : Keeps s { t with host := { t.host with bulk := l } } := .setIds h
        ((List.sublist_cons_self _ _).subperm.trans hc) (by rfl)
    exact .ite h (.ite hb.cmdRecord (hb.beginCmd hc))

/-! ### Operations of Vxe -/

theorem Keeps.vxeOn {x f} : Keeps s (t.vxeOn x f) := h.issueOn

/-! ### Operations of Jobs -/

theorem Keeps.writeResults {at0 l} : Keeps s (t.writeResults at0 l) := h.foldl fun _ _ hu => hu.result

theorem Keeps.loadJob {c x} : Keeps s (t.loadJob c x) := by
  unfold State.loadJob
  dsimp only
  split
  · exact h.noRecord
  · split
    · exact h.noRecord
    · next e =>
      split
      · exact h.noRecord
      · split
        · exact h.finish
        · exact .finish (.writeResults (.setJob (.setHbm h (Hbm.reserveAll_stays e) (by rfl))))

theorem Keeps.endLoad {held} : Keeps s (t.endLoad held) := by
  unfold State.endLoad
  split
  · exact h
  · exact .ite h.setJob h

theorem Keeps.emptyJob {job} : Keeps s (t.emptyJob job) :=
  .setJob (.foldl (.foldl (.foldl (.setHbm h Hbm.stays_release (by rfl)) fun _ _ hu => hu.removeCircuit) fun _ _ hu =>
      hu.queueGone)
    fun _ _ hu => hu.modCore)

/-! ### Operations of Capture -/

theorem Keeps.beginCapture {trigger cores cmd} : Keeps s (t.beginCapture trigger cores cmd) := h.same (by rfl)

theorem Keeps.endCapture : Keeps s t.endCapture := by
  unfold State.endCapture
  dsimp only
  split
  · exact .finish (.setHbm h Hbm.stays_putCapture (by rfl))
  · exact .setHbm h Hbm.stays_putCapture (by rfl)

theorem Keeps.writeCapStatus {v same} : Keeps s (t.writeCapStatus v same) := .ite (.same h.defined (by rfl)) h.defined

theorem Keeps.writeWdLimit {v} : Keeps s (t.writeWdLimit v) := h.same (by rfl)

/-! ### Operations of Mss -/

theorem Keeps.lostSensor {n} : Keeps s (t.lostSensor n) := h.ledger.alert

theorem Keeps.hubTemp {x r i} : Keeps s (t.hubTemp x r i) := by
  unfold State.hubTemp
  exact h.modHub

theorem Keeps.sampleRegs {x} : Keeps s (t.sampleRegs x) := by
  have hs : ∀ w, Keeps s w → ∀ l : List Nat, Keeps s ((upFrom 0 4).foldl (fun (s : State) i => s.hubTemp x
      (x.reading t.freeCtr) i)
      (l.foldl State.lostSensor w)) :=
    fun w hw l => .foldl (hw.foldl fun _ _ hu => hu.lostSensor) fun _ _ hu => hu.hubTemp
  exact .ite (.alert (hs _ (h.same (by rfl)) _)) (hs _ (h.same (by rfl)) _)

theorem Keeps.slower {sensor value} : Keeps s (t.slower sensor value) := .ite h h.throttleStep

theorem Keeps.act : Keeps s t.act := by
  unfold State.act
  dsimp only
  split
  · exact .ite h.thermalAll h.thermalAll.throttleStep
  · split
    · exact h
    · split
      · exact h.slower
      · exact .ite h.slower h

theorem Keeps.writePcap {v} : Keeps s (t.writePcap v) :=
  .ite (.same h.defined (by rfl)) (.ite (.same (.same h.defined (by rfl)) (by rfl)) (.same (.same h.defined (by rfl)) (by rfl)))

theorem Keeps.clearAlerts {v keep} : Keeps s (t.clearAlerts v keep) := h.same (by rfl)

theorem Keeps.writeAlert {v same} : Keeps s (t.writeAlert v same) := h.defined.clearAlerts

theorem Keeps.writeMbCtrl {v} : Keeps s (t.writeMbCtrl v) := .ite h.defined (.same h.defined (by rfl))

/-! ### Operations of Messages -/

theorem Keeps.respond {t0 d} : Keeps s (t.respond t0 d) := by
  unfold State.respond
  dsimp only
  split
  · exact h.same (by rfl)
  · split
    · exact h.same (by rfl)
    · exact .finish (.result (h.same (by rfl)))
  · exact h.emit

theorem Keeps.reply {t0 type code body} : Keeps s (t.reply t0 type code body) := h.respond

theorem Keeps.restartBegin : Keeps s t.restartBegin := .foldl (h.same (by rfl)) fun _ _ hu => by
    split
    · exact hu.noRecord
    · exact hu

theorem Keeps.ledgerBoot : Keeps s t.ledgerBoot := h.ledger

theorem Keeps.setSpdm {x} : Keeps s (t.setSpdm x) := h.same (by rfl)

theorem Keeps.spdmError {t0 code} : Keeps s (t.spdmError t0 code) := h.reply

theorem Keeps.negotiated {x act} (ha : Keeps s act) : Keeps s (t.negotiated x act) := .ite h (.ite h.spdmError ha)

theorem Keeps.ledgerUpdate {step svn st} : Keeps s (t.ledgerUpdate step svn st) := h.ledger

/-! ### Operations of Mxe -/

theorem Keeps.beamOn {x f} : Keeps s (t.beamOn x f) := h.issueOn

/-! ### Operations of Reset -/

theorem Keeps.raiseFence : Keeps s t.raiseFence := by
  have hf : ∀ (l : List Msg) u, Keeps s u → Keeps s (l.foldl State.fenceAnswer u) := fun _ _ hu =>
    hu.foldl fun _ _ hv => hv.fenceAnswer
  have h0 : Keeps s ((upFrom 0 4).foldl (fun (s : State) i => s.modHub i fun (x : Hub) => { x with cfence := true }) t) :=
    h.foldl fun _ _ hu => hu.modHub
  unfold State.raiseFence
  dsimp only
  generalize List.foldl _ t (upFrom 0 4) = w at h0 ⊢
  exact .setHbm (hf _ _ (.same h0 (by rfl))) Hbm.stays_dropDie (by rfl)

theorem Keeps.queuesGone : Keeps s t.queuesGone := h.foldl fun _ _ hu => hu.queueGone

theorem Keeps.emptyAll : Keeps s t.emptyAll := by
  have h0 : Keeps s ((upFrom 0 64).foldl (fun (s : State) k =>
      (s.job k).live.foldl (fun (s : State) r => s.runRecord r .eresetTarget 0xFFFF none) s) t) :=
    .foldl h fun _ _ hu => .foldl hu fun _ _ hv => hv.runRecord
  have h1 : ∀ w, Keeps s w → Keeps s ((upFrom 0 64).foldl (fun (s : State) k =>
      if (s.job k).state = jEMPTY then s else s.emptyJob k) w) := fun w hw => .foldl hw fun _ _ hu => .ite hu hu.emptyJob
  unfold State.emptyAll
  dsimp only
  generalize List.foldl _ t (upFrom 0 64) = w at h0 ⊢
  have h2 := (h1 _ (h0.foldl (f := fun (s : State) c => s.noRecord c.id .eresetTarget) (fun _ _ hu => hu.noRecord)
    (l := w.host.exec.filter Cmd.needsDie))).queuesGone
  generalize State.queuesGone _ = v at h2 ⊢
  exact h2.same (by rfl)

theorem Keeps.stopDie : Keeps s t.stopDie := .emptyAll (.same h.gateClocks.queuesGone (by rfl))

theorem Keeps.failCore {p} : Keeps s (t.failCore p) := .ite h (.ledger (h.same (by rfl)))

theorem Keeps.failRod {x} : Keeps s (t.failRod x) := .ite h (.ledger (h.same (by rfl)))

theorem Keeps.applyRemap {cores rods} : Keeps s (t.applyRemap cores rods) :=
  .same (.foldl (h.foldl fun _ _ hu => hu.failRod) fun _ _ hu => hu.failCore) (by rfl)

theorem Keeps.freshCores : Keeps s t.freshCores := h.same (by rfl)

theorem Keeps.failIslands {xlat} : Keeps s (t.failIslands xlat) := h.foldl fun _ _ hu => .ite hu.failCore.setIsland hu

theorem Keeps.calibrateDie {xlat badPlane} : Keeps s (t.calibrateDie xlat badPlane) :=
  .ite (.setIsland (.calibrate (h.failIslands.foldl fun _ _ hu => .ite hu.calibrate hu.setIsland)))
    (.calibrate (h.failIslands.foldl fun _ _ hu => .ite hu.calibrate hu.setIsland))

theorem Keeps.deviceRecord {cause island} : Keeps s (t.deviceRecord cause island).1 := h.logUnit

theorem Keeps.endReset {micros} : Keeps s (t.endReset micros) := by
  have h0 : Keeps s ((upFrom 0 4).foldl (fun (s : State) i => s.modHub i fun (x : Hub) => { x with cfence := false }) t) :=
    h.foldl fun _ _ hu => hu.modHub
  unfold State.endReset
  dsimp only
  generalize List.foldl _ t (upFrom 0 4) = w at h0 ⊢
  split
  · exact .foldl (.deviceFault (.deviceRecord (.same h0 (by rfl)))) fun _ _ hu => hu.finish
  · refine .nextChange ?_
    split
    · exact .finish (.foldl (.same h0 (by rfl)) fun _ _ hu => hu.finish)
    · exact .foldl (.same h0 (by rfl)) fun _ _ hu => hu.finish

theorem Keeps.resetPhase {r n} : Keeps s (t.resetPhase r n) := by
  unfold State.resetPhase
  dsimp only
  split
  · exact .raiseFence (h.same (by rfl))
  · exact .stopDie (h.same (by rfl))
  · exact .applyRemap (h.same (by rfl))
  · exact .freshCores (.foldl (h.same (by rfl)) fun _ _ hu => .ite hu.failCore hu)
  · exact .freshCores (.calibrateDie (h.same (by rfl)))
  · exact .endReset (h.same (by rfl))
  · exact h.same (by rfl)

theorem Keeps.advanceReset {upTo r} : Keeps s (t.advanceReset upTo r) :=
  h.foldl fun _ _ hu => .ite hu (.resetPhase (.ite (hu.same (by rfl)) hu))

theorem Keeps.beginReset {capture} : Keeps s (t.beginReset capture) := .ite (.beginCapture (h.same (by rfl))) (h.same (by rfl))

theorem Keeps.joinReset {id} : Keeps s (t.joinReset id) := .same h.await (by rfl)

/-! ### Operations of Package -/

/-- A package reset empties every table, and leaves the next identity. -/
theorem Keeps.packageReset {pwrok perstN trip} : Keeps s (t.packageReset pwrok perstN trip) :=
  ⟨⟨fun _ => State.reset_hbm_memWf, fun _ => rfl⟩, fun _ => rfl, fun _ => portsWf_nil, List.nil_subperm, h.next⟩

theorem Keeps.takeRole {sel} : Keeps s (t.takeRole sel) := h.same (by rfl)

theorem Keeps.startHubs : Keeps s t.startHubs := h.foldl fun _ _ hu => hu.modHub

theorem Keeps.disturb {l} : Keeps s (t.disturb l) := by
  refine .foldl h fun u b hu => ?_
  dsimp only
  split
  · exact .setHbm hu ⟨fun k => ⟨twf_writeBytes _ _ _ k.1, k.2⟩, id⟩ (by rfl)
  · exact hu.modCore
  · exact hu

theorem Keeps.disturbJob {job} : Keeps s (t.disturbJob job) := h.setJob

/-! ### Operations of Seq -/

theorem Keeps.arithOn {x f lat op} : Keeps s (t.arithOn x f lat op) := h.issueOn

/-! ### Operations of Steps -/

theorem Keeps.shift {mv} : Keeps s (t.shift mv) :=
  .setHost (.setPorts (u := { t with ports := (t.shift mv).ports }) h (fun hp => portsWf_mapFilter hp fun _ => id) (by rfl))
    (HostIf.ids_congr (map_id_map (f := Cmd.shift mv) (fun _ => rfl) _) (map_id_map (f := Cmd.shift mv) (fun _ => rfl) _)
      (map_id_map (f := Cmd.shift mv) (fun _ => rfl) _) (map_id_map (f := Cmd.shift mv) (fun _ => rfl) _)) (by rfl)

/-! ### Operations of Writes -/

theorem Keeps.writeRingWord {ring o v} : Keeps s (t.writeRingWord ring o v) := by
  unfold State.writeRingWord
  dsimp only
  split
  · exact .ite h h.setRing
  · exact .ite h h.setRing
  · exact .ite h h.setRing
  · exact .ite h h.setRing
  · exact h.writeRingCtrl
  · exact h.writeDefer
  · exact h

theorem Keeps.writeCpWord {o v} : Keeps s (t.writeCpWord o v) := by
  unfold State.writeCpWord
  dsimp only
  split
  · exact h.writeRingWord
  · split
    · exact h.same (by rfl)
    · exact .same h.defined (by rfl)
    · exact .same h.defined (by rfl)
    · exact h.writeBiasCmd
    · exact h

theorem Keeps.writeBell {o v} : Keeps s (t.writeBell o v) := by
  unfold State.writeBell
  split
  · exact h.writeSqTail
  · exact h.writeCqHead
  · exact h

theorem Keeps.writeMgWord {o v same} : Keeps s (t.writeMgWord o v same) := by
  unfold State.writeMgWord
  dsimp only
  split
  · exact h.same (by rfl)
  · split
    · exact h.writeAlert
    · exact h.writePcap
    · exact .same h.defined (by rfl)
    · exact h.writeMbCtrl
    · exact h

theorem Keeps.writeFlWord {o v same} : Keeps s (t.writeFlWord o v same) := by
  unfold State.writeFlWord
  dsimp only
  split
  · exact h.writeWdLimit
  · exact h.writeCapStatus
  · exact .same h.defined (by rfl)
  · exact h

theorem Keeps.writeHdmWord {o v} : Keeps s (t.writeHdmWord o v) := by
  unfold State.writeHdmWord
  dsimp only
  split
  · exact h.setHdm
  · exact h.setHdm
  · exact h.setHdm
  · exact h.setHdm
  · exact h

theorem Keeps.writeWord {a v same} : Keeps s (t.writeWord a v same) := by
  unfold State.writeWord
  split
  · exact h.writeBar2Sel
  · exact h.writeCpWord
  · exact h.writeBell
  · exact h.writeMgWord
  · exact h.writeFlWord
  · exact h.writeHdmWord
  · exact h

theorem Keeps.writePair {off v same half} : Keeps s (t.writePair off v same half) := by
  unfold State.writePair
  dsimp only
  split
  · exact h.writeWord.writeWord
  · exact .ite h.writeWord.writeWord h.writeWord
  · exact .ite h h.writeWord

/-! ### Operations of Step -/

theorem Keeps.tick : Keeps s t.tick := .ite (.same (h.same (by rfl)) (by rfl)) (h.same (by rfl))

/-! ### Operations of Dma -/

theorem Keeps.slotOn {x e slot load f} : Keeps s (t.slotOn x e slot load f) := h.issueOn

end

end Sys2Proof.Machine
end

section
/-!
SUPPORT. The commands keep HBM, the tables and the identities in form: a lemma for each whose meaning has more than one part.
-/

namespace Sys2Proof.Machine

open Sys2Proof Sys2Proof.Safety Sys2Proof.Claims

/-! ### Commands -/

theorem State.ledger_ports (s : State) (type : Nat) (data : List Byte) : (s.ledger type data).ports = s.ports := by
  unfold State.ledger
  dsimp only
  split <;> rfl

section
variable {s t u : State}

theorem Keeps.of_accept {i : Instr} {w u : State} (e : accept i w = .next u) (k : Keeps s w) : Keeps s u := by
  unfold accept at e
  split at e
  · cases e
  · split at e
    · cases e
    · cases e
      exact k

variable (h : Keeps s t)
include h

theorem Keeps.execPortAuthDone {port trusted signed enc serial}
    (e : execPortAuthDone port trusted signed enc serial t = .next u) : Keeps s u := by
  refine .of_accept e (.ite h (.ite (.setPort h.ledgerPeer fun k => ?_) h.ledgerPeer.closePort.ledgerPort))
  unfold State.port at k
  rwa [State.ledgerPeer, State.ledger_ports] at k

theorem Keeps.execHbmUePoisonStore {pc} (e : execHbmUePoisonStore pc t = .next u) : Keeps s u := by
  refine .of_accept e ?_
  split
  · exact h
  · refine .ite h (.setHbm h ⟨fun k => ⟨k.1, ?_⟩, id⟩ (by rfl))
    dsimp only
    exact twf_tput _ _ _ _ k.2

theorem Keeps.execPktMgmt {x b} (e : execPktMgmt x b t = .next u) : Keeps s u := by
  refine .of_accept e (h.packet fun u hu => ?_)
  split
  · exact hu.heartbeat
  · exact .ite hu (hu.same (by rfl))
  · exact hu.same (by rfl)
  · exact .ite hu hu.installCircuit
  · exact .ite hu hu.removeCircuit
  · exact hu.withClk (by rfl)
  · exact hu.withClk (by rfl)

theorem Keeps.execFabricSlot {port} (e : execFabricSlot port t = .next u) : Keeps s u := by
  have hx : ∀ y : Port, y.cal = (t.port port).cal → Keeps s (t.setPort port y) := fun y hy => h.setPort fun k => by rwa [hy]
  have ho : ∀ (w : State) (c : Bool) (a : Option Send), Keeps s w →
      Keeps s (if !c then w else match a with
        | none => w
        | some a => w.sendOf port a) := fun w c a hw => .ite hw (by
    split
    · exact hw
    · exact hw.sendOf)
  refine .of_accept e (.ite h ?_)
  generalize hy : (t.port port).admitWaiting t.clk.tbt.toNat = y
  have hc : y.cal = (t.port port).cal := by rw [← hy, Port.admitWaiting_cal]
  dsimp only
  split
  · exact ho _ _ _ (hx _ hc)
  · split
    · exact ho _ _ _ (hx _ hc)
    · split
      · exact .transmit (hx _ (by exact hc))
      · exact ho _ _ _ (hx _ hc)

theorem Keeps.execLinkWordSend {port} (e : execLinkWordSend port t = .next u) : Keeps s u := by
  refine .of_accept e (.ite h (.emit (.setPort h fun k => ?_)))
  dsimp only
  split
  · exact k
  · exact k

theorem Keeps.execCalendarFrameBoundary (e : execCalendarFrameBoundary t = .next u) : Keeps s u := by
  refine .of_accept e (.ite h ?_)
  dsimp only
  generalize hw : List.foldl _ t (upFrom 0 4) = w
  have h0 : Keeps s w := by
    rw [← hw]
    exact h.foldl fun _ _ hu => hu.modHub
  exact h0.setHbm (Hbm.stays_handOn.trans ⟨id, twf_turnCalendar⟩) (by rfl)

theorem Keeps.execTimebaseStep (e : execTimebaseStep t = .next u) : Keeps s u := by
  refine .of_accept e ?_
  dsimp only
  split
  · exact h
  · generalize hw : List.foldl _ _ (upFrom 0 4) = w
    have h0 : Keeps s w := by
      rw [← hw]
      exact .foldl (.fabricFrame (.same h.shift (by rfl))) fun _ _ hu => hu.modHub
    exact h0.setHbm (Hbm.stays_handOn.trans ⟨id, twf_turnCalendar⟩) (by rfl)

theorem Keeps.execThermtrip {sensor} (e : execThermtrip sensor t = .next u) : Keeps s u := by
  refine .of_accept e (.ite h ?_)
  dsimp only
  generalize hv : List.foldl _ t.linkDown (upFrom 0 16) = v
  have h0 : Keeps s v := by
    rw [← hv]
    exact h.linkDown.foldl fun _ _ hu => .ite hu hu.closePort
  generalize hw : List.foldl _ _ (upFrom 0 4) = w
  have h1 : Keeps s w := by
    rw [← hw]
    exact .foldl (h0.gateClocks.foldl fun _ _ hu => hu.setIsland) fun _ _ hu => hu.modHub
  exact h1.same (by rfl)

theorem Keeps.execEmergencyStretch {island delta} (e : execEmergencyStretch island delta t = .next u) : Keeps s u :=
  .of_accept e (.ite h.onIsland (.endSlips (.same h.onIsland.setIsland (by rfl))))

theorem Keeps.execDieEventGrant {delta} (e : execDieEventGrant delta t = .next u) : Keeps s u := by
  refine .of_accept e (.ite h (.ite (h.same (by rfl)) ?_))
  dsimp only
  generalize hw : State.dieEvent _ = w
  have h0 : Keeps s w := by
    rw [← hw]
    exact .dieEvent (.same h (by rfl))
  exact h0.same (by rfl)

theorem Keeps.execJtagExtest {levels} (e : execJtagExtest levels t = .next u) : Keeps s u := by
  refine .of_accept e (.ite (h.same (by rfl)) (.foldl ?_ fun _ _ hu => .ite hu.disturbJob hu))
  dsimp only
  generalize hw : List.foldl _ _ (upFrom 0 16) = w
  have h0 : Keeps s w := by
    rw [← hw]
    exact .foldl (.disturb (.draw (.same h (by rfl)))) fun _ _ hu => .ite hu.closePort.ledgerPort hu
  exact .ite h0.linkDown h0

theorem Keeps.execRegisterWrite {off x v} (e : execRegisterWrite off x v t = .next u) : Keeps s u :=
  .of_accept e (.ite h (.ite h.draw.writeWord (.ite h.writeWord h.writePair)))

theorem Keeps.execCommandExecute (e : execCommandExecute t = .next u) : Keeps s u := by
  refine .of_accept e ?_
  split
  · exact h.beginBulk
  · next c l he =>
    have hc : (c.id :: ({ t.host with elastic := l } : HostIf).unstall.ids).Subperm s.host.ids :=
      ((List.subperm_cons _).2 (HostIf.ids_unstall _)).trans ((HostIf.ids_of_elastic he).trans h.ids)
    have hb : Keeps s { t with host := { t.host with elastic := l }.unstall } :=
      .setIds h ((List.sublist_cons_self _ _).subperm.trans hc) (by rfl)
    exact .ite (hb.beginCmd hc) (.ite h.beginBulk h)

theorem Keeps.execBulkDeferralExpiry {id} (e : execBulkDeferralExpiry id t = .next u) : Keeps s u := by
  refine .of_accept e ?_
  split
  · exact h
  · exact .ite h (.cmdRecord (.setHost h (HostIf.ids_filterBulk _ _) (by rfl)))

theorem Keeps.execPldmFirmwareUpdate {x image sig powerLost} (e : execPldmFirmwareUpdate x image sig powerLost t = .next u) :
    Keeps s u := by
  refine .of_accept e (.ite h (.ite h.reply ?_))
  dsimp only
  generalize hw : (if decide (t.host.state = dRECOVERY) = true then t else _) = w
  have h0 : Keeps s w := by
    rw [← hw]
    exact .ite h (.ledgerUpdate (.setHbm h Hbm.stays_put (by rfl)))
  refine .ite h0.ledgerUpdate.reply (.ite (.same h0.ledgerUpdate (by rfl)) ?_)
  generalize hv : State.reply _ _ _ _ _ = v
  have h1 : Keeps s v := by
    rw [← hv]
    exact .reply (.ledgerUpdate (.same h0.ledgerUpdate (by rfl)))
  exact .ite (h1.same (by rfl)) h1

theorem Keeps.installAll {job l idx ids} (e : State.installAll job l idx t = .ok (u, ids)) : Keeps s u := by
  induction l generalizing t idx ids with
  | nil => cases e; exact h
  | cons x l ih =>
    unfold State.installAll at e
    dsimp only at e
    split at e
    · cases e
    · split at e
      · split at e
        · cases e
        · next hl =>
          cases e
          exact ih h.installCircuit.setJob hl
      · cases e

theorem Keeps.execSetCircuits {id entries later} (e : execSetCircuits id entries later t = .next u) : Keeps s u := by
  refine .of_accept e (h.reading fun u hu => hu.perform1 fun c => ?_)
  split
  · next he => exact (hu.installAll he).result.finish
  · exact hu.noRecord

theorem Keeps.execReserve {id entries} (e : execReserve id entries t = .next u) : Keeps s u := by
  refine .of_accept e (h.reading fun u hu => hu.perform1 fun c => ?_)
  dsimp only
  split
  · exact hu.noRecord
  · next he => exact .finish (.writeResults (.setHbm hu (Hbm.reserveAll_stays he) (by rfl)))

theorem Keeps.execOpenChannel {id image} (e : execOpenChannel id image t = .next u) : Keeps s u := by
  refine .of_accept e (h.reading fun u hu => hu.perform1 fun c => .ite hu.noRecord (.finish ?_))
  have hq : ∀ (q : Queue) (n i : Nat) (y : Hub), Keeps s
      (if q.kind = 1 then ((u.setQueue n q).setHub i y).hubConn q n (.opn 0) else u.setQueue n q) :=
    fun q n i y => .ite (.hubConn (.same hu (by rfl))) (.same hu (by rfl))
  exact .ite (.same (hq _ _ _ _) (by rfl)) (hq _ _ _ _)

theorem Keeps.execLoad {id image bindings placement} (e : execLoad id image bindings placement t = .next u) : Keeps s u :=
  .of_accept e (.endLoad (h.reading fun _ hu => hu.perform1 fun _ => hu.loadJob))

theorem Keeps.execComputeReset {id upTo r} (e : execComputeReset id upTo r t = .next u) : Keeps s u := by
  refine .of_accept e (.ite h ?_)
  split
  · exact h
  · exact .ite (.ite h.advanceReset h) (h.runCmd fun c =>
      .ite h.joinReset.advanceReset (.ite h h.beginReset.joinReset.advanceReset))

theorem Keeps.execCloseChannel {id} (e : execCloseChannel id t = .next u) : Keeps s u := by
  refine .of_accept e (h.runCmd fun c => .finish ?_)
  split
  · exact h.queueGone
  · exact h.setQueue
  · exact h

theorem Keeps.execCrossingSlip {c toCore words pkts} (e : execCrossingSlip c toCore words pkts t = .next u) : Keeps s u := by
  refine .of_accept e (.ite h ?_)
  dsimp only
  generalize hw : List.foldl _ _ _ = w
  have h0 : Keeps s w := by
    rw [← hw]
    refine .foldl (.same h (by rfl)) fun v i hv => ?_
    split
    · exact hv.same (by rfl)
    · exact hv
  exact .ite h0 (.slip h0.setIsland)

theorem Keeps.execPktTransit {x} (e : execPktTransit x t = .next u) : Keeps s u := .of_accept e (.ite h (h.packet fun _ hu => hu))

theorem Keeps.execBoot {p refPresent xlat} (e : execBoot p refPresent xlat t = .next u) : Keeps s u := by
  refine .of_accept e (.ite h ?_)
  dsimp only
  generalize hw : List.foldl _ _ (upFrom 140 4 ++ upFrom 144 18) = w
  have h0 : Keeps s w := by
    rw [← hw]
    exact .foldl (.calibrateDie (.takeRole (.applyRemap (.same h (by rfl))))) fun _ _ hu => hu.calibrate
  generalize hv : (if p.masterSel = 3 then w else List.foldl State.trainPort w (upFrom 0 16)) = v
  have h1 : Keeps s v := by
    rw [← hv]
    exact .ite h0 (h0.foldl fun _ _ hu => hu.trainPort)
  exact .ite h1 (h1.same (by rfl))

theorem Keeps.execBootImageVerified {image sig micros} (e : execBootImageVerified image sig micros t = .next u) : Keeps s u := by
  refine .of_accept e (.ite h (.ite (h.same (by rfl)) ?_))
  dsimp only
  generalize hw : State.bootStep _ = w
  have h0 : Keeps s w := by
    rw [← hw]
    exact .bootStep (.ledgerBoot (.freshCores (.startHubs (.same h (by rfl)))))
  exact .ite h0.deviceRecord.deviceFault (.ite h0.deviceRecord.deviceFault h0)

theorem Keeps.execOpStopResume {ticks} (e : execOpStopResume ticks t = .next u) : Keeps s u := by
  refine .of_accept e ?_
  split
  · exact h
  · next point who _ _ =>
    refine .ite h (.nextChange (.resumeAll ?_))
    cases who with
    | none => exact .withClk (.withClk h.gateClocks (by rfl)) (by rfl)
    | some id => exact .withClk (.finish (.withClk h.gateClocks (by rfl))) (by rfl)

theorem Keeps.execSetOpTimeout (e : execSetOpTimeout t = .next u) : Keeps s u := by
  refine .of_accept e ?_
  dsimp only
  split
  · exact h
  · refine .ite h (.nextChange (.resumeAll ?_))
    split
    · exact .noRecord (h.same (by rfl))
    · split
      · exact .ite (h.same (by rfl)) (.thermalAll (h.same (by rfl)))
      · exact h.same (by rfl)

theorem Keeps.execPktTime {x b} (e : execPktTime x b t = .next u) : Keeps s u := by
  refine .of_accept e (h.packet fun u hu => ?_)
  dsimp only
  split
  · exact .ite hu (.sendPartner (.referenceBack (.setPorts hu (fun hp => portsWf_tput hp (by exact hp.2 _)) (by rfl))))
  · exact .ite hu (hu.setPort (by exact id))

theorem Keeps.execPortJoinDone {port partner partnerPort serial routes}
    (e : execPortJoinDone port partner partnerPort serial routes t = .next u) : Keeps s u := by
  have hp : ∀ (n : Nat) (a : W32) (f : Fabric), Keeps s
      { t.setPort port { t.port port with state := pUP, since := n, peer := a } with fab := f } := fun n a f =>
    .same (t := t.setPort port { t.port port with state := pUP, since := n, peer := a }) (h.setPort (by exact id)) (by rfl)
  exact .of_accept e (.ite h (.ite (.sendPartner (hp _ _ _)) (hp _ _ _)))

theorem Keeps.execDmaRequestComplete {c delta txn} (e : execDmaRequestComplete c delta txn t = .next u) : Keeps s u := by
  refine .of_accept e (.ite h (.onCore ?_))
  split
  · exact h.take
  · exact h

theorem Keeps.execArm {id} (e : execArm id t = .next u) : Keeps s u := by
  refine .of_accept e (h.runCmd fun c => ?_)
  dsimp only
  split
  · exact h.noRecord
  · split
    · exact h.finish
    · exact .ite h.touch.noRecord (.finish (.settleDevice (.foldl (.same h.touch (by rfl)) fun _ _ hu => hu.modCore)))

theorem Keeps.execPortReset {id} (e : execPortReset id t = .next u) : Keeps s u := by
  refine .of_accept e (h.perform1 fun c => .finish ?_)
  have h0 : Keeps s ((t.closePort c.port pDOWN 7).setPort c.port ((t.closePort c.port pDOWN 7).port c.port).zeroCounts) :=
    h.closePort.setPort Port.twf_zeroCounts
  exact .ite h0.calibrate (.trainPort h0.calibrate)

theorem Keeps.execPortTrainingDone {port lanes link} (e : execPortTrainingDone port lanes link t = .next u) : Keeps s u := by
  refine .of_accept e (.ite h ?_)
  dsimp only
  generalize hw : State.random _ 32 = w
  have h0 : Keeps s w.1 := by
    rw [← hw]
    exact .random (h.setPort (by exact id))
  exact .sendPartner (.sendPartner (h0.setPort (by exact id)))

theorem Keeps.execServiceBlockEnd {c delta} (e : execServiceBlockEnd c delta t = .next u) : Keeps s u := by
  refine .of_accept e ?_
  dsimp only
  split
  · exact h
  · split
    · exact .ite (.noteCore (.onCore (.ite h.assignAt h))) (.resumeCore (.release (.noteCore (.onCore (.ite h.assignAt h)))))
    · exact .noteCore (.onCore (.ite h.assignAt h))

theorem Keeps.execHandlerDispatch {c delta} (e : execHandlerDispatch c delta t = .next u) : Keeps s u := by
  refine .of_accept e ?_
  dsimp only
  split
  · exact h
  · split
    · exact h.onCore
    · split
      · exact h.onCore
      · split
        · exact h.onCore.popFront
        · split
          · exact h.onCore.popFront.modCore.release.resumeCore
          · exact .ite h.onCore.popFront.onCore h.onCore.popFront.modCore

theorem Keeps.execFrameTick {job} (e : execFrameTick job t = .next u) : Keeps s u := by
  refine .of_accept e ?_
  dsimp only
  split
  · exact h
  · exact .ite h (.ite h.missTick h.setJob.startRun)

theorem Keeps.execStartAtTbt {job} (e : execStartAtTbt job t = .next u) : Keeps s u := by
  refine .of_accept e ?_
  dsimp only
  split
  · exact h
  · exact .ite h (.ite h.setJob.noRecord.settleJob h.setJob.startRun.finish)

theorem Keeps.execRunRetire {job run} (e : execRunRetire job run t = .next u) : Keeps s u := by
  refine .of_accept e ?_
  dsimp only
  split
  · exact h
  · exact .ite h h.newDigest.runRecord.freeCtx.setJob.settleJob

theorem Keeps.execLandingArrival {c delta pkt} (e : execLandingArrival c delta pkt t = .next u) : Keeps s u := by
  refine .of_accept e ?_
  dsimp only
  split
  · exact h
  · split
    · exact .ite h (.ite h.take.fenceAnswer (.ite h h.take.onCore))
    · exact .ite h (.ite h.take.fenceAnswer h.take.onCore)
    · exact h

theorem Keeps.execSchedRequestArrival {req} (e : execSchedRequestArrival req t = .next u) : Keeps s u := by
  refine .of_accept e ?_
  dsimp only
  split
  · exact h
  · split
    · exact h
    · exact .ite h.take (.ite h.take.calRefuse (.ite h.take.calRefuse (.same h.take (by rfl))))

theorem Keeps.execElasticRequestArrival {req} (e : execElasticRequestArrival req t = .next u) : Keeps s u := by
  refine .of_accept e ?_
  dsimp only
  split
  · exact h
  · exact .ite h (.ite h.take (.modHub (.same h.take (by rfl))))

theorem Keeps.execRunCutoff {pc run ecc} (e : execRunCutoff pc run ecc t = .next u) : Keeps s u := by
  refine .of_accept e ?_
  dsimp only
  split
  · exact h
  · split
    · exact h
    · split
      · exact .elasticRun (h.same (by rfl))
      · split
        · exact .elasticRun (h.same (by rfl))
        · exact .performAll (.same (h.same (by rfl)) (by rfl))
      · exact h.same (by rfl)

theorem Keeps.execHbmReadEgress {pc slot} (e : execHbmReadEgress pc slot t = .next u) : Keeps s u := by
  refine .of_accept e ?_
  dsimp only
  split
  · exact h
  · exact .egress (h.same (by rfl))

theorem Keeps.execHbmWriteAck {req} (e : execHbmWriteAck req t = .next u) : Keeps s u := by
  refine .of_accept e ?_
  dsimp only
  split
  · exact h
  · exact .answer (h.same (by rfl))

theorem Keeps.execLinkSlip {pkt} (e : execLinkSlip pkt t = .next u) : Keeps s u := by
  refine .of_accept e ?_
  dsimp only
  split
  · split
    · exact .ite h (.linkSlipped (.same h.draw (by rfl)))
    · exact h
  · exact .ite h.linkSlipped h
  · exact h

theorem Keeps.execPlacerOpenRequest {req} (e : execPlacerOpenRequest req t = .next u) : Keeps s u := by
  refine .of_accept e ?_
  dsimp only
  split
  · split
    · split
      · exact h.take.fenceAnswer
      · split
        · exact h.take.refuse
        · exact .answer (.ite h.take.setQueue h.take.setQueue.modCore)
    · exact h
  · exact h

theorem Keeps.execPlacerSend {req} (e : execPlacerSend req t = .next u) : Keeps s u := by
  refine .of_accept e ?_
  dsimp only
  split
  · split
    · exact h
    · split
      · exact h.take.fenceAnswer
      · split
        · exact h
        · split
          · exact h.take.refuse
          · exact .ite h.take.refuse (.ite h.take.refuse (.ite h.take.placeElastic (.ite h h.take.placeMain)))
  · exact h

theorem Keeps.execPlacerClose {req} (e : execPlacerClose req t = .next u) : Keeps s u := by
  refine .of_accept e ?_
  dsimp only
  split
  · split
    · exact .ite h.take.fenceAnswer h.take.setQueue.answer
    · exact h
  · exact h

theorem Keeps.execQueueAnswer {c delta req} (e : execQueueAnswer c delta req t = .next u) : Keeps s u := by
  refine .of_accept e ?_
  split
  · exact .ite h h.take.onCore
  · exact h

theorem Keeps.execGroupAssign {qid} (e : execGroupAssign qid t = .next u) : Keeps s u := by
  refine .of_accept e ?_
  dsimp only
  split
  · exact h
  · split
    · exact h
    · exact h.setQueue

theorem Keeps.execCombiningContribution {req} (e : execCombiningContribution req t = .next u) : Keeps s u := by
  refine .of_accept e ?_
  dsimp only
  split
  · split
    · split
      · exact h.take.refuse
      · split
        · exact h.take.refuse
        · split
          · exact h.take.refuse
          · split
            · exact h.take.expireBefore.setHub.refuse
            · exact .ite h.take.expireBefore.setHub.answer.deliverTotal h.take.expireBefore.setHub.answer
    · exact h
  · exact h

theorem Keeps.execCombiningTimeout {qid key} (e : execCombiningTimeout qid key t = .next u) : Keeps s u := by
  refine .of_accept e ?_
  dsimp only
  split
  · exact h
  · split
    · exact h
    · exact .ite h h.deliverTotal

theorem Keeps.execPortStateTimeout {port} (e : execPortStateTimeout port t = .next u) : Keeps s u := by
  refine .of_accept e ?_
  dsimp only
  split
  · exact h
  · exact .ite h (.ledgerPort (.closePort (.ite h.ledgerPeer h)))

theorem Keeps.execPktWrite {x} (e : execPktWrite x t = .next u) : Keeps s u := by
  refine .of_accept e ?_
  dsimp only
  refine h.request fun u hu => ?_
  split
  · exact .ite hu.countLate.begun.answer hu.countLate.begun.put
  · exact .ite hu.countLate.begun.answer hu.countLate.begun.toMemory

theorem Keeps.execPktQresp {x} (e : execPktQresp x t = .next u) : Keeps s u := by
  refine .of_accept e ?_
  dsimp only
  refine h.packet fun u hu => ?_
  split
  · exact hu.put
  · split
    · exact hu
    · exact .ite hu hu.pktAnswer

theorem Keeps.execPktAuth {x b} (e : execPktAuth x b t = .next u) : Keeps s u := by
  refine .of_accept e ?_
  dsimp only
  refine h.packet fun u hu => ?_
  split
  · exact hu
  · split
    · exact hu.setPort (by exact id)
    · exact .sendPartner (hu.setPort (by exact id))
    · exact .ite hu.sendShare hu
    · exact .setPort (.ite hu.sendShare hu) (by exact id)

theorem Keeps.execLinkWord {port w} (e : execLinkWord port w t = .next u) : Keeps s u := by
  refine .of_accept e ?_
  dsimp only
  split
  · exact h
  · split
    · exact .timeStamps (.drainMoved (h.setPort (by exact id)))
    · exact .drainMoved (h.setPort (by exact id))

theorem Keeps.execCompletionRecordWrite {ring} (e : execCompletionRecordWrite ring t = .next u) : Keeps s u := by
  refine .of_accept e ?_
  dsimp only
  split
  · exact h
  · exact .ite h (.ite h.writeOut.emit.setRing.emit h.writeOut.emit.setRing)

theorem Keeps.execBiasFlipDone (e : execBiasFlipDone t = .next u) : Keeps s u := by
  refine .of_accept e ?_
  dsimp only
  split
  · exact h
  · exact h.same (by rfl)

theorem Keeps.execHostCxlMemRead {hpa len} (e : execHostCxlMemRead hpa len t = .next u) : Keeps s u := by
  refine .of_accept e ?_
  split
  · exact h
  · exact .ite h h.hostReq

theorem Keeps.execHostCxlMemWrite {hpa data poison} (e : execHostCxlMemWrite hpa data poison t = .next u) : Keeps s u := by
  refine .of_accept e ?_
  split
  · exact h
  · exact .ite h h.hostReq

theorem Keeps.execRunHalt {job} (e : execRunHalt job t = .next u) : Keeps s u := by
  refine .of_accept e ?_
  dsimp only
  split
  · exact h
  · split
    · exact h
    · split
      · exact h
      · exact .cancelStarts (.ite
          (.foldl (.foldl (h.setJob.faultCapture.foldl fun _ _ hu => hu.onCore) fun _ _ hu => hu.modCore) fun _ _ hu =>
              hu.modCore)
          (.foldl (h.setJob.faultCapture.foldl fun _ _ hu => hu.onCore) fun _ _ hu => hu.modCore))

theorem Keeps.execHaltQuiesced {job} (e : execHaltQuiesced job t = .next u) : Keeps s u :=
  .of_accept e (.ite h (.settleDevice (.foldl
    (.setJob (.foldl (h.foldl fun _ _ hu => hu.runRecord.freeCtx) fun _ _ hu => .ite hu hu.modCore)) fun _ _ hu => hu.finish)))

theorem Keeps.execRunDeadline {job run} (e : execRunDeadline job run t = .next u) : Keeps s u := by
  refine .of_accept e ?_
  dsimp only
  split
  · exact h
  · exact .ite h h.logUnit.setJob

theorem Keeps.execQuiesceTimeout {c} (e : execQuiesceTimeout c t = .next u) : Keeps s u := by
  refine .of_accept e ?_
  dsimp only
  split
  · exact h
  · exact .ite h (.deviceFault (.markCore (.logNamed (h.same (by rfl)))))

theorem Keeps.execPcapApply (e : execPcapApply t = .next u) : Keeps s u := by
  refine .of_accept e ?_
  dsimp only
  split
  · exact h
  · exact .ite h (h.same (by rfl))

theorem Keeps.execRcRegisterRead {off x} (e : execRcRegisterRead off x t = .next u) : Keeps s u :=
  .of_accept e (.ite h (.ite h.readFree (.ite h.readTbtLow (.ite h.readTbtHigh
    (.ite h.readWord.emit (.ite (.ite h h.emit) h.readPair))))))

theorem Keeps.execPldmBase {t0 cmd body} (e : execPldmBase t0 cmd body t = .next u) : Keeps s u := by
  refine .of_accept e ?_
  dsimp only
  split
  · exact h
  · split
    · exact .reply (h.same (by rfl))
    · exact h.reply
    · exact h.draw.reply
    · exact h.reply
    · exact h.draw.reply
    · exact h.reply

theorem Keeps.execPldmSensorRead {t0 sensor} (e : execPldmSensorRead t0 sensor t = .next u) : Keeps s u := by
  refine .of_accept e ?_
  split
  · exact h
  · split
    · exact h.reply
    · exact h.draw.reply

theorem Keeps.execDrainTimeout (e : execDrainTimeout t = .next u) : Keeps s u := by
  refine .of_accept e ?_
  dsimp only
  split
  · exact h
  · exact .ite h (.noRecord (h.same (by rfl)))

end

end Sys2Proof.Machine
end

section
/-!
SUPPORT. Every command but an admission keeps HBM, the tables and the identities in form.
-/

namespace Sys2Proof.Machine

open Sys2Proof Sys2Proof.Safety Sys2Proof.Claims

section
variable {s t u : State} (h : Keeps s t)
include h

/-- Every command but an admission keeps what `Keeps` says. -/
theorem Keeps.exec {i : Instr} (hi : ∀ ring p, i ≠ .commandAdmission ring p) (e : Machine.exec i t = .next u) : Keeps s u := by
  cases i
  all_goals dsimp only [Machine.exec] at e
  case commandAdmission ring p => exact absurd rfl (hi ring p)
  case skip | tinc | tdec | tset | twait | fence | movi | cmp | plog | sel | aadd | amov | sfroma | movia | rdsys | ld |
      st | lda | sta | atom | br | mldw | mmul | mraw | vop | datom | qopen | qclose | qsend | qcsend =>
    exact .of_accept e h.issueOn
  case add | sub | and | or | xor | shl | shr | sar | mul => exact .of_accept e h.arithOn
  case mclr | manc | mout | mflg => exact .of_accept e h.beamOn
  case vld | vldStrided | vldTranspose | vst | ocfill | ocput | lutld => exact .of_accept e h.vxeOn
  case dload | dbase | dgo => exact .of_accept e h.slotOn
  case holdEnd | waitTimeout | handlerBudgetExpiry | dmaRequestIssue | fillComplete | landingPlacement |
      remoteReadServe | landingAtomic | watchdogNoProgress =>
    exact .of_accept e h.onCore
  case blockBoundary => exact .of_accept e h.onCore.noteCore
  case serviceBlockEnd => exact h.execServiceBlockEnd e
  case handlerDispatch => exact h.execHandlerDispatch e
  case frameTick => exact h.execFrameTick e
  case startAtTbt => exact h.execStartAtTbt e
  case runRetire => exact h.execRunRetire e
  case dmaRequestComplete => exact h.execDmaRequestComplete e
  case landingArrival => exact h.execLandingArrival e
  case schedRequestArrival => exact h.execSchedRequestArrival e
  case elasticRequestArrival => exact h.execElasticRequestArrival e
  case runCutoff => exact h.execRunCutoff e
  case hbmReadEgress => exact h.execHbmReadEgress e
  case hbmWriteAck => exact h.execHbmWriteAck e
  case hbmUePoisonStore => exact h.execHbmUePoisonStore e
  case linkRetry => exact .of_accept e h
  case linkSlip => exact h.execLinkSlip e
  case calendarFrameBoundary => exact h.execCalendarFrameBoundary e
  case patrolScrub => exact .of_accept e (.ite h (.modHub (h.same (by rfl))))
  case placerOpenRequest => exact h.execPlacerOpenRequest e
  case placerSend => exact h.execPlacerSend e
  case placerClose => exact h.execPlacerClose e
  case queueAnswer => exact h.execQueueAnswer e
  case groupAssign => exact h.execGroupAssign e
  case combiningContribution => exact h.execCombiningContribution e
  case combiningTimeout => exact h.execCombiningTimeout e
  case droopNotice => exact .of_accept e (.ite h.onIsland h.onIsland.setIsland.endSlips)
  case dieEventGrant => exact h.execDieEventGrant e
  case emergencyStretch => exact h.execEmergencyStretch e
  case crossingSlip => exact h.execCrossingSlip e
  case timebaseCopyCorrection => exact .of_accept e (.ite h.setIsland h)
  case ppsInEdge =>
    exact .of_accept e (.ite h (.ite (.align (.ite (.referenceBack (h.withClk (by rfl))) (h.withClk (by rfl)))) (h.withClk
        (by rfl))))
  case timeMessageSend => exact .of_accept e (.ite h (.sendPartner (h.setPort (by exact id))))
  case ppsOutRise => exact .of_accept e (.ite (h.same (by rfl)) h)
  case ppsOutFall => exact .of_accept e (.ite (h.same (by rfl)) h)
  case referenceLoss => exact .of_accept e (.ite h (.alert (.ledgerRef (.same (.ite h.linkDown h) (by rfl)))))
  case holdoverEnd => exact .of_accept e (.ite h.referenceBack h)
  case timebaseStep => exact h.execTimebaseStep e
  case opStopBegin => exact .of_accept e (.ite h (.same h.gateClocks (by rfl)))
  case opStopResume => exact h.execOpStopResume e
  case setOpTimeout => exact h.execSetOpTimeout e
  case portTrainingDone => exact h.execPortTrainingDone e
  case portAuthDone => exact h.execPortAuthDone e
  case portJoinDone => exact h.execPortJoinDone e
  case portStateTimeout => exact h.execPortStateTimeout e
  case partnerLost => exact .of_accept e (.ite h h.closePort.ledgerPort)
  case fecWindow => exact .of_accept e (.foldl (h.setPort (by exact id)) fun _ _ hu => hu.laneFail)
  case laneRetrainDone => exact .of_accept e (.ite (h.setPort (by exact id)) h)
  case creditTimeout => exact .of_accept e (.ite h h.fence)
  case apertureDropWindow => exact .of_accept e (.ite (.fence (h.setPort (by exact id))) (h.setPort (by exact id)))
  case pktWrite => exact h.execPktWrite e
  case pktRead => exact .of_accept e (h.request fun _ hu => .ite hu.countLate.begun.answer hu.countLate.begun.toMemory)
  case pktRresp => exact .of_accept e (h.packet fun _ hu => hu.countLate.pktAnswer)
  case pktAtomic => exact .of_accept e (h.request fun _ hu => hu.begun.toMemory)
  case pktAresp => exact .of_accept e (h.packet fun _ hu => hu.pktAnswer)
  case pktAck => exact .of_accept e (h.packet fun _ hu => hu.foldl fun _ _ hv => hv.farAnswer)
  case pktQopen => exact .of_accept e h.queuePacket
  case pktQsend => exact .of_accept e h.queuePacket
  case pktQcsend => exact .of_accept e h.queuePacket
  case pktQclose => exact .of_accept e h.queuePacket
  case pktQresp => exact h.execPktQresp e
  case pktTime => exact h.execPktTime e
  case pktMgmt => exact h.execPktMgmt e
  case pktAuth => exact h.execPktAuth e
  case pktTransit => exact h.execPktTransit e
  case linkWord => exact h.execLinkWord e
  case linkWordSend => exact h.execLinkWordSend e
  case fabricSlot => exact h.execFabricSlot e
  case fabricFrameBoundary => exact .of_accept e (.ite h h.fabricFrame)
  case heartbeatSend => exact .of_accept e (.ite h (.sendCluster (h.same (by rfl))))
  case masterTakeover => exact .of_accept e (.ite h (h.same (by rfl)))
  case doorbellSqTail => exact .of_accept e h.writeSqTail
  case doorbellCqHead => exact .of_accept e h.writeCqHead
  case commandExecute => exact h.execCommandExecute e
  case bulkDeferralExpiry => exact h.execBulkDeferralExpiry e
  case completionRecordWrite => exact h.execCompletionRecordWrite e
  case ringEnable => exact .of_accept e h.writeRingCtrl
  case ringDisable => exact .of_accept e h.writeRingCtrl
  case ringDeferWrite => exact .of_accept e h.writeDefer
  case biasFlipGo => exact .of_accept e h.writeBiasCmd
  case biasFlipDone => exact h.execBiasFlipDone e
  case hdmCommit => exact .of_accept e (.ite h (.ite h.setHdm h.setHdm))
  case bar2SelWrite => exact .of_accept e h.writeBar2Sel
  case hostCxlMemRead => exact h.execHostCxlMemRead e
  case hostCxlMemWrite => exact h.execHostCxlMemWrite e
  case bar2Read => exact .of_accept e (.ite h (.ite h.emit (h.foldl fun _ _ hu => hu.put)))
  case bar2Write => exact .of_accept e (.ite h (h.foldl fun _ _ hu => hu.scrWrite))
  case hostLinkTrained => exact .of_accept e (.ite h (h.same (by rfl)))
  case hostLinkReset => exact .of_accept e h.linkDown
  case load => exact h.execLoad e
  case unload => exact .of_accept e (h.runCmd fun _ => .ite h h.emptyJob.settleDevice.finish)
  case reserve => exact h.execReserve e
  case arm => exact h.execArm e
  case start =>
    exact .of_accept e (h.runCmd fun _ => .ite h.noRecord (.ite h.setJob.await (.ite h.noRecord h.setJob.startRun.finish)))
  case startPeriodic => exact .of_accept e (h.runCmd fun _ => h.setJob.finish)
  case stop => exact .of_accept e (h.runCmd fun _ => h.await.cancelStarts.setJob.settleJob)
  case drain =>
    exact .of_accept e (h.runCmd fun _ => .settleDevice (.foldl (.same h.await (by rfl)) fun _ _ hu =>
        .ite hu.cancelStarts.settleJob hu))
  case openChannel => exact h.execOpenChannel e
  case closeChannel => exact h.execCloseChannel e
  case setCircuits => exact h.execSetCircuits e
  case setApertures => exact .of_accept e (h.reading fun _ hu => hu.perform1 fun _ => .finish (hu.setPort (by exact id)))
  case setOp => exact .of_accept e (h.runCmd fun _ => .ite (.same h.await (by rfl)) (.same h.await (by rfl)))
  case query => exact .of_accept e (h.runCmd fun _ => h.result.finish)
  case faults => exact .of_accept e (h.runCmd fun _ => .finish (.ite (.same h.result (by rfl)) h.result))
  case captureTake => exact .of_accept e (h.perform1 fun _ => .ite h h.await.beginCapture)
  case captureRead => exact .of_accept e (h.perform1 fun _ => .ite h.touch.noRecord h.touch.result.finish)
  case computeReset => exact h.execComputeReset e
  case portReset => exact h.execPortReset e
  case portHoldDown => exact .of_accept e (h.perform1 fun _ => h.closePort.ledgerPort.finish)
  case portWriteCfg => exact .of_accept e (h.perform1 fun _ => .finish (h.setPort (by exact id)))
  case loadClusterMap => exact .of_accept e (h.reading fun _ hu => hu.perform1 fun _ => .finish (hu.same (by rfl)))
  case timeCtrlStep => exact .of_accept e (h.perform1 fun _ => .ite h.badState h.correct.finish)
  case timeCtrlRead => exact .of_accept e (h.perform1 fun _ => h.result.finish)
  case mss => exact .of_accept e (h.reading fun _ hu => hu.runCmd fun _ => .ite hu.noRecord (hu.await.same (by rfl)))
  case runHalt => exact h.execRunHalt e
  case haltQuiesced => exact h.execHaltQuiesced e
  case runDeadline => exact h.execRunDeadline e
  case quiesceTimeout => exact h.execQuiesceTimeout e
  case captureDone => exact .of_accept e (.ite h.endCapture h)
  case autoReset =>
    exact .of_accept e (.ite h (.ite (.advanceReset (.ite (h.same (by rfl)) h)) (.ite h h.beginReset.advanceReset)))
  case sensorSample =>
    exact .of_accept e (.ite (.foldl (h.same (by rfl)) fun _ _ hu => hu.hubTemp) (.ite h (.ite h.sampleRegs.act
        (.same h.sampleRegs.act (by rfl)))))
  case throttleReturn => exact .of_accept e (.ite h (.alert (.ledgerThermal (.setThrottle (h.same (by rfl))))))
  case pcapApply => exact h.execPcapApply e
  case ledgerFlush => exact .of_accept e (.ite h (.ite (h.same (by rfl)) (h.same (by rfl))))
  case remapFlashCopy => exact .of_accept e (.ite h (h.same (by rfl)))
  case hashComplete => exact .of_accept e (.ite h h.touch.withMss)
  case digestSign => exact .of_accept e (.ite h (h.same (by rfl)))
  case mbGo => exact .of_accept e h.writeMbCtrl
  case mgPcapWrite => exact .of_accept e h.writePcap
  case mgAlertClear => exact .of_accept e h.writeAlert
  case capLockRelease => exact .of_accept e h.writeCapStatus
  case wdLimitWrite => exact .of_accept e h.writeWdLimit
  case tmTbtLowRead => exact .of_accept e h.readTbtLow
  case rcRegisterRead => exact h.execRcRegisterRead e
  case registerWrite => exact h.execRegisterWrite e
  case getStatus => exact .of_accept e (.ite h h.reply)
  case ledgerRead => exact .of_accept e (.ite h h.reply)
  case mssRestart =>
    exact .of_accept e (.ite (.ite h (.ledgerBoot (.calibrate (h.same (by rfl))))) (.ite (.ite h.restartBegin h)
        (.ite h h.reply.restartBegin)))
  case setRoots => exact .of_accept e (.ite h (.ite h.reply (.reply (h.same (by rfl)))))
  case clearAlert => exact .of_accept e (.ite h h.clearAlerts.reply)
  case getVersion => exact .of_accept e (.ite h h.setSpdm.reply)
  case getCapabilities => exact .of_accept e (.ite h (.ite h.spdmError h.reply))
  case negotiateAlgorithms => exact .of_accept e (.ite h (.ite h.spdmError (.ite h.setSpdm.reply h.setSpdm.spdmError)))
  case getDigests => exact .of_accept e (h.negotiated h.reply)
  case getCertificate => exact .of_accept e (h.negotiated (.ite h.spdmError h.reply))
  case challenge => exact .of_accept e (h.negotiated (.ite h.spdmError (.reply (.same h (by rfl)))))
  case getMeasurements => exact .of_accept e (h.negotiated (.ite h.spdmError h.reply))
  case keyExchange => exact .of_accept e (h.negotiated (.reply (.setSpdm (.same h (by rfl)))))
  case finish => exact .of_accept e (h.negotiated (.ite h.spdmError (.ite h.setSpdm.spdmError h.setSpdm.reply)))
  case endSession => exact .of_accept e (h.negotiated (.ite h.spdmError h.setSpdm.reply))
  case pldmBase => exact h.execPldmBase e
  case pldmSensorRead => exact h.execPldmSensorRead e
  case pldmFirmwareUpdate => exact h.execPldmFirmwareUpdate e
  case mctpUnsupported => exact .of_accept e (.ite h (.ite h.reply h.reply))
  case packageReset => exact .of_accept e (.ite h h.packageReset)
  case boot => exact h.execBoot e
  case bootImageVerified => exact h.execBootImageVerified e
  case brownOut => exact .of_accept e h.packageReset
  case thermtrip => exact h.execThermtrip e
  case jtagExtest => exact h.execJtagExtest e
  case drainTimeout => exact h.execDrainTimeout e
  case laneLossOfLock => exact .of_accept e h.laneFail
  case uncorrectableCodeword => exact .of_accept e (.ite (.laneFail (h.setPort (by exact id))) (h.setPort (by exact id)))
  case snoop => exact .of_accept e (.ite h.emit h)
  case endpointIdAssignment => exact .of_accept e (.ite h (.ite h.reply (.reply (h.same (by rfl)))))
  case ideKeyManagement => exact .of_accept e (.ite h (.ite h.spdmError (.reply (h.same (by rfl)))))

end

end Sys2Proof.Machine
end

section
/-!
The invariants of memory, tables and identities.
-/

namespace Sys2Proof.Machine

open Sys2Proof Sys2Proof.Safety Sys2Proof.Claims

/-! ### Admissions -/

/-- The command that an admission at a ring makes of a packet. -/
def State.admits (s : State) (ring : Nat) (p : Packet) : Cmd :=
  { id := s.nextId, ring := ring, p := p, cls := p.cls, bell := (s.ring ring).bell, admitAt := s.clk.tbt.toNat
    begin0 := s.clk.tbt.toNat, delay := 0, defer := s.cfg.deferOf ring, mute := false, acted := false }

/-- The state with a command held under the next identity. -/
def State.holding (s : State) (c : Cmd) : State :=
  { s with host := { s.host with exec := c :: s.host.exec }, nextId := s.nextId + 1 }

theorem State.ids_holding (s : State) (c : Cmd) : (s.holding c).host.ids = c.id :: s.host.ids := rfl

/-- An admission gives one identity, the next. -/
theorem Keeps.execCommandAdmission {s t : State} {ring : Reads} {p : Packet} (e : execCommandAdmission ring p s = .next t) :
    Keeps s t ∨ Keeps (s.holding (s.admits ring.no p)) t := by
  by_cases hf : (!s.mayFetch ring.no) = true
  · refine .inl (.of_accept e ?_)
    rw [if_pos hf]
    exact .refl s
  · refine .inr (.of_accept e ?_)
    rw [if_neg hf]
    have h0 : Keeps s { s with nextId := s.nextId + 1 } := (Keeps.refl s).bump (by rfl)
    have h1 : Keeps (s.holding (s.admits ring.no p)) { s with nextId := s.nextId + 1 } :=
      ⟨.refl, id, id, (List.sublist_cons_self _ _).subperm, le_rfl⟩
    have hx := fun (r : Ring) l =>
      (Keeps.refl { s with nextId := s.nextId + 1 }).setRing (r := ring.no) (x := r) |>.touch (ecc := ring.ecc) (l := l)
    have hi : ∀ w, Keeps { s with nextId := s.nextId + 1 } w →
        ((s.admits ring.no p).id :: w.host.ids).Subperm (s.holding (s.admits ring.no p)).host.ids :=
      fun w hw => (List.subperm_cons _).2 hw.ids
    exact .ite (.cmdRecord (h1.trans (hx _ _))) (.admitCmd (h1.trans (hx _ _)) (hi _ (hx _ _)))

/-! ### The invariants -/

theorem tablesCanonical_iff (s : State) :
    tablesCanonical s ↔ twf CalEntry.elastic s.hbm.cal = true ∧ twf Island.off s.clk.isl = true ∧ PortsWf s.ports := Iff.rfl

theorem identitiesUnique_iff (s : State) :
    identitiesUnique s ↔ s.host.ids.Nodup ∧ ∀ i ∈ s.host.ids, i < s.nextId := Iff.rfl

section
variable {s t : State} (h : Keeps s t)
include h

theorem Keeps.memoryCanonical (hs : memoryCanonical s) : memoryCanonical t := h.hbm.1 hs

theorem Keeps.tablesCanonical (hs : tablesCanonical s) : tablesCanonical t := by
  rw [tablesCanonical_iff] at hs ⊢
  obtain ⟨hcal, hisl, hports⟩ := hs
  exact ⟨h.hbm.2 hcal, h.isl hisl, h.ports hports⟩

theorem Keeps.identitiesUnique (hs : identitiesUnique s) : identitiesUnique t := by
  rw [identitiesUnique_iff] at hs ⊢
  obtain ⟨hnodup, hbelow⟩ := hs
  obtain ⟨l, hperm, hsub⟩ := h.ids
  exact ⟨hperm.nodup_iff.1 (hnodup.sublist hsub), fun i hi => (hbelow i (h.ids.subset hi)).trans_le h.next⟩

end

theorem identitiesUnique_holding {s : State} {c : Cmd} (hc : c.id = s.nextId) (hs : identitiesUnique s) :
    identitiesUnique (s.holding c) := by
  rw [identitiesUnique_iff] at hs ⊢
  obtain ⟨hnodup, hbelow⟩ := hs
  rw [State.ids_holding, hc]
  refine ⟨List.nodup_cons.2 ⟨fun hi => Nat.lt_irrefl _ (hbelow _ hi), hnodup⟩, fun i hi => ?_⟩
  rcases List.mem_cons.1 hi with rfl | hi
  · exact Nat.lt_succ_self _
  · exact Nat.lt_succ_of_lt (hbelow i hi)

/-- A step keeps everything from the state itself, or from the state that holds one command more. -/
theorem step_keeps {s t : State} (e : step s = .next t) : Keeps s t ∨ ∃ c : Cmd, c.id = s.nextId ∧ Keeps (s.holding c) t := by
  unfold step at e
  split at e
  · cases e
    exact .inl (Keeps.refl s).tick
  · next i rest _ =>
    have h0 : Keeps s { s with pending := rest } := (Keeps.refl s).same (by rfl)
    by_cases hi : ∀ ring p, i ≠ .commandAdmission ring p
    · exact .inl (h0.exec hi e)
    · simp only [not_forall, not_not] at hi
      obtain ⟨ring, p, rfl⟩ := hi
      rcases Keeps.execCommandAdmission e with h | h
      · exact .inl (h0.trans h)
      · refine .inr ⟨s.admits ring.no p, rfl, .trans (t := State.holding { s with pending := rest } (s.admits ring.no p)) ?_ h⟩
        exact (Keeps.refl _).same (by rfl)

/-- Settles O55: no command changes HBM but by writes of bytes and marks, and each keeps the form of a table. -/
theorem memoryStaysCanonical : Obligations.MemoryStaysCanonical := by
  intro s t hs e
  rcases step_keeps e with h | ⟨c, -, h⟩
  · exact h.memoryCanonical hs
  · exact h.memoryCanonical hs

/-- Settles O56: no command changes a table but by updates that keep its form, and only an admission gives an identity, the next. -/
theorem tablesAndIdentitiesAreKept : Obligations.TablesAndIdentitiesAreKept := by
  intro s t e
  rcases step_keeps e with h | ⟨c, hc, h⟩
  · exact ⟨h.tablesCanonical, h.identitiesUnique⟩
  · exact ⟨h.tablesCanonical, fun hs => h.identitiesUnique (identitiesUnique_holding hc hs)⟩

end Sys2Proof.Machine
end

section
/-!
SUPPORT. What leaves a hub, frame boundaries and patrol scrub (O25; 08 R226, R233, R238, R239, R247, R248).
-/

namespace Sys2Proof.Machine

open Sys2Proof Sys2Proof.Safety Sys2Proof.Claims

/-! ### What an operation leaves on the plane and in the log -/

theorem pick_head {α : Type} {p : α → Bool} {x : α} {xs : List α} (h : p x = true) : pick p (x :: xs) = some (x, xs) := by
  simp [pick, h]

theorem State.msg_put (s : State) (x : Msg) (m : Nat) : (s.put x).msg m = if m = s.nextId then some x else s.msg m :=
  tget_tput none s.plane m s.nextId (some x)

/-- A message that has just been put stands under the identity that was next, and every other as it stood. -/
theorem State.put_msgs (s : State) (x : Msg) : (s.put x).msg s.nextId = some x ∧ ∀ m, m ≠ s.nextId → (s.put x).msg m = s.msg m :=
  ⟨(s.msg_put x _).trans (if_pos rfl), fun m hm => (s.msg_put x m).trans (if_neg hm)⟩

theorem State.ledger_plane_fl (s : State) (ty : Nat) (d : List Byte) : (s.ledger ty d).plane = s.plane ∧ (s.ledger ty d).fl = s.fl := by
  unfold State.ledger
  split
  all_goals exact ⟨rfl, rfl⟩

theorem State.ledgerFault_plane_fl (s : State) (d : List Byte) :
    (s.ledgerFault d).plane = s.plane ∧ (s.ledgerFault d).fl = s.fl := by
  unfold State.ledgerFault
  dsimp only
  generalize (if s.mss.fltSec = s.clk.tbt.toNat / 4000000000 then s.mss.fltCnt else 0) = n
  split
  · exact State.ledger_plane_fl ..
  · exact ⟨rfl, rfl⟩

/-- A record goes to the place in the log that was next, and no message is touched. -/
theorem State.logRec_log {s : State} {f : FRec} {r : State × Nat} (h : s.logRec f = r) : r.1.plane = s.plane
    ∧ tget none r.1.fl.log s.fl.head = some { f with seq := s.fl.seq + 1 } := by
  subst h
  unfold State.logRec
  dsimp only
  rw [(State.ledgerFault_plane_fl _ _).1, (State.ledgerFault_plane_fl _ _).2]
  exact ⟨rfl, tget_tput_self none s.fl.log s.fl.head (some { f with seq := s.fl.seq + 1 })⟩

theorem State.logCore_log (s : State) (k : Nat) (x : RawFault) (h : s.fl.mutes = false) : (s.logCore k x).plane = s.plane
    ∧ ∃ f, tget none (s.logCore k x).fl.log s.fl.head = some f ∧ f.cls = x.cls ∧ f.stop = x.stop := by
  unfold State.logCore State.logNamed
  rw [if_neg (by simp [h])]
  dsimp only
  split
  all_goals
    generalize hr : s.logRec _ = r
    obtain ⟨hp, hl⟩ := State.logRec_log hr
    dsimp only
    split
    · exact ⟨hp, _, hl, rfl, rfl⟩
    · exact ⟨hp, _, hl, rfl, rfl⟩

/-! ### Lines, acknowledgements, marks -/

theorem hbmReadEgress_sends {s : State} {pc slot : Nat} {x : Egress} {d : Dest} {xs : List Egress}
    (hw : (Instr.hbmReadEgress pc slot).wf = true) (he : s.hbm.egress = x :: xs) (hpc : x.pc = pc) (hslot : x.slot = slot)
    (ht : x.tbt + 720 ≤ s.clk.tbt.toNat) (hd : x.req.dests = [d]) :
    exec (.hbmReadEgress pc slot) s = .next (({ s with hbm := { s.hbm with egress := xs } } : State).put
      (.line d.core ⟨d.addr + x.off, x.data, x.pois, x.req.sched, x.req.src, d.kind, x.req.reply, some (pc, slot),
        s.walkOf x.req.reply⟩)) := by
  refine exec_next hw ?_
  change execHbmReadEgress pc slot s = _
  unfold execHbmReadEgress
  rw [he, pick_head (by simp [hpc, hslot, ht])]
  dsimp only
  rw [State.egress, hd, hpc, hslot]
  rfl

theorem hbmWriteAck_answers {s : State} {a : WrAck} {as : List WrAck} {c txn : Nat} {y : Txn}
    (hw : (Instr.hbmWriteAck a.id).wf = true) (he : s.hbm.acks = a :: as) (ht : a.tbt ≤ s.clk.tbt.toNat)
    (hr : a.reply = .core c txn) (hy : (s.core c).txn txn = some y) :
    exec (.hbmWriteAck a.id) s = .next (({ s with hbm := { s.hbm with acks := as } } : State).put
      (.answer c ⟨txn, .ok, 0, a.pc, a.slot⟩)) := by
  refine exec_next hw ?_
  change execHbmWriteAck a.id s = _
  unfold execHbmWriteAck
  rw [he, pick_head (by simp [ht])]
  dsimp only
  rw [hr]
  have hc : ({ s with hbm := { s.hbm with acks := as } } : State).core c = s.core c := rfl
  simp only [State.answer, State.answerTo, hc, hy]
  rfl

theorem hbmUePoisonStore_marks {s : State} {pc b : Nat} {bs : List (Nat × Nat)} (hw : (Instr.hbmUePoisonStore pc).wf = true)
    (hs : s.hbm.store = (pc, b) :: bs) (hk : (s.hbm.entry pc (s.clk.tbt.toNat / 256 % 64)).kind = 0) :
    exec (.hbmUePoisonStore pc) s
      = .next { s with hbm := { s.hbm with store := bs, pois := tput false s.hbm.pois b true } } := by
  refine exec_next hw ?_
  change execHbmUePoisonStore pc s = _
  unfold execHbmUePoisonStore
  rw [hs, pick_head (by simp)]
  dsimp only
  rw [if_neg (by simp [hk])]

/-! ### Slips of the link -/

theorem State.hub_modHub (s : State) (h : Nat) (f : Hub → Hub) : (s.modHub h f).hub h = f (s.hub h) := State.hub_setHub ..

/-- What a slip of the link leaves alone (messages, HBM, the other cores), and what it notes: the core's run is marked, and the
log takes a record that stops nothing. -/
structure SlipNotes (s t : State) (c : Nat) : Prop where
  plane : t.plane = s.plane
  hbm   : t.hbm = s.hbm
  mark  : (t.core c).rn.slip = true
  cores : ∀ m, m ≠ c → t.core m = s.core m
  log   : ∃ f, tget none t.fl.log s.fl.head = some f ∧ f.cls = 0x08 ∧ f.stop = false

theorem State.slip_eq (s : State) (c kind src dst skew pc slot : Nat) :
    ∃ k x, s.slip c kind src dst skew pc slot = (s.setCore c k).logCore c x
      ∧ k.rn.slip = true ∧ x.cls = 0x08 ∧ x.stop = false := ⟨_, _, rfl, rfl, rfl, rfl⟩

theorem State.slip_notes (s : State) (c kind src dst skew pc slot : Nat) (hm : s.fl.mutes = false) :
    SlipNotes s (s.slip c kind src dst skew pc slot) c ∧ (s.slip c kind src dst skew pc slot).hubs = s.hubs := by
  obtain ⟨k, x, he, hk, hcls, hstop⟩ := s.slip_eq c kind src dst skew pc slot
  have hst := State.logCore_still (s.setCore c k) c x
  obtain ⟨hp, f, hf, hfc, hfs⟩ := (s.setCore c k).logCore_log c x hm
  rw [he]
  exact ⟨{ plane := hp
           hbm := congrArg Still.hbm hst
           mark := by rw [State.core_of_still hst, State.core_setCore]; exact hk
           cores := fun m hne => by rw [State.core_of_still hst, State.core_setCore_ne _ _ hne]
           log := ⟨f, hf, hfc.trans hcls, hfs.trans hstop⟩ }, congrArg Still.hubs hst⟩

theorem State.linkSlipped_notes (s : State) (c kind pc slot : Nat) (hm : s.fl.mutes = false) :
    SlipNotes s (s.linkSlipped c kind pc slot) c
      ∧ (s.linkSlipped c kind pc slot).hub (hubOf pc)
        = { s.hub (hubOf pc) with slipCnt := satAdd (s.hub (hubOf pc)).slipCnt 1 } := by
  obtain ⟨h, hh⟩ := State.slip_notes
    (s.modHub (hubOf pc) fun (x : Hub) => { x with slipCnt := satAdd x.slipCnt 1 }) c kind (140 + hubOf pc) 136 0 pc slot hm
  exact ⟨⟨h.plane, h.hbm, h.mark, h.cores, h.log⟩,
    (congrArg (tget Hub.reset · (hubOf pc)) hh).trans (s.hub_modHub (hubOf pc) _)⟩

/-- The poisoned line that takes the place of one that slipped. -/
def LinePkt.slipped (p : LinePkt) (fc : Nat) : LinePkt :=
  { p with data := freeBytes fc 0 p.data.length, poison := true, cal := none }

/-- The state in which line `p` for core `c` has been replaced. -/
def State.replaced (s : State) (pkt c : Nat) (p : LinePkt) : State :=
  { s.draw with plane := tput none s.plane pkt (some (.line c (p.slipped s.freeCtr))) }

theorem State.msg_replaced (s : State) (pkt c : Nat) (p : LinePkt) :
    (s.replaced pkt c p).msg pkt = some (.line c (p.slipped s.freeCtr)) :=
  tget_tput_self none s.plane pkt (some (.line c (p.slipped s.freeCtr)))

theorem linkSlip_poisons {s : State} {pkt c pc slot : Nat} {p : LinePkt} (hw : (Instr.linkSlip pkt).wf = true)
    (hp : s.msg pkt = some (.line c p)) (hs : p.sched = true) (hc : p.cal = some (pc, slot)) :
    exec (.linkSlip pkt) s = .next ((s.replaced pkt c p).linkSlipped c 0 pc slot) := by
  refine exec_next hw ?_
  change execLinkSlip pkt s = _
  unfold execLinkSlip
  rw [hp]
  dsimp only
  rw [hc]
  dsimp only
  rw [if_neg (by simp [hs])]
  rfl

/-- What leaves a hub leaves at its time (R238, R239, R247, R248). -/
theorem linesLeaveTheHub : LinesLeaveTheHub := by
  intro s pc slot c txn pkt b x a d xs as p bs y
  refine ⟨fun hw he hpc hslot ht hd => ?_, fun hw he ht hr hy => ?_, fun hw hs hk => ?_, fun hw => ?_, fun hw hp hs hc hm => ?_⟩
  · exact ⟨_, hbmReadEgress_sends hw he hpc hslot ht hd, rfl, rfl, State.put_msgs _ _⟩
  · exact ⟨_, hbmWriteAck_answers hw he ht hr hy, rfl, rfl, State.put_msgs _ _⟩
  · exact ⟨_, hbmUePoisonStore_marks hw hs hk, tget_tput_self false s.hbm.pois b true,
      fun b' hb => tget_tput_ne false s.hbm.pois true hb, rfl, rfl, rfl⟩
  · exact yields_of_wf hw rfl rfl
  · obtain ⟨h, hhub⟩ := State.linkSlipped_notes (s.replaced pkt c p) c 0 pc slot hm
    obtain ⟨f, hf, hcls, hstop⟩ := h.log
    have hq := (congrArg (tget none · pkt) h.plane).trans (s.msg_replaced pkt c p)
    refine ⟨_, f, linkSlip_poisons hw hp hs hc, ⟨_, hq, rfl, rfl, freeBytes_length _ _ _, rfl⟩, ?_, h.mark, hf, hcls, hstop, h.hbm,
      h.cores⟩
    rw [← satAdd_one_toNat]
    exact congrArg (·.slipCnt.toNat) hhub

/-! ### Frames -/

theorem tget_of_lt_trising {β : Type} {d : β} {m : SMap β} {lo k : Nat} (h : trising lo m = true) (hk : k < lo) : tget d m k = d := by
  rcases tget_mem (d := d) (m := m) (k := k) with hd | hm
  · exact hd
  · exact absurd (le_of_mem_of_trising h hm) (by omega)

theorem CalEntry.turn_elastic : CalEntry.elastic.turn = CalEntry.elastic := rfl

theorem tget_turnCalendar {m : SMap CalEntry} {lo : Nat} (h : trising lo m = true) (k : Nat) :
    tget CalEntry.elastic (turnCalendar m) k = (tget CalEntry.elastic m k).turn := by
  induction m generalizing lo with
  | nil => rfl
  | cons x t ih =>
    obtain ⟨j, e⟩ := x
    obtain ⟨-, ht⟩ : lo ≤ j ∧ trising (j + 1) t = true := by simpa [trising] using h
    by_cases hk : k = j
    · subst hk
      by_cases he : e.turn = CalEntry.elastic
      · have hl : tget CalEntry.elastic t k = CalEntry.elastic := tget_of_lt_trising ht (by omega)
        simp [turnCalendar, he, ih ht, hl, tget, CalEntry.turn_elastic]
      · simp [turnCalendar, he, tget]
    · by_cases he : e.turn = CalEntry.elastic
      · simp [turnCalendar, he, ih ht, tget, hk]
      · simp [turnCalendar, he, ih ht, tget, hk]

theorem Hbm.entry_turnCalendar {a b : Hbm} (h : twf CalEntry.elastic a.cal = true) (hb : b.cal = turnCalendar a.cal) (p n : Nat) :
    b.entry p n = (a.entry p n).turn := by
  have hr : trising 0 a.cal = true := (Bool.and_eq_true_iff.1 h).1
  unfold Hbm.entry
  split
  · rfl
  · rw [hb, tget_turnCalendar hr]

/-- Handing a released reservation's queues on touches the elastic queues alone. -/
theorem Hbm.handOn_eq (h : Hbm) : h.handOn = { h with el := h.handOn.el } := by
  unfold Hbm.handOn
  refine List.foldlRecOn (motive := fun x : Hbm => x = { h with el := x.el }) _ _ rfl fun a ha x _ => ?_
  refine List.foldlRecOn (motive := fun x : Hbm => x = { h with el := x.el }) _ _ ha fun b hb q _ => ?_
  rw [hb]
  rfl

theorem Hbm.handOn_eq_self {h : Hbm} (he : ∀ x ∈ h.resv, x.2.gone = true → x.2.queues = []) : h.handOn = h := by
  unfold Hbm.handOn
  refine List.foldlRecOn (motive := (· = h)) _ _ rfl fun a ha x hx => ?_
  obtain ⟨hm, hg⟩ := List.mem_filter.1 hx
  rw [he x hm hg]
  exact ha

/-- The hubs whose frame count has been set to `v`. -/
def State.frames (s : State) (v : W64) (l : List Nat) : State :=
  l.foldl (fun (s : State) h => s.modHub h fun (x : Hub) => { x with frame := v }) s

theorem State.frames_cons (s : State) (v : W64) (b : Nat) (l : List Nat) :
    s.frames v (b :: l) = (s.modHub b fun (x : Hub) => { x with frame := v }).frames v l := rfl

theorem State.frames_eq (s : State) (v : W64) (l : List Nat) : { s.frames v l with hubs := s.hubs } = s :=
  List.foldlRecOn (motive := fun t : State => { t with hubs := s.hubs } = s) l _ rfl fun _ ht _ _ => ht

theorem State.frame_frames (s : State) (v : W64) {l : List Nat} {h : Nat} (hh : h ∈ l ∨ (s.hub h).frame = v) :
    ((s.frames v l).hub h).frame = v := by
  induction l generalizing s with
  | nil => simpa [State.frames] using hh
  | cons b t ih =>
    rw [State.frames_cons]
    refine ih _ ?_
    by_cases hb : h = b
    · subst hb
      right
      rw [State.hub_modHub]
    · rw [State.modHub, State.hub_setHub_ne _ _ hb]
      simpa [hb] using hh

/-- HBM at a frame boundary: what released reservations hold is handed on, they go, and pending changes take effect. -/
def Hbm.turned (h : Hbm) : Hbm := { h.handOn with cal := turnCalendar h.handOn.cal, resv := h.handOn.resv.filter fun x => !x.2.gone }

theorem Hbm.turned_eq (h : Hbm) : h.turned = { h with
    el := h.handOn.el, cal := turnCalendar h.cal, resv := h.resv.filter fun x => !x.2.gone } := by
  unfold Hbm.turned
  rw [h.handOn_eq]

def State.turn (s : State) : State := { s with hbm := s.hbm.turned }

theorem State.hub_turn (s : State) (h : Nat) : s.turn.hub h = s.hub h := rfl

theorem calendarFrameBoundary_turns {s : State} (hw : Instr.calendarFrameBoundary.wf = true) (hr : s.clk.run = true)
    (hf : (s.hub 0).frame.toNat < s.clk.tbt.toNat / 16384) :
    exec .calendarFrameBoundary s = .next (s.frames (BitVec.ofNat 64 (s.clk.tbt.toNat / 16384)) (upFrom 0 4)).turn := by
  refine exec_next hw ?_
  change execCalendarFrameBoundary s = _
  unfold execCalendarFrameBoundary
  dsimp only
  rw [if_neg (by simp [hr]; omega)]
  rfl

theorem frameTurns {s : State} (hw : Instr.calendarFrameBoundary.wf = true) (hr : s.clk.run = true)
    (hf : (s.hub 0).frame.toNat < s.clk.tbt.toNat / 16384) (hc : twf CalEntry.elastic s.hbm.cal = true) :
    ∃ t, exec .calendarFrameBoundary s = .next t
      ∧ (∀ p r, r < 64 → t.hbm.entry p r = (s.hbm.entry p r).turn)
      ∧ t.hbm.resv = s.hbm.resv.filter (fun x => !x.2.gone) ∧ (∀ h, h < 4 → (t.hub h).frame.toNat = s.clk.tbt.toNat / 16384)
      ∧ t.hbm.mem = s.hbm.mem ∧ t.cores = s.cores
      ∧ ((∀ x ∈ s.hbm.resv, x.2.gone = true → x.2.queues = []) → t.hbm.el = s.hbm.el) := by
  have hframe : ∀ h, h < 4 →
      ((s.frames (BitVec.ofNat 64 (s.clk.tbt.toNat / 16384)) (upFrom 0 4)).hub h).frame.toNat = s.clk.tbt.toNat / 16384 := by
    intro h h4
    have hm : h ∈ upFrom 0 4 := mem_upFrom.2 ⟨h.zero_le, by omega⟩
    have hlt := s.clk.tbt.isLt
    rw [s.frame_frames _ (.inl hm), BitVec.toNat_ofNat]
    omega
  have hs := s.frames_eq (BitVec.ofNat 64 (s.clk.tbt.toNat / 16384)) (upFrom 0 4)
  have hx := calendarFrameBoundary_turns hw hr hf
  generalize s.frames (BitVec.ofNat 64 (s.clk.tbt.toNat / 16384)) (upFrom 0 4) = u at hframe hs hx
  have hu : u.hbm = s.hbm := (congrArg State.hbm hs :)
  have hh : u.turn.hbm = { s.hbm with
      el := s.hbm.handOn.el, cal := turnCalendar s.hbm.cal, resv := s.hbm.resv.filter fun x => !x.2.gone } :=
    (u.hbm.turned_eq).trans (by rw [hu])
  refine ⟨u.turn, hx, fun p r _ => Hbm.entry_turnCalendar hc (congrArg Hbm.cal hh) p r, congrArg Hbm.resv hh, hframe,
    (congrArg Hbm.mem hh :), (congrArg State.cores hs :), fun hq => ?_⟩
  rw [hh, Hbm.handOn_eq_self hq]

/-! ### Patrol scrub -/

@[simp] theorem Hbm.queueOf_setQueueOf (h : Hbm) (pc : Nat) (q : ElQueue) : (h.setQueueOf pc q).queueOf pc = q := tget_tput_self _ _ _ _

theorem Hbm.queueOf_setQueueOf_ne (h : Hbm) {p pc : Nat} (q : ElQueue) (hp : p ≠ pc) : (h.setQueueOf pc q).queueOf p = h.queueOf p :=
  tget_tput_ne _ _ _ hp

theorem pcOf_granule (granule : Nat) : pcOf (2048 * granule) = granule % 768 := by
  unfold pcOf
  omega

theorem patrolScrub_joins {s : State} {granule : Nat} (hw : (Instr.patrolScrub (hubOf (granule % 768)) granule).wf = true)
    (hd : 2048 * granule < 0x012000000000) (hl : (s.hbm.queueOf (granule % 768)).reqs.length < 64) :
    ∃ t x, exec (.patrolScrub (hubOf (granule % 768)) granule) s = .next t
      ∧ t.hbm = s.hbm.setQueueOf (granule % 768)
        { s.hbm.queueOf (granule % 768) with reqs := (s.hbm.queueOf (granule % 768)).reqs ++ [x] }
      ∧ x.src = 3 ∧ x.req.dpa = 2048 * granule ∧ x.req.req = .scrub ∧ t.cores = s.cores := by
  have he : exec (.patrolScrub (hubOf (granule % 768)) granule) s = execPatrolScrub (hubOf (granule % 768)) granule s := rfl
  unfold execPatrolScrub at he
  dsimp only at he
  rw [pcOf_granule, if_neg (by simpa using ⟨hd, hl⟩)] at he
  exact ⟨_, _, exec_next hw he, rfl, rfl, rfl, rfl, rfl⟩

/-- Frame boundaries and patrol scrub (R226, R233, R244). -/
theorem framesAndScrubs : FramesAndScrubs := by
  intro s granule
  refine ⟨fun hw hr hf hc => frameTurns hw hr hf hc, fun hw hd hl => ?_⟩
  obtain ⟨t, x, ht, hh, hsrc, hdpa, hreq, hcores⟩ := patrolScrub_joins hw hd hl
  refine ⟨t, x, ht, ?_, hsrc, hdpa, hreq, fun p hp => ?_, ?_, ?_, ?_, hcores⟩
  · rw [hh, Hbm.queueOf_setQueueOf]
  · rw [hh, Hbm.queueOf_setQueueOf_ne _ _ hp]
  all_goals
    rw [hh]
    rfl

/-- Settles O25: what leaves a hub, frame boundaries, and patrol scrub. -/
theorem linesLeaveAndFramesTurn : Obligations.LinesLeaveAndFramesTurn := ⟨linesLeaveTheHub, framesAndScrubs⟩

end Sys2Proof.Machine
end

section
/-!
SUPPORT. Requests of HBM join their queues, and runs perform them (O24; 08 R225, R227, R234 to R236, R242, R243, R245).
-/

namespace Sys2Proof.Machine

open Sys2Proof Sys2Proof.Safety Sys2Proof.Claims

/-! ### Arrival -/

theorem State.msg_take_self (s : State) (id : Nat) : (s.take id).msg id = none := tget_terase_self none s.plane id

@[simp] theorem Hbm.res_setRes (h : Hbm) (i : Nat) (v : Resv) : (h.setRes i v).res i = v := tget_tput_self _ _ _ _

theorem Hbm.res_setRes_ne (h : Hbm) {i j : Nat} (v : Resv) (hj : j ≠ i) : (h.setRes i v).res j = h.res j := tget_tput_ne _ _ _ hj

theorem Resv.queue_push (v : Resv) (pc : Nat) (r : Request) : tget [] (v.push pc r).queues pc = tget [] v.queues pc ++ [r] :=
  tget_tput_self _ _ _ _

theorem Resv.queue_push_ne (v : Resv) {p pc : Nat} (r : Request) (hp : p ≠ pc) :
    tget [] (v.push pc r).queues p = tget [] v.queues p := tget_tput_ne _ _ _ hp

/-- A scheduled request that its entry's reservation takes: the slot is one of the frame's, the entry is RESERVED, its reservation
admits the request, and the request stays within one granule. -/
def SchedFits (s : State) (slot : Nat) (r : Request) : Prop :=
  slot < 512 ∧ (s.hbm.entry (pcOf r.dpa) (slot / 8)).kind = 1
    ∧ (s.hbm.res (s.hbm.entry (pcOf r.dpa) (slot / 8)).res).admits r.req = true ∧ r.dpa % 2048 + r.req.len ≤ 2048

theorem mismatch_iff {s : State} {slot : Nat} {r : Request} :
    (decide (512 ≤ slot) || decide ((s.hbm.entry (pcOf r.dpa) (slot / 8)).kind ≠ 1)
      || !(s.hbm.res (s.hbm.entry (pcOf r.dpa) (slot / 8)).res).admits r.req
      || decide (2048 < r.dpa % 2048 + r.req.len)) = true ↔ ¬ SchedFits s slot r := by
  simp only [SchedFits, Bool.or_eq_true, decide_eq_true_eq, Bool.not_eq_true', not_and_or, not_lt, not_le, Bool.not_eq_true, or_assoc,
    ne_eq]

/-- A refused request that no one waits for leaves nothing but the count of its hub. -/
theorem State.calRefuse_mismatch (s : State) {r : Request} (slot : Nat) (hr : r.reply = .none) :
    s.calRefuse r 0x10 slot = s.modHub (hubOf (pcOf r.dpa)) fun (h : Hub) => { h with misCnt := satAdd h.misCnt 1 } := by
  unfold State.calRefuse
  rw [hr]
  rfl

theorem State.calRefuse_overrun (s : State) {r : Request} (slot : Nat) (hr : r.reply = .none) :
    s.calRefuse r 0x11 slot = s.modHub (hubOf (pcOf r.dpa)) fun (h : Hub) => { h with ovrCnt := satAdd h.ovrCnt 1 } := by
  unfold State.calRefuse
  rw [hr]
  rfl

/-- What is not behind the fence goes on to its queue. -/
theorem unfenced {h : Hub} {r : Request} (hf : h.cfence = false ∨ r.mine = false) : ¬(h.cfence && r.mine) = true := by
  rcases hf with h | h
  all_goals simp [h]

section
variable {s : State} {req : Nat} {r : Request} (hm : s.msg req = some (.hub r)) (ht : s.inTurn req (.hub r) = true)
include hm ht

theorem hubReq_eq : s.hubReq req = some r := by
  unfold State.hubReq
  rw [hm]
  exact if_pos ht

variable (hf : (s.hub (hubOf (pcOf r.dpa))).cfence = false ∨ r.mine = false)
include hf

/-- A scheduled request whose turn has come: it is refused as a mismatch, refused as an overrun, or joins its queue. -/
theorem schedRequestArrival_eq {slot : Nat} (hs : r.resv = some slot) (hw : (Instr.schedRequestArrival req).wf = true) :
    let e := s.hbm.entry (pcOf r.dpa) (slot / 8)
    let v := s.hbm.res e.res
    (¬ SchedFits s slot r → exec (.schedRequestArrival req) s = .next ((s.take req).calRefuse r 0x10 slot))
    ∧ (SchedFits s slot r → 8 ≤ (tget [] v.queues (pcOf r.dpa)).length →
      exec (.schedRequestArrival req) s = .next ((s.take req).calRefuse r 0x11 slot))
    ∧ (SchedFits s slot r → (tget [] v.queues (pcOf r.dpa)).length < 8 →
      exec (.schedRequestArrival req) s = .next { s.take req with hbm := s.hbm.setRes e.res (v.push (pcOf r.dpa) r) }) := by
  intro e v
  have he : exec (.schedRequestArrival req) s = execSchedRequestArrival req s := rfl
  unfold execSchedRequestArrival at he
  rw [hubReq_eq hm ht] at he
  dsimp only at he
  rw [hs] at he
  dsimp only at he
  have hu : ¬(((s.take req).hub (hubOf (pcOf r.dpa))).cfence && r.mine) = true := unfenced hf
  rw [if_neg hu] at he
  refine ⟨fun hn => exec_next hw (he.trans ?_), fun hy h8 => exec_next hw (he.trans ?_), fun hy h8 => exec_next hw (he.trans ?_)⟩
  · rw [if_pos ((mismatch_iff (s := s.take req)).2 hn)]
  · rw [if_neg ((mismatch_iff (s := s.take req)).not_left.2 hy)]
    exact congrArg _ (if_pos h8)
  · rw [if_neg ((mismatch_iff (s := s.take req)).not_left.2 hy)]
    exact congrArg _ (if_neg (Nat.not_le.2 h8))

theorem elasticRequestArrival_joins (hs : r.resv = none) (hw : (Instr.elasticRequestArrival req).wf = true)
    (hl : (s.hbm.queueOf (pcOf r.dpa)).reqs.length < 64) :
    exec (.elasticRequestArrival req) s = .next (({ s.take req with
      hbm := s.hbm.setQueueOf (pcOf r.dpa)
        { s.hbm.queueOf (pcOf r.dpa) with reqs := (s.hbm.queueOf (pcOf r.dpa)).reqs ++ [⟨r.source, r⟩] } } : State).modHub
          (hubOf (pcOf r.dpa)) fun (h : Hub) =>
            { h with elHwm := max h.elHwm ((s.hbm.queueOf (pcOf r.dpa)).reqs.length + 1) }) := by
  refine exec_next hw ?_
  change execElasticRequestArrival req s = _
  unfold execElasticRequestArrival
  rw [hubReq_eq hm ht]
  dsimp only
  have hu : ¬(((s.take req).hub (hubOf (pcOf r.dpa))).cfence && r.mine) = true := unfenced hf
  rw [if_neg (by simp [hs, hl]), if_neg hu]
  rfl

end

/-- A request whose turn has come joins its queue, or is refused and counted (R234, R235, R242). -/
theorem requestsJoinTheirQueues : RequestsJoinTheirQueues := by
  intro s req r pc hub kept hm ht hf
  refine ⟨fun slot hs hw => ?_, fun hs hw hl => ?_⟩
  · obtain ⟨hmis, hovr, hjoin⟩ := schedRequestArrival_eq hm ht hf hs hw
    have hpush : ∀ (i : Nat) (v : Resv), (s.hbm.setRes i (v.push pc r)).res i = v.push pc r := fun i v => Hbm.res_setRes _ _ _
    refine ⟨fun hy h8 => ⟨_, hjoin hy h8, ⟨s.msg_take_self req, rfl, rfl, rfl, rfl, rfl⟩, ?_, fun p hp => ?_, fun y hy => ?_, rfl, rfl⟩,
      fun hr hn => ⟨_, (hmis hn).trans (congrArg _ (State.calRefuse_mismatch _ slot hr)), ⟨s.msg_take_self req, rfl, rfl, rfl, rfl, rfl⟩,
        rfl, ?_⟩,
      fun hr hy h8 => ⟨_, (hovr hy h8).trans (congrArg _ (State.calRefuse_overrun _ slot hr)),
        ⟨s.msg_take_self req, rfl, rfl, rfl, rfl, rfl⟩, rfl, ?_⟩⟩
    · exact (congrArg (fun v : Resv => tget [] v.queues pc) (hpush _ _)).trans (Resv.queue_push _ _ _)
    · exact (congrArg (fun v : Resv => tget [] v.queues p) (hpush _ _)).trans (Resv.queue_push_ne _ _ hp)
    · exact Hbm.res_setRes_ne _ _ hy
    · rw [← satAdd_one_toNat]
      exact congrArg (·.misCnt.toNat) (State.hub_modHub _ _ _)
    · rw [← satAdd_one_toNat]
      exact congrArg (·.ovrCnt.toNat) (State.hub_modHub _ _ _)
  · exact ⟨_, elasticRequestArrival_joins hm ht hf hs hw hl, ⟨s.msg_take_self req, rfl, rfl, rfl, rfl, rfl⟩,
      congrArg ElQueue.reqs (Hbm.queueOf_setQueueOf _ _ _), fun p hp => Hbm.queueOf_setQueueOf_ne _ _ hp, rfl⟩

/-! ### The parts of a range -/

theorem readBytes_add (m : SMap Byte) (a k n : Nat) : readBytes m a (k + n) = readBytes m a k ++ readBytes m (a + k) n := by
  induction k generalizing a with
  | zero => simp [readBytes]
  | succ k ih => rw [Nat.succ_add, readBytes, ih, readBytes, List.cons_append, Nat.add_assoc, Nat.add_comm 1 k]

theorem slotParts_zero (fuel a off : Nat) : slotParts fuel a off 0 = [] := by
  cases fuel with
  | zero => rfl
  | succ fuel => rfl

theorem slotParts_succ (fuel a off : Nat) {len : Nat} (h : 0 < len) :
    slotParts (fuel + 1) a off len = (a, off, min len (256 - a % 256))
      :: slotParts fuel (a + min len (256 - a % 256)) (off + min len (256 - a % 256)) (len - min len (256 - a % 256)) :=
  if_neg (by omega)

theorem slotParts_within {fuel a off len : Nat} {x : Nat × Nat × Nat} (hx : x ∈ slotParts fuel a off len) :
    a ≤ x.1 ∧ x.1 < a + len := by
  induction fuel generalizing a off len with
  | zero => cases hx
  | succ fuel ih =>
    rcases Nat.eq_zero_or_pos len with h0 | hpos
    · subst h0
      cases hx
    · rw [slotParts_succ _ _ _ hpos] at hx
      rcases List.mem_cons.1 hx with rfl | hx
      · exact ⟨le_rfl, Nat.lt_add_of_pos_right hpos⟩
      · have := ih hx
        omega

/-- With fuel for every block that a range touches, its parts hold its bytes, and the last of them ends in its last block. -/
theorem slotParts_spec (m : SMap Byte) {fuel a off len : Nat} (hpos : 0 < len) (hf : a % 256 + len ≤ 256 * fuel) :
    ((slotParts fuel a off len).flatMap fun x => readBytes m x.1 x.2.2) = readBytes m a len
      ∧ ∃ l, (slotParts fuel a off len).getLast? = some l ∧ l.1 / 256 = (a + len - 1) / 256 := by
  induction fuel generalizing a off len with
  | zero => omega
  | succ fuel ih =>
    rw [slotParts_succ _ _ _ hpos]
    by_cases hlast : len ≤ 256 - a % 256
    · rw [Nat.min_eq_left hlast, Nat.sub_self, slotParts_zero]
      exact ⟨by simp, (a, off, len), rfl, by dsimp only; omega⟩
    · rw [Nat.min_eq_right (by omega)]
      obtain ⟨hb, l, hl, hl1⟩ := ih (a := a + (256 - a % 256)) (off := off + (256 - a % 256)) (len := len - (256 - a % 256))
        (by omega) (by omega)
      have hend : a + (256 - a % 256) + (len - (256 - a % 256)) = a + len := by omega
      refine ⟨?_, l, by rw [List.getLast?_cons, hl]; rfl, by rw [hl1, hend]⟩
      rw [List.flatMap_cons, hb]
      exact (readBytes_add m a _ _).symm.trans (congrArg (readBytes m a) (Nat.add_sub_cancel' (Nat.le_of_not_le hlast)))

/-! ### A request is performed -/

theorem hbmErrors_nil (k : Nat) (bs : List Nat) (s : State) : State.hbmErrors [] k bs s = (s, []) := by
  induction bs generalizing k with
  | nil => rfl
  | cons b t ih => simp [State.hbmErrors, ih]

/-- What performing a request may change: bytes and marks, the corrections of HBM, and what is to leave the hub. -/
def Hbm.served (h : Hbm) (mem : SMap Byte) (pois : SMap Bool) (egress : List Egress) (acks : List WrAck) (fixed : SMap Nat) : Hbm :=
  { h with mem := mem, pois := pois, egress := egress, acks := acks, fixed := fixed }

/-- Two states between which requests of a run have been performed. -/
def OnlyServed (s t : State) : Prop := ∃ mem pois egress acks fixed id fc,
  t = { s with hbm := s.hbm.served mem pois egress acks fixed, nextId := id, freeCtr := fc }

theorem Hbm.write_served (h : Hbm) (a : Nat) (d : List Byte) (marks : List Bool) :
    ∃ mem pois, h.write a d marks = h.served mem pois h.egress h.acks h.fixed := by
  unfold Hbm.write
  split
  · exact ⟨_, _, rfl⟩
  · exact ⟨_, _, rfl⟩

theorem Hbm.write_egress (h : Hbm) (a : Nat) (d : List Byte) (marks : List Bool) : (h.write a d marks).egress = h.egress := by
  obtain ⟨_, _, hw⟩ := h.write_served a d marks
  rw [hw, Hbm.served]

theorem Hbm.write_acks (h : Hbm) (a : Nat) (d : List Byte) (marks : List Bool) : (h.write a d marks).acks = h.acks := by
  obtain ⟨_, _, hw⟩ := h.write_served a d marks
  rw [hw, Hbm.served]

section
variable (s : State) (pc n k : Nat) {r : Request}

/-- A part of a range as a read without stored errors finds it. -/
def State.partRead (s : State) (x : Nat × Nat × Nat) : Nat × Nat × List Byte × Bool :=
  (x.1, x.2.1, s.hbmData x.1 x.2.2, s.hbm.poisoned x.1 x.2.2)

theorem State.perform_read {len : Nat} (h : r.req = .read len) :
    (s.perform pc n [] k r).1 = (if firmwareArea r.dpa then s.draw else s).addEgress
      (egressOf pc n r ((slotParts 16 r.dpa 0 len).map s.partRead)) := by
  unfold State.perform
  rw [h]
  dsimp only
  rw [hbmErrors_nil]
  simp only [List.any_nil, Bool.or_false]
  rfl

theorem State.perform_write {d : List Byte} {marks : List Bool} (h : r.req = .write d marks) :
    (s.perform pc n [] k r).1 = { s with
      hbm := { s.hbm.write r.dpa d marks with
        acks := s.hbm.acks ++ [WrAck.mk s.nextId (slotTbt n (slotIn (r.dpa + d.length - 1)) + 64) pc
          (8 * (n % 64) + slotIn (r.dpa + d.length - 1)) r.sched r.reply d.length] }
      nextId := s.nextId + 1 } := by
  unfold State.perform
  rw [h]

/-- What an atomic reads of HBM. -/
def State.atomOld (s : State) (dpa : Nat) (op : AtomOp) : W64 := BitVec.ofNat 64 (leVal (readBytes s.hbm.mem dpa (atomLen op)))

theorem State.perform_atom {op : AtomOp} (h : r.req = .atom op) :
    (s.perform pc n [] k r).1 = ({ s with
      hbm := s.hbm.put r.dpa (leBytes (atomNew op (s.atomOld r.dpa op)).toNat (atomLen op))
        (s.hbm.poisoned r.dpa (atomLen op) || op.p) } : State).addEgress
      (egressOf pc n { r with dests := [] }
        [(r.dpa, 0, leBytes (s.atomOld r.dpa op).toNat 8, s.hbm.poisoned r.dpa (atomLen op))]) := by
  unfold State.perform
  rw [h]
  dsimp only
  rw [hbmErrors_nil]
  simp only [List.isEmpty_nil, Bool.not_true, Bool.or_false]
  rfl

theorem State.perform_scrub (h : r.req = .scrub) :
    (s.perform pc n [] k r).1 = { s with hbm := { s.hbm with fixed := tdrop (fun b => b / 32 = r.dpa / 2048) s.hbm.fixed } } := by
  unfold State.perform
  rw [h]
  dsimp only
  rw [hbmErrors_nil]

theorem State.perform_onlyServed : OnlyServed s (s.perform pc n [] k r).1 := by
  cases hr : r.req with
  | read len =>
    rw [s.perform_read pc n k hr]
    split
    · exact ⟨_, _, _, _, _, _, _, rfl⟩
    · exact ⟨_, _, _, _, _, _, _, rfl⟩
  | write d marks =>
    obtain ⟨mem, pois, h⟩ := s.hbm.write_served r.dpa d marks
    rw [s.perform_write pc n k hr, h]
    exact ⟨_, _, _, _, _, _, _, rfl⟩
  | atom op =>
    rw [s.perform_atom pc n k hr, Hbm.put]
    obtain ⟨mem, pois, h⟩ := s.hbm.write_served r.dpa (leBytes (atomNew op (s.atomOld r.dpa op)).toNat (atomLen op))
      (List.replicate _ (s.hbm.poisoned r.dpa (atomLen op) || op.p))
    rw [h]
    exact ⟨_, _, _, _, _, _, _, rfl⟩
  | scrub =>
    rw [s.perform_scrub pc n k hr]
    exact ⟨_, _, _, _, _, _, _, rfl⟩

end

theorem firmwareArea_user {a : Nat} (h : a < 0x011E00000000) : firmwareArea a = false := by
  simp [firmwareArea, hbmEnd]
  omega

theorem State.hbmData_user (s : State) {a : Nat} (len : Nat) (h : a < 0x011E00000000) : s.hbmData a len = readBytes s.hbm.mem a len := by
  have hd : ¬((decide (0x011F00000000 ≤ a) && decide (a < 0x011F40000000)) = true) := by
    simp
    omega
  unfold State.hbmData
  rw [if_neg (by simp [firmwareArea_user h]), if_neg hd]
  rfl

theorem leBytes_length (v n : Nat) : (leBytes v n).length = n := by
  induction n generalizing v with
  | zero => rfl
  | succ n ih => simp [leBytes, ih]

/-- With no destinations, one answer leaves with the last part. -/
theorem egressOf_answer (pc n : Nat) {r : Request} {parts : List (Nat × Nat × List Byte × Bool)} {l : Nat × Nat × List Byte × Bool}
    (hd : r.dests = []) (hl : parts.getLast? = some l) : egressOf pc n r parts
      = [Egress.mk pc (8 * (n % 64) + slotIn l.1) (slotTbt n (slotIn l.1)) 0 (parts.flatMap fun x => x.2.2.1)
          (parts.any fun x => x.2.2.2) r] := by
  unfold egressOf
  rw [hd, hl]
  rfl

section
variable (s : State) (pc n : Nat) {r : Request}

theorem performed_read {len : Nat} (hreq : r.req = .read len) : performed s (s.perform pc n [] 0 r).1 n r := by
  rw [s.perform_read pc n 0 hreq]
  unfold performed
  rw [hreq]
  intro _ hpos hgran huser hdests
  obtain ⟨hbytes, l, hl, hblock⟩ := slotParts_spec s.hbm.mem (fuel := 16) (a := r.dpa) (off := 0) hpos (by omega)
  have hdata : ((slotParts 16 r.dpa 0 len).map s.partRead).flatMap (fun x => x.2.2.1) = readBytes s.hbm.mem r.dpa len := by
    rw [List.flatMap_map, ← hbytes]
    refine List.flatMap_congr fun x hx => ?_
    have hw := slotParts_within hx
    exact s.hbmData_user x.2.2 (by omega)
  have hlast : ((slotParts 16 r.dpa 0 len).map s.partRead).getLast? = some (s.partRead l) := by rw [List.getLast?_map, hl]; rfl
  have hslot : slotIn l.1 = (r.dpa + len - 1) % 2048 / 256 := by
    unfold slotIn
    omega
  rw [if_neg (by simp [firmwareArea_user huser]), egressOf_answer pc n hdests hlast]
  exact ⟨rfl, rfl, rfl, _, rfl, hdata, rfl, congrArg (slotTbt n) hslot⟩

theorem performed_write {d : List Byte} {marks : List Bool} (hreq : r.req = .write d marks) :
    performed s (s.perform pc n [] 0 r).1 n r := by
  obtain ⟨hin, hout⟩ := s.hbm.write_bytes r.dpa d marks
  rw [s.perform_write pc n 0 hreq]
  unfold performed
  rw [hreq]
  intro _ hd
  exact ⟨hin, hout, s.hbm.write_egress _ _ _, _, rfl, rfl, rfl⟩

theorem performed_atom {op : AtomOp} (hreq : r.req = .atom op) : performed s (s.perform pc n [] 0 r).1 n r := by
  have hold : leVal (readBytes s.hbm.mem r.dpa (atomLen op)) < 2 ^ (8 * atomLen op) := by
    have := leVal_lt (readBytes s.hbm.mem r.dpa (atomLen op))
    rwa [readBytes_length] at this
  have hnew := atomNew_toNat op hold
  have hval := toNat_ofNat_atom op hold
  obtain ⟨hin, hout⟩ := s.hbm.write_bytes r.dpa (leBytes (atomNew op (s.atomOld r.dpa op)).toNat (atomLen op))
    (List.replicate _ (s.hbm.poisoned r.dpa (atomLen op) || op.p))
  rw [leBytes_length] at hin hout
  rw [s.perform_atom pc n 0 hreq, egressOf_answer pc n
    (l := (r.dpa, 0, leBytes (s.atomOld r.dpa op).toNat 8, s.hbm.poisoned r.dpa (atomLen op))) rfl rfl]
  unfold performed
  rw [hreq]
  refine ⟨hin.trans (congrArg (leBytes · (atomLen op)) hnew), hout, s.hbm.write_acks _ _ _, _,
    congrArg (· ++ [_]) (s.hbm.write_egress _ _ _), ?_, rfl⟩
  exact (List.append_nil _).trans (congrArg (leBytes · 8) hval)

theorem performed_scrub (hreq : r.req = .scrub) : performed s (s.perform pc n [] 0 r).1 n r := by
  rw [s.perform_scrub pc n 0 hreq]
  unfold performed
  rw [hreq]
  exact ⟨rfl, rfl, rfl, rfl, fun b => (tget_tdrop ..).trans (by simp)⟩

theorem State.perform_performed : performed s (s.perform pc n [] 0 r).1 n r := by
  cases hr : r.req with
  | read len => exact performed_read s pc n hr
  | write d marks => exact performed_write s pc n hr
  | atom op => exact performed_atom s pc n hr
  | scrub => exact performed_scrub s pc n hr

end

/-! ### The cut-off of a run -/

/-- What a run performs depends on the bytes of HBM, on its corrections, and on what is to leave the hub. -/
theorem performed_of_eq {s u t : State} {n : Nat} {r : Request} (h : performed u t n r) (hmem : u.hbm.mem = s.hbm.mem)
    (hpois : u.hbm.pois = s.hbm.pois) (hegress : u.hbm.egress = s.hbm.egress) (hacks : u.hbm.acks = s.hbm.acks)
    (hfixed : u.hbm.fixed = s.hbm.fixed) : performed s t n r := by
  unfold performed at h ⊢
  rwa [hmem, hpois, hegress, hacks, hfixed] at h

/-- The cut-off of run `n`, counted from TBT 0, has passed. -/
def State.cutOff (s : State) (pc n : Nat) : State := { s with hbm := { s.hbm with last := tput 0 s.hbm.last pc (n + 1) } }

/-- A reservation of which pseudo-channel `pc` has served a request, the others being `rest`. -/
def Resv.serve (v : Resv) (pc : Nat) (rest : List Request) : Resv := { v with
  queues := tput [] v.queues pc rest
  served := tput 0 v.served (hubOf pc) (satAdd (tget 0 v.served (hubOf pc)) 1) }

theorem Resv.queue_serve (v : Resv) (pc : Nat) (rest : List Request) : tget [] (v.serve pc rest).queues pc = rest :=
  tget_tput_self _ _ _ _

/-- Run `n`, at its cut-off, with the reservation that it serves as `v`. -/
def State.reservedAt (s : State) (pc n i : Nat) (v : Resv) : State := { s.cutOff pc n with hbm := (s.cutOff pc n).hbm.setRes i v }

/-- Run `n`, at its cut-off, with the elastic queue that it serves as `q`. -/
def State.elasticAt (s : State) (pc n : Nat) (q : ElQueue) : State := { s.cutOff pc n with hbm := (s.cutOff pc n).hbm.setQueueOf pc q }

theorem cutting_eq {s : State} {n : Nat} (hr : s.clk.run = true) (h0 : (s.clk.tbt.toNat + 128) / 2 % 128 = 0)
    (hn : n = (s.clk.tbt.toNat + 128) / 256) : s.cutting = some n := by
  unfold State.cutting
  dsimp only
  rw [if_pos (by simp [hr, h0]), hn]

theorem ElQueue.next_single {src : Nat} (r : Request) (h : src < 4) : ElQueue.next ⟨[⟨src, r⟩], src⟩ = some ⟨src, r⟩ := by
  have hsrc : src % 4 = src := Nat.mod_eq_of_lt h
  simp [ElQueue.next, upFrom, hsrc]

theorem elasticRun_single {s : State} (pc n : Nat) {r : Request} {src : Nat} (hq : s.hbm.queueOf pc = ⟨[⟨src, r⟩], src⟩)
    (hsrc : src < 4) : s.elasticRun pc n [] false
      = (({ s with hbm := s.hbm.setQueueOf pc ⟨[], (src + 1) % 4⟩ } : State).perform pc n [] 0 r).1 := by
  unfold State.elasticRun
  dsimp only
  rw [hq, ElQueue.next_single r hsrc]
  simp [State.performAll]

theorem runCutoff_due {s : State} {pc run n : Nat} (hn : n % 64 = run) (hl : tget 0 s.hbm.last pc ≤ n)
    (hc : (s.hub (hubOf pc)).calRun = true) :
    ¬(decide (n % 64 ≠ run) || decide (n < tget 0 s.hbm.last pc) || !(s.hub (hubOf pc)).calRun) = true := by
  simp [hn, hc, hl]

section
variable {s : State} {pc run n : Nat} (hw : (Instr.runCutoff pc run []).wf = true) (hcut : s.cutting = some n)
include hw hcut

/-- A run whose cut-off has passed does nothing more. -/
theorem runCutoff_again (hl : n < tget 0 s.hbm.last pc) : exec (.runCutoff pc run []) s = .next s := by
  refine exec_next hw ?_
  change execRunCutoff pc run [] s = _
  unfold execRunCutoff
  rw [hcut]
  dsimp only
  rw [if_pos (by simp [hl])]

variable (hn : n % 64 = run) (hl : tget 0 s.hbm.last pc ≤ n) (hc : (s.hub (hubOf pc)).calRun = true)
include hn hl hc

theorem runCutoff_reserved {r : Request} {rest : List Request} (hk : (s.hbm.entryAt pc run).kind = 1)
    (hq : tget [] (s.hbm.res (s.hbm.entryAt pc run).res).queues pc = r :: rest) :
    exec (.runCutoff pc run []) s = .next ((s.reservedAt pc n (s.hbm.entryAt pc run).res
      ((s.hbm.res (s.hbm.entryAt pc run).res).serve pc rest)).perform pc n [] 0 r).1 := by
  have he : exec (.runCutoff pc run []) s = execRunCutoff pc run [] s := rfl
  unfold execRunCutoff at he
  have hk' : ((s.cutOff pc n).hbm.entryAt pc run).kind = 1 := hk
  have hq' : tget [] ((s.cutOff pc n).hbm.res ((s.cutOff pc n).hbm.entryAt pc run).res).queues pc = r :: rest := hq
  rw [hcut] at he
  dsimp only at he
  rw [if_neg (runCutoff_due hn hl hc)] at he
  dsimp only [State.cutOff] at hk' hq'
  rw [hk', hq'] at he
  exact exec_next hw he

theorem runCutoff_elastic {r : Request} {src : Nat} (hk : (s.hbm.entryAt pc run).kind = 0)
    (hq : s.hbm.queueOf pc = ⟨[⟨src, r⟩], src⟩) (hsrc : src < 4) :
    exec (.runCutoff pc run []) s = .next ((s.elasticAt pc n ⟨[], (src + 1) % 4⟩).perform pc n [] 0 r).1 := by
  have he : exec (.runCutoff pc run []) s = execRunCutoff pc run [] s := rfl
  unfold execRunCutoff at he
  have hk' : ((s.cutOff pc n).hbm.entryAt pc run).kind = 0 := hk
  rw [hcut] at he
  dsimp only at he
  rw [if_neg (runCutoff_due hn hl hc)] at he
  dsimp only [State.cutOff] at hk'
  rw [hk'] at he
  exact exec_next hw (he.trans (congrArg _ (elasticRun_single (s := s.cutOff pc n) pc n hq hsrc)))

end

/-- Two states that performing a request tells apart in HBM alone, and there not in its queues nor its runs. -/
theorem OnlyServed.kept {s t : State} (h : OnlyServed s t) : t.hbm.resv = s.hbm.resv ∧ t.hbm.el = s.hbm.el
    ∧ t.hbm.last = s.hbm.last ∧ t.cores = s.cores ∧ t.clk = s.clk := by
  obtain ⟨mem, pois, egress, acks, fixed, id, fc, rfl⟩ := h
  exact ⟨rfl, rfl, rfl, rfl, rfl⟩

/-- After a run has performed its request, another cut-off of it does nothing. -/
theorem runCutoff_twice {s t : State} {pc run n : Nat} (hw : (Instr.runCutoff pc run []).wf = true) (hcut : s.cutting = some n)
    (hclk : t.clk = s.clk) (hlast : tget 0 t.hbm.last pc = n + 1) : exec (.runCutoff pc run []) t = .next t := by
  refine runCutoff_again (n := n) hw ?_ (by omega)
  rw [← hcut, State.cutting, State.cutting, hclk]

/-- RUN_CUTOFF at the cut-off of a run performs the oldest request of its reservation, or the elastic one whose turn it is
(R235, R236, R243). -/
theorem runsPerformTheirRequests : RunsPerformTheirRequests := by
  intro s pc run n r i e hw hr h0 hn hrun hl hc
  have hcut := cutting_eq hr h0 hn
  refine ⟨fun rest hk hq => ?_, fun src hk hq hsrc => ?_⟩
  · obtain ⟨hresv, hel, hlast, hcores, hclk⟩ :=
      ((s.reservedAt pc n e.res ((s.hbm.res e.res).serve pc rest)).perform_onlyServed pc n 0 (r := r)).kept
    have hlast' := (congrArg (tget 0 · pc) hlast).trans (tget_tput_self 0 s.hbm.last pc (n + 1))
    refine ⟨_, runCutoff_reserved hw hcut hrun hl hc hk hq,
      performed_of_eq (State.perform_performed _ pc n) rfl rfl rfl rfl rfl, ?_, hel, fun y hy => ?_, hlast',
      runCutoff_twice hw hcut hclk hlast', hcores⟩
    · have hres := (congrArg (tget Resv.free · e.res) hresv).trans (Hbm.res_setRes (s.cutOff pc n).hbm e.res _)
      exact (congrArg (fun v : Resv => tget [] v.queues pc) hres).trans (Resv.queue_serve _ pc rest)
    · exact (congrArg (tget Resv.free · y) hresv).trans (Hbm.res_setRes_ne (s.cutOff pc n).hbm _ hy)
  · obtain ⟨hresv, hel, hlast, hcores, hclk⟩ :=
      ((s.elasticAt pc n ⟨[], (src + 1) % 4⟩).perform_onlyServed pc n 0 (r := r)).kept
    have hlast' := (congrArg (tget 0 · pc) hlast).trans (tget_tput_self 0 s.hbm.last pc (n + 1))
    have hqueue := congrArg (tget ElQueue.empty · pc) hel
    refine ⟨_, runCutoff_elastic hw hcut hrun hl hc hk hq hsrc,
      performed_of_eq (State.perform_performed _ pc n) rfl rfl rfl rfl rfl, ?_, hresv, fun p hp => ?_, hlast',
      runCutoff_twice hw hcut hclk hlast', hcores⟩
    · exact congrArg ElQueue.reqs (hqueue.trans (Hbm.queueOf_setQueueOf (s.cutOff pc n).hbm pc _))
    · exact (congrArg (tget ElQueue.empty · p) hel).trans (Hbm.queueOf_setQueueOf_ne (s.cutOff pc n).hbm _ hp)

/-- Settles O24: requests of HBM join their queues, and the runs of the pseudo-channels perform them. -/
theorem requestsAreQueuedAndPerformed : Obligations.RequestsAreQueuedAndPerformed :=
  ⟨requestsJoinTheirQueues, runsPerformTheirRequests⟩

end Sys2Proof.Machine
end

section
/-!
SUPPORT. Requests of a transfer that issue, requests and fills that complete (O16; 09 R259 to R267).
-/

namespace Sys2Proof.Machine

open Sys2Proof Sys2Proof.Safety Sys2Proof.Claims

/-! ### Slots and transactions -/

@[simp] theorem Core.slot_setSlot (c : Core) (e : Dma) (n : Nat) (x : Slot) : (c.setSlot e n x).slot e n = x := tget_tput_self _ _ _ _

theorem Core.setSlot_slotsKept (c : Core) (e : Dma) {n : Nat} (x : Slot) (hn : n < 16) : slotsKept (c.setSlot e n x) c e n := by
  intro e' j hj h
  refine tget_tput_ne _ _ _ ?_
  cases e' <;> cases e
  all_goals simp at h ⊢
  all_goals omega

/-- What a core does beside its slots leaves them as they were. -/
theorem slotsKept_of_slots {u v c : Core} {e : Dma} {n : Nat} (hv : slotsKept v c e n) (h : u.dm.slots = v.dm.slots) :
    slotsKept u c e n := by
  intro e' j hj ho
  rw [← hv e' j hj ho, Core.slot, Core.slot, h]

theorem Core.txn_id {c : Core} {id : Nat} {t : Txn} (h : c.txn id = some t) : t.id = id := by
  simpa using List.find?_some h

/-- The entry of a transaction holds what was set. -/
theorem Core.txn_setTxn {c : Core} {id : Nat} {t t' : Txn} (h : c.txn id = some t) (hid : t'.id = id) :
    (c.setTxn t').txn id = some t' := by
  have hp : (fun y : Txn => decide (y.id = id)) ∘ (fun x : Txn => if x.id = t'.id then t' else x)
      = fun y : Txn => decide (y.id = id) := by
    funext y
    simp only [Function.comp_apply]
    split
    · next hy => rw [hy]
    · rfl
  change List.find? _ (List.map _ _) = _
  rw [List.find?_map, hp]
  change (c.txn id).map _ = _
  rw [h, Option.map_some, if_pos ((Core.txn_id h).trans hid.symm)]

/-- Setting a transaction leaves the others as they were. -/
theorem Core.others_setTxn (c : Core) (t : Txn) :
    (c.setTxn t).dm.txns.filter (fun y => y.id ≠ t.id) = c.dm.txns.filter fun y => y.id ≠ t.id := by
  change (c.dm.txns.map fun x => if x.id = t.id then t else x).filter _ = _
  induction c.dm.txns with
  | nil => rfl
  | cons y ys ih =>
    by_cases hy : y.id = t.id
    · simpa [hy] using ih
    · simpa [hy] using ih

/-- No DATOM waits to leave. -/
theorem Core.sendWaiting_none {c : Core} (env : Env) (h : ∀ y ∈ c.dm.txns, y.sent = true) : c.sendWaiting env = c := by
  have hw : (c.dm.txns.filter fun t => t.datom && !t.sent) = [] :=
    List.filter_eq_nil_iff.2 fun y hy => by simp [h y hy]
  rw [Core.sendWaiting, hw]
  rfl

/-! ### DMA_REQUEST_ISSUE -/

/-- The slot once its next request, of `len` bytes, has issued: the request is written off its position (R261). -/
def Slot.issued (x : Slot) (len : Nat) : Slot :=
  { x with
    pos := x.pos + len, req := x.req + 1, gated := false
    rix := if (x.pos + len) % dFill x.desc = 0 then 0 else x.rix + 1
    head := if x.rix = 0 then x.head + 1 else x.head }

/-- The transaction of a request of DMA0 to HBM: its packets all land in its own core (R259, R267). -/
def Slot.readTxn (x : Slot) (core slot id dpa ra la len : Nat) (ecc : List EccObs) : Txn :=
  { id := id, out := false, slot := slot, fill := x.pos / dFill x.desc, req := x.req, sched := dSched x.desc
    datom := false, left := blocks256 dpa len, own := blocks256 dpa len, unpl := blocks256 dpa len, cslot := dCslot x.desc, bytes := len
    addr := ra, lcl := la, rctx := x.rctx, dead := false, raise := false, tally := 0, kvi := x.kvi
    atom := none, sent := true, buf := [], bad := false, ecc := ecc
    walk := if dCoincide x.desc then some ⟨core, false, slot, x.mark, x.req⟩ else none }

/-- The request as it goes to the hub. -/
def Slot.readRequest (x : Slot) (env : Env) (id dpa la len : Nat) : Msg :=
  .hub ⟨dpa, .read len, dSched x.desc, if dSched x.desc then some (dCslot x.desc) else none, 0, env.source,
    [⟨env.core, la, .dma⟩], .core env.core id⟩

theorem Core.openTxn_eq (c : Core) (t : Txn) :
    ∃ h, c.openTxn t = { c with dm := { c.dm with txns := c.dm.txns ++ [t], hwm := h }, ids := c.ids + 1 } := ⟨_, rfl⟩

/-- A request that leaves: its slot has been written, and its transaction is open. -/
theorem Core.request_leaves (c : Core) {slot : Nat} (y : Slot) (t : Txn) (m : Msg) (hs : slot < 16) :
    let u := ((c.setSlot .inbound slot y).openTxn t).send m
    u.tx = c.tx ++ [m] ∧ u.dm.txns = c.dm.txns ++ [t] ∧ u.slot .inbound slot = y ∧ slotsKept u c .inbound slot
      ∧ u.regs = c.regs ∧ u.mem = c.mem ∧ u.tl = c.tl := by
  obtain ⟨h, ht⟩ := (c.setSlot .inbound slot y).openTxn_eq t
  rw [ht]
  exact ⟨rfl, rfl, c.slot_setSlot .inbound slot y, slotsKept_of_slots (c.setSlot_slotsKept .inbound y hs) rfl, rfl, rfl, rfl⟩

/-- A request to HBM for which there is room issues (R259, R261, R265). -/
theorem Core.request_hbm {c : Core} {env : Env} {x : Slot} {slot dpa ra la len : Nat} (ecc : List EccObs)
    (hn : nextRequest env x.desc false x.pos = (.hbm dpa, ra, la, len)) (hl : la + len ≤ 0x2000000) (hm : dMcast x.desc = false)
    (hroom : if dSched x.desc then c.schedOut < 1536 else c.elasOut < 512 ∧ c.overlapped env .inbound ra len = false) :
    c.request env .inbound slot x ecc
      = ((c.setSlot .inbound slot (x.issued len)).openTxn (x.readTxn env.core slot c.ids dpa ra la len ecc)).send
        (x.readRequest env c.ids dpa la len) := by
  have hscr : ¬ scrBytes < la + len := Nat.not_lt.2 hl
  unfold Core.request
  cases hs : dSched x.desc
  · obtain ⟨he, ho⟩ : c.elasOut < 512 ∧ c.overlapped env .inbound ra len = false := by simpa [hs] using hroom
    have hn1 : ¬ 512 ≤ c.elasOut := by omega
    simp [hn, hscr, hm, hs, requestCause, ho, hn1, readLeft, sendRead, Slot.issued, Slot.readTxn, Slot.readRequest]
  · have hroom : c.schedOut < 1536 := by simpa [hs] using hroom
    have hn1 : ¬ 1536 ≤ c.schedOut := by omega
    simp [hn, hscr, hm, hs, requestCause, hn1, readLeft, sendRead, Slot.issued, Slot.readTxn, Slot.readRequest]

/-- DMA_REQUEST_ISSUE in the ccyc to which the core has come. -/
def Core.issueRequest (c : Core) (env : Env) (e : Dma) (slot : Nat) (ecc : List EccObs) : Core :=
  let x := c.slot e slot
  let d := x.desc
  if !x.unissued || x.fault || !(c.rn.stop = .no || c.tm.now ≤ c.rn.stopAt)
      || (dSched d && (c.held || c.tm.p ≠ x.at0 + 4 + x.pos / dFill d * dFpace d + x.rix * dPace d)) then c
  else
    let c := { c with ck := { c.ck with seen := tput 0 c.ck.seen (engKey e.engine false + 16) (c.tm.now + 1) } }
    if x.rix = 0 && !c.gateOk d (e = .outbound) (x.pos / dFill d) then c.gateWait e slot x else c.request env e slot x ecc

/-- A command that acts on core `n` as `f` hands over what `f` makes of the core that it finds. -/
theorem hands_of_act (f : Env → Core → Core) {i : Instr} {s : State} {n : Nat} (hf : fit i s = true)
    (he : exec i s = accept i (s.onCore n f)) : hands i s n (f (s.env n) (found s n)) :=
  hands_of_onCore (gated_of_fit hf) (exec_next (wf_of_fit hf) he)

theorem hands_dmaRequestIssue {s : State} {n delta : Nat} {e : Dma} {slot : BitVec 4} {ecc : List EccObs}
    (hf : fit (.dmaRequestIssue n delta e slot ecc) s = true) :
    hands (.dmaRequestIssue n delta e slot ecc) s n ((requesting s n delta e).issueRequest (s.env n) e slot.toNat ecc) :=
  hands_of_act (fun env c => (c.comeToKey env delta (engKey e.engine false + 16)).issueRequest env e slot.toNat ecc) hf rfl

/-- The engine has come to a ccyc of its own. -/
def Core.markSeen (c : Core) (key : Nat) : Core := { c with ck := { c.ck with seen := tput 0 c.ck.seen key (c.tm.now + 1) } }

/-- A request that is due, of a fill whose gate holds, issues. -/
theorem Core.issueRequest_due {c : Core} {env : Env} {slot : Nat} {ecc : List EccObs} (hst : (c.slot .inbound slot).state = 2)
    (hfl : (c.slot .inbound slot).fault = false) (hpos : (c.slot .inbound slot).pos < dBytes (c.slot .inbound slot).desc)
    (hrun : c.rn.stop = .no)
    (hgate : (c.slot .inbound slot).rix = 0 → c.gateOk (c.slot .inbound slot).desc false
      ((c.slot .inbound slot).pos / dFill (c.slot .inbound slot).desc) = true)
    (hdue : dSched (c.slot .inbound slot).desc = true → c.held = false
      ∧ c.tm.p = (c.slot .inbound slot).at0 + 4
        + (c.slot .inbound slot).pos / dFill (c.slot .inbound slot).desc * dFpace (c.slot .inbound slot).desc
        + (c.slot .inbound slot).rix * dPace (c.slot .inbound slot).desc) :
    c.issueRequest env .inbound slot ecc
      = (c.markSeen (engKey Dma.inbound.engine false + 16)).request env .inbound slot (c.slot .inbound slot) ecc := by
  generalize hx : c.slot .inbound slot = x at *
  have hun : x.unissued = true := by simp [Slot.unissued, hst, hpos]
  have hg : ¬ (decide (x.rix = 0) && !(c.markSeen (engKey Dma.inbound.engine false + 16)).gateOk x.desc (Dma.inbound = .outbound)
      (x.pos / dFill x.desc)) = true := by
    intro h
    obtain ⟨h0, hn⟩ := Bool.and_eq_true_iff.1 h
    have hok : (c.markSeen (engKey Dma.inbound.engine false + 16)).gateOk x.desc (Dma.inbound = .outbound) (x.pos / dFill x.desc)
        = true := hgate (of_decide_eq_true h0)
    rw [hok] at hn
    exact Bool.false_ne_true hn
  unfold Core.issueRequest
  rw [hx]
  exact (if_neg (by simpa [hun, hfl, hrun] using hdue)).trans (if_neg hg)

theorem inboundRequestsLeaveForTheHub : InboundRequestsLeaveForTheHub := by
  intro s n delta dpa ra la len slot ecc i k sl d hf hst hfl hpos hrun hgate hm hn hl hroom
  have hdue : dSched d = true → k.held = false
      ∧ k.tm.p = sl.at0 + 4 + sl.pos / dFill d * dFpace d + sl.rix * dPace d := fun hs => by
    obtain ⟨hheld, -, hp⟩ := (if_pos hs).mp hroom
    exact ⟨hheld, hp⟩
  have hfits : if dSched d then k.schedOut < 1536 else k.elasOut < 512 ∧ k.overlapped (s.env n) .inbound ra len = false := by
    by_cases hs : dSched d = true
    · rw [if_pos hs] at hroom ⊢
      exact hroom.2.1
    · rw [if_neg hs] at hroom ⊢
      exact hroom
  have h := hands_dmaRequestIssue hf
  rw [Core.issueRequest_due hst hfl hpos hrun hgate hdue, Core.request_hbm (c := k.markSeen _) ecc hn hl hm hfits] at h
  obtain ⟨htx, htxns, hslot, hslots, hregs, hmem, htl⟩ :=
    (k.markSeen (engKey Dma.inbound.engine false + 16)).request_leaves (sl.issued len)
      (sl.readTxn n slot.toNat k.ids dpa ra la len ecc) (sl.readRequest (s.env n) k.ids dpa la len) slot.isLt
  exact ⟨_, _, h, htx, htxns, rfl, rfl, rfl, rfl, rfl, rfl, rfl, rfl, rfl, congrArg Slot.pos hslot, congrArg Slot.req hslot,
    (congrArg Slot.state hslot).trans hst, hslots, hregs, hmem, htl⟩

/-! ### DMA_REQUEST_COMPLETE -/

/-- A transaction whose pieces have all completed. -/
def Txn.ended (t : Txn) : Txn := { t with left := 0 }

@[simp] theorem Txn.ended_id (t : Txn) : t.ended.id = t.id := rfl

/-- An answer without an error that is the last of its request. -/
theorem Core.answered_last {c : Core} {t : Txn} {a : Answer} (ha : a.status = .ok) (ht : t.left = 1) :
    c.answered t a = c.setTxn t.ended := by
  simp [Core.answered, answerCause, ha, ht, Txn.ended]

/-- The core that has freed an outbound transaction (R265, R282). -/
def Core.freed (c : Core) (t : Txn) : Core :=
  { c with dm := { c.dm with
    txns := c.dm.txns.filter fun y => y.id ≠ t.id, bytesOut := c.dm.bytesOut + BitVec.ofNat 64 t.bytes } }

/-- Freeing a transaction leaves all but the transactions and the count of their bytes. -/
theorem Core.freed_keeps (c : Core) (t : Txn) :
    datapathKept (settled (c.freed t)) c ∧ (settled (c.freed t)).dm.txns = c.dm.txns.filter (fun y => y.id ≠ t.id)
      ∧ (settled (c.freed t)).dm.bytesOut = c.dm.bytesOut + BitVec.ofNat 64 t.bytes
      ∧ (settled (c.freed t)).dm.bytesIn = c.dm.bytesIn ∧ (settled (c.freed t)).dm.slots = c.dm.slots :=
  ⟨⟨rfl, rfl, rfl, rfl, rfl, rfl, rfl, rfl⟩, rfl, rfl, rfl, rfl⟩

theorem Core.freed_setTxn (c : Core) (t : Txn) : (c.setTxn t).freed t = c.freed t := by
  unfold Core.freed
  rw [c.others_setTxn]
  rfl

/-- A transaction that has completed is freed; nothing waits for its place. -/
theorem Core.free_completed {c : Core} {env : Env} {id : Nat} {t : Txn} (hx : c.txn id = some t) (hl : t.left = 0) (ho : t.out = true)
    (hs : ∀ y ∈ c.dm.txns, y.sent = true) : c.free env id = c.freed t := by
  obtain rfl := Core.txn_id hx
  unfold Core.free
  rw [hx]
  dsimp only
  rw [if_neg (by simp [hl]), ho]
  exact Core.sendWaiting_none env fun y hy => hs y (List.mem_of_mem_filter hy)

/-- DMA_REQUEST_COMPLETE with an answer under way, in the ccyc to which the core has come. -/
def Core.requestComplete (c : Core) (env : Env) (txn : Nat) (a : Answer) : Core :=
  match c.txn txn with
  | none => c
  | some t => (c.answered t a).free env txn

theorem exec_dmaRequestComplete_answer {s : State} {n delta txn id : Nat} {a : Answer}
    (hf : fit (.dmaRequestComplete n delta txn) s = true) (ha : findAnswer n txn s.plane = some (id, a)) :
    exec (.dmaRequestComplete n delta txn) s
      = .next ((s.take id).onCore n fun env k => (k.comeTo env delta).requestComplete env txn a) := by
  refine exec_next (wf_of_fit hf) ?_
  rw [exec_dmaRequestComplete, execDmaRequestComplete, if_neg (by simp [gated_of_fit hf]), ha]
  rfl

theorem setTxn_sent {c : Core} {t : Txn} (ht : t.sent = true) (hs : ∀ y ∈ c.dm.txns, y.sent = true) :
    ∀ y ∈ (c.setTxn t).dm.txns, y.sent = true := by
  intro y hy
  obtain ⟨x, hx, rfl⟩ := List.mem_map.1 hy
  split
  · exact ht
  · exact hs x hx

/-- The last answer of an outbound request ends its transaction, and its bytes count (R267). -/
theorem Core.requestComplete_last {c : Core} {env : Env} {txn : Nat} {a : Answer} {t : Txn} (hx : c.txn txn = some t)
    (ha : a.status = .ok) (hl : t.left = 1) (ho : t.out = true) (hs : ∀ y ∈ c.dm.txns, y.sent = true) :
    c.requestComplete env txn a = c.freed t := by
  have hid : t.ended.id = txn := t.ended_id.trans (Core.txn_id hx)
  have hsent : t.ended.sent = true := hs t (List.mem_of_find?_eq_some hx)
  unfold Core.requestComplete
  rw [hx]
  dsimp only
  rw [Core.answered_last ha hl,
    Core.free_completed (Core.txn_setTxn (t' := t.ended) hx hid) rfl ho (setTxn_sent hsent hs), Core.freed_setTxn]
  rfl

theorem dmaRequestComplete_completes {s : State} {n delta txn id : Nat} {a : Answer} {t : Txn}
    (hf : fit (.dmaRequestComplete n delta txn) s = true) (ha : findAnswer n txn s.plane = some (id, a)) (hok : a.status = .ok)
    (hx : (reached s n delta).txn txn = some t) (hl : t.left = 1) (ho : t.out = true)
    (hs : ∀ y ∈ (reached s n delta).dm.txns, y.sent = true) :
    ∃ u, exec (.dmaRequestComplete n delta txn) s = .next u ∧ othersKept s u n
      ∧ u.core n = settled ((reached s n delta).freed t) := by
  have hg : (s.take id).gated = false := gated_of_fit hf
  have htake : othersKept s (s.take id) n := ⟨fun _ _ => rfl, rfl, rfl, rfl, rfl, rfl, rfl, rfl⟩
  have hc : ((s.take id).onCore n fun env k => (k.comeTo env delta).requestComplete env txn a).core n
      = Core.settled ((reached s n delta).requestComplete (s.env n) txn a) := (s.take id).onCore_core n _ hg
  rw [Core.requestComplete_last hx hok hl ho hs] at hc
  exact ⟨_, exec_dmaRequestComplete_answer hf ha, othersKept_trans htake (othersKept_onCore n _ hg), hc⟩

/-! ### FILL_COMPLETE -/

/-- The slot whose oldest fill has completed; it is LOADED after the last one (R266). -/
def Slot.fillEnded (x : Slot) : Slot := { x with tail := x.tail + 1, state := if x.tail + 1 = dFills x.desc then 1 else 2 }

/-- FILL_COMPLETE of a fill that has completed. -/
def Core.fillEnd (c : Core) (e : Dma) (slot : Nat) : Core :=
  let x := c.slot e slot
  let u := c.setSlot e slot x.fillEnded
  if x.raise && !x.fault then u.complete e.engine x.tally x.inc else u

/-- What a core with a new slot, and a tally that may rise, leaves as it was. -/
theorem Core.setSlot_raise (c : Core) (e : Dma) {n : Nat} (y : Slot) (r : Bool) (tally : Nat) (inc : W32) (hn : n < 16) :
    let u := settled (if r then (c.setSlot e n y).complete e.engine tally inc else c.setSlot e n y)
    u.slot e n = y ∧ slotsKept u c e n
      ∧ u.tl.chg = c.tl.chg ++ (if r then [⟨false, tally, .inc, inc, e.engine, 0xFFFFFFFF⟩] else [])
      ∧ u.regs = c.regs ∧ u.mem = c.mem ∧ u.dm.txns = c.dm.txns := by
  have hslots := c.setSlot_slotsKept e y hn
  cases r
  · exact ⟨c.slot_setSlot e n y, slotsKept_of_slots hslots rfl, (List.append_nil _).symm, rfl, rfl, rfl⟩
  · exact ⟨c.slot_setSlot e n y, slotsKept_of_slots hslots rfl, rfl, rfl, rfl, rfl⟩

theorem hands_fillComplete {s : State} {n delta : Nat} {e : Dma} {slot : BitVec 4} (hf : fit (.fillComplete n delta e slot) s = true)
    (hd : (reached s n delta).fillDone e slot.toNat = true) :
    hands (.fillComplete n delta e slot) s n ((reached s n delta).fillEnd e slot.toNat) := by
  have h := hands_of_event (fun _ c => if !c.fillDone e slot.toNat then c else c.fillEnd e slot.toNat) hf rfl
  rwa [hd, if_neg (by decide)] at h

theorem transfersComplete : TransfersComplete := by
  refine ⟨?_, ?_⟩
  · intro s n delta txn id a t i k hf ha hok hx hid hl ho _ hs
    obtain ⟨u, he, hothers, hc⟩ := dmaRequestComplete_completes hf ha hok hx hl ho hs
    refine ⟨u, he, hothers, ?_⟩
    rw [hc, ← hid]
    exact k.freed_keeps t
  · intro s n delta e slot i k sl hf hd
    obtain ⟨⟨u, he, hc, hothers⟩, _⟩ := hands_fillComplete hf hd
    obtain ⟨hslot, hslots, hchg, hregs, hmem, htxns⟩ :=
      k.setSlot_raise e sl.fillEnded (sl.raise && !sl.fault) sl.tally sl.inc slot.isLt
    refine ⟨u, he, hothers, ?_⟩
    rw [hc]
    exact ⟨hslots, congrArg Slot.tail hslot, congrArg Slot.state hslot, hchg.trans (congrArg _ (if_congr (by simp) rfl rfl)), hregs, hmem, htxns⟩

/-- Settles O16: the next request of an inbound transfer issues; requests and fills complete. -/
theorem transfersAreServed : Obligations.TransfersAreServed := ⟨inboundRequestsLeaveForTheHub, transfersComplete⟩

end Sys2Proof.Machine
end

section
/-!
SUPPORT. What faults and messages leave of the runs of jobs (O22; 16 R481, R482, R487).
-/

namespace Sys2Proof.Machine

open Sys2Proof Sys2Proof.Safety Sys2Proof.Claims

/-! ### The plan of a job -/

/-- What a run is to do: its index, start, buffer set and deadline. -/
def Run.plan (r : Run) : Nat × Nat × Nat × Nat := (r.idx, r.start, r.set, r.deadline)

/-- What of a job decides its starts. -/
structure JobPlan where
  state : Nat
  runIdx : Nat
  live : List (Nat × Nat × Nat × Nat)
  starts : List PendStart
  per : Option Periodic

def Job.plan (j : Job) : JobPlan := ⟨j.state, j.runIdx, j.live.map Run.plan, j.starts, j.per⟩

/-- The plan of a job, and the columns that are disabled: they tell which copy of the timebase a core reads. -/
def State.planned (s : State) (job : Nat) : JobPlan × SMap Nat := ((s.job job).plan, s.fl.spare)

theorem Run.mark_plan (r : Run) (cls : Nat) (stop : Bool) (tbt core idx : Nat) (st : Status) :
    (r.mark cls stop tbt core idx st).plan = r.plan := by
  unfold Run.mark
  extract_lets q
  have hq : q.plan = r.plan := by
    unfold q
    split
    · rfl
    · split
      all_goals rfl
  clear_value q
  split
  · exact hq
  · split
    · exact hq
    · split
      all_goals exact hq

theorem Job.plan_modRun (j : Job) (idx : Nat) {f : Run → Run} (h : ∀ r, (f r).plan = r.plan) : (j.modRun idx f).plan = j.plan := by
  have hl : ((j.modRun idx f).live).map Run.plan = j.live.map Run.plan := by
    rw [Job.modRun, List.map_map]
    refine List.map_congr_left fun r _ => ?_
    rw [Function.comp_apply]
    split
    · exact h r
    · rfl
  unfold Job.plan
  rw [hl]
  rfl

theorem State.planned_setJob (s : State) {k : Nat} {x : Job} (h : x.plan = (s.job k).plan) (job : Nat) :
    (s.setJob k x).planned job = s.planned job := by
  unfold State.planned
  by_cases hj : job = k
  · rw [hj, State.job_setJob, h]
    rfl
  · rw [State.job_setJob_ne _ _ hj]
    rfl

/-- A fault or a note changes a run, and whether its job is to end FAULTED. -/
theorem State.planned_modRun (s : State) (k idx : Nat) {f : Run → Run} (h : ∀ r, (f r).plan = r.plan) (b : Bool) (job : Nat) :
    (s.setJob k { (s.job k).modRun idx f with faulting := b }).planned job = s.planned job :=
  s.planned_setJob (x := { (s.job k).modRun idx f with faulting := b }) ((s.job k).plan_modRun idx h) job

/-! ### Faults -/

/-- The jobs and the fault log. -/
def State.books (s : State) : SMap Job × Faults := (s.jobs, s.fl)

theorem State.planned_of_books {s t : State} (h : t.books = s.books) (job : Nat) : t.planned job = s.planned job :=
  congrArg (fun b : SMap Job × Faults => ((tget Job.empty b.1 job).plan, b.2.spare)) h

theorem State.ledger_books (s : State) (ty : Nat) (d : List Byte) : (s.ledger ty d).books = s.books := by
  unfold State.ledger
  split
  all_goals rfl

theorem State.ledgerFault_books (s : State) (d : List Byte) : (s.ledgerFault d).books = s.books := by
  unfold State.ledgerFault
  extract_lets sec n
  split
  · exact State.ledger_books ..
  · rfl

/-- A record in the log: the jobs stand, and the log has one record more. -/
theorem State.logRec_books (s : State) (f : FRec) :
    (s.logRec f).1.jobs = s.jobs ∧ (s.logRec f).1.fl.spare = s.fl.spare ∧ (s.logRec f).1.fl.seq = s.fl.seq + 1 := by
  have h := State.ledgerFault_books
  unfold State.logRec
  dsimp only
  exact ⟨congrArg Prod.fst (h ..), congrArg (fun b => b.2.spare) (h ..), congrArg (fun b => b.2.seq) (h ..)⟩

theorem State.logRec_planned (s : State) (f : FRec) (job : Nat) : (s.logRec f).1.planned job = s.planned job := by
  obtain ⟨hjobs, hspare, -⟩ := s.logRec_books f
  rw [State.planned, State.job, hjobs, hspare]
  rfl

theorem State.logCore_planned (s : State) (k : Nat) (f : RawFault) (job : Nat) : (s.logCore k f).planned job = s.planned job := by
  unfold State.logCore State.logNamed
  split
  · rfl
  · dsimp only
    split
    all_goals
      generalize hr : s.logRec _ = r
      have h : r.1.planned job = s.planned job := hr ▸ State.logRec_planned ..
      dsimp only
      split
      · exact (State.planned_modRun _ _ _ (fun r => r.mark_plan ..) _ job).trans h
      · exact h

/-! ### Messages -/

theorem State.answerTo_books (s : State) (r : Reply) (st : Status) (a b c : Nat) (d : List Byte) (p : Bool) :
    (s.answerTo r st a b c d p).books = s.books := by
  unfold State.answerTo State.sendEntry State.sendOn
  split
  · rfl
  · rfl
  · split
    · rfl
    · split
      all_goals rfl
  · rfl
  · rfl
  · split
    all_goals rfl
  · dsimp only
    split
    · split
      · rfl
      · split
        all_goals rfl
    · split
      · rfl
      · split
        all_goals rfl

theorem State.answer_books (s : State) (r : Reply) (st : Status) (a b c : Nat) (d : List Byte) (p : Bool) :
    (s.answer r st a b c d p).books = s.books := by
  unfold State.answer
  split
  · split
    · rfl
    · dsimp only
      split
      · rfl
      · split
        all_goals exact State.answerTo_books ..
  · exact State.answerTo_books ..

theorem State.sendFabric_books (s : State) (h : Header) (d : List Byte) (c : Bool) (r : Reply) :
    (s.sendFabric h d c r).books = s.books := by
  unfold State.sendFabric
  split
  · exact State.answer_books ..
  · dsimp only
    split
    · exact State.answer_books ..
    · split
      all_goals rfl

theorem State.deliver_books (s : State) (m : Msg) : (s.deliver m).books = s.books := by
  unfold State.deliver
  split
  · exact State.answer_books ..
  · split
    · exact State.answer_books ..
    · split
      all_goals exact State.answer_books ..
  · exact State.sendFabric_books ..
  · rfl

/-! ### A command on a core -/

theorem State.noteFirst_planned (s : State) (k job : Nat) : (s.noteFirst k).planned job = s.planned job := by
  unfold State.noteFirst
  dsimp only
  split
  · rfl
  · split
    · refine s.planned_setJob (Job.plan_modRun _ _ ?_) job
      exact fun _ => rfl
    · rfl

theorem State.onCore_planned (s : State) (k : Nat) (f : Env → Core → Core) (job : Nat) :
    (s.onCore k f).planned job = s.planned job := by
  have hlog : ∀ (l : List RawFault) (t : State), (l.foldl (fun s x => s.logCore k x) t).planned job = t.planned job := fun l t =>
    foldl_keeps (State.planned · job) _ (fun t x => t.logCore_planned k x job) l t
  have hsend : ∀ (l : List Msg) (t : State), (l.foldl State.deliver t).planned job = t.planned job := fun l t =>
    State.planned_of_books (foldl_keeps State.books _ (fun t m => t.deliver_books m) l t) job
  unfold State.onCore
  split
  · rfl
  · dsimp only
    split
    · exact (State.noteFirst_planned ..).trans ((hsend ..).trans (hlog ..))
    · exact (State.noteFirst_planned ..).trans ((hsend ..).trans (hlog ..))

/-! ### THERMAL -/

theorem State.thermalRun_planned (s : State) (job run : Nat) (x : Nat × Nat) (k : Nat) :
    (s.thermalRun job run x).planned k = s.planned k := by
  unfold State.thermalRun
  generalize hr : s.logUnit .. = r
  have h : r.1.planned k = s.planned k := hr ▸ State.logRec_planned ..
  exact (State.planned_modRun _ _ _ (fun r => r.mark_plan ..) _ k).trans h

theorem State.thermalRun_still (s : State) (job run : Nat) (x : Nat × Nat) : (s.thermalRun job run x).still = s.still := by
  unfold State.thermalRun
  generalize hr : s.logUnit .. = r
  have h : r.1.still = s.still := hr ▸ State.logRec_still ..
  exact h

theorem State.thermalNoted_books (s : State) (x : Nat × Nat) : (s.thermalNoted x).books = s.books := State.ledger_books ..

theorem State.thermalNoted_still (s : State) (x : Nat × Nat) : (s.thermalNoted x).still = s.still :=
  (State.alert_still ..).trans (State.ledger_still ..)

/-- THERMAL on a run that starts marks it, and touches no core, no unit and no plan. -/
theorem State.thermalStart_keeps (s : State) (job run : Nat) :
    (∀ k, (s.thermalStart job run).planned k = s.planned k) ∧ (s.thermalStart job run).still = s.still := by
  unfold State.thermalStart
  split
  · exact ⟨fun _ => rfl, rfl⟩
  · next x _ =>
    exact ⟨fun k => (State.planned_of_books (State.thermalNoted_books _ x) k).trans (s.thermalRun_planned job run x k),
      (State.thermalNoted_still _ x).trans (s.thermalRun_still job run x)⟩

end Sys2Proof.Machine
end

section
/-!
SUPPORT. A run of a job starts on its cores (O22; 09 R277; 12 R372, R373; 16 R490).
-/

namespace Sys2Proof.Machine

open Sys2Proof Sys2Proof.Safety Sys2Proof.Claims

/-! ### One core -/

/-- A start leaves time, registers, memory and the handler of its core. -/
theorem Core.startRun_keeps (c : Core) (env : Env) (job run wait : Nat) :
    let u := c.startRun env job run wait
    u.tm = c.tm ∧ u.regs = c.regs ∧ u.mem = c.mem ∧ u.ms.handler = c.ms.handler := by
  intro u
  have hu : u = c.startRun env job run wait := rfl
  clear_value u
  unfold Core.startRun at hu
  extract_lets n c' at hu
  split at hu
  all_goals rw [hu]; exact ⟨rfl, rfl, rfl, rfl⟩

/-- Core `c` is to begin block 0 of run `run` of job `job` in ccyc `t` of its pipelines. -/
def runBegun (c : Core) (job run t : Nat) : Prop :=
  c.rn.block = 0 ∧ c.rn.begin0 = t ∧ c.rn.run = run ∧ c.rn.runCcyc = 0 ∧ c.ctx c.rn.ctx = ⟨true, job, run, false⟩

/-- Without a handler the run begins its block 0 after the wait (R373). -/
theorem Core.startRun_begun {c : Core} (h : c.ms.handler = none) (env : Env) (job run wait : Nat) :
    runBegun (c.startRun env job run wait) job run (c.tm.p + 1 + wait) := by
  unfold Core.startRun
  extract_lets n c'
  have hn : c'.ctx n = ⟨true, job, run, false⟩ := c.ctx_setRctx n _
  have hp : c'.tm.p = c.tm.p := rfl
  have hh : c'.ms.handler = none := h
  rw [if_neg (by rw [hh]; exact Bool.false_ne_true)]
  exact ⟨rfl, by simp only [Core.enterRun, hp, Nat.add_assoc], congrArg RunCtx.run hn, rfl, hn⟩

/-! ### The cores of a job -/

theorem State.onCore_ne (s : State) {j k : Nat} (f : Env → Core → Core) (hj : j ≠ k) : (s.onCore k f).core j = s.core j := by
  cases hg : s.gated
  · exact s.onCore_core_ne k f hg j hj
  · rw [s.onCore_gated k f hg]

/-- How far a core is short of an instant depends on the clocks, and on the columns that are disabled. -/
theorem State.shortOf_congr {s t : State} (hclk : t.clk = s.clk) (hspare : t.fl.spare = s.fl.spare) (k n : Nat) :
    t.shortOf k n = s.shortOf k n := by
  have hphys : t.phys k = s.phys k := by
    unfold State.phys State.failed
    rw [hspare]
  unfold State.shortOf State.copyTbt State.island
  rw [hphys, hclk]

/-- The state in which core `k` has been told to start a run that is due at `start`. -/
def State.startOn (s : State) (job run start k : Nat) : State :=
  let wait := s.shortOf k start
  s.onCore k fun env c => c.startRun env job run wait

/-- What a start on cores leaves of the part and of core `k`. -/
structure StartKept where
  hbm : Hbm
  clk : Clocks
  cfg : Cfg
  pins : Pins
  spare : SMap Nat
  tm : CTime
  regs : Regs
  mem : SMap Byte
  handler : Option Handler

def State.startKept (s : State) (k : Nat) : StartKept :=
  ⟨s.hbm, s.clk, s.cfg, s.pins, s.fl.spare, (s.core k).tm, (s.core k).regs, (s.core k).mem, (s.core k).ms.handler⟩

theorem State.startOn_planned (s : State) (job run start i k : Nat) : (s.startOn job run start i).planned k = s.planned k := by
  unfold State.startOn
  exact s.onCore_planned i _ k

theorem State.startOn_ne (s : State) (job run start : Nat) {i k : Nat} (hk : k ≠ i) : (s.startOn job run start i).core k = s.core k := by
  unfold State.startOn
  exact s.onCore_ne _ hk

theorem State.startOn_core {s : State} (hg : s.gated = false) (job run start k : Nat) : (s.startOn job run start k).core k
    = Core.settled (Core.startRun { s.core k with fc := s.freeCtr } (s.env k) job run (s.shortOf k start)) := by
  unfold State.startOn
  exact s.onCore_core k _ hg

theorem State.startOn_coreKept {s : State} (hg : s.gated = false) (job run start i k : Nat) :
    let c := (s.startOn job run start i).core k
    c.tm = (s.core k).tm ∧ c.regs = (s.core k).regs ∧ c.mem = (s.core k).mem ∧ c.ms.handler = (s.core k).ms.handler := by
  by_cases hk : k = i
  · rw [hk, State.startOn_core hg]
    exact Core.startRun_keeps { s.core i with fc := s.freeCtr } (s.env i) job run (s.shortOf i start)
  · rw [s.startOn_ne _ _ _ hk]
    exact ⟨rfl, rfl, rfl, rfl⟩

theorem State.startOn_startKept (s : State) (job run start i k : Nat) : (s.startOn job run start i).startKept k = s.startKept k := by
  cases hg : s.gated
  · have hspare : (s.startOn job run start i).fl.spare = s.fl.spare := congrArg Prod.snd (s.startOn_planned job run start i 0)
    obtain ⟨htm, hregs, hmem, hh⟩ := State.startOn_coreKept hg job run start i k
    rw [State.startKept, hspare, htm, hregs, hmem, hh, State.startOn, s.onCore_hbm i _ hg, s.onCore_clk i _ hg, s.onCore_cfg i _ hg,
      s.onCore_pins i _ hg]
    rfl
  · rw [State.startOn, s.onCore_gated i _ hg]

/-- The cores of the list are told to start. -/
def State.startCores (s : State) (job run start : Nat) (l : List Nat) : State :=
  l.foldl (fun t k => t.startOn job run start k) s

theorem State.startCores_startKept (s : State) (job run start : Nat) (l : List Nat) (k : Nat) :
    (s.startCores job run start l).startKept k = s.startKept k :=
  foldl_keeps (State.startKept · k) _ (fun t i => t.startOn_startKept job run start i k) l s

theorem State.startCores_planned (s : State) (job run start : Nat) (l : List Nat) (k : Nat) :
    (s.startCores job run start l).planned k = s.planned k :=
  foldl_keeps (State.planned · k) _ (fun t i => t.startOn_planned job run start i k) l s

theorem State.startCores_ne (s : State) (job run start : Nat) {l : List Nat} {k : Nat} (hk : k ∉ l) :
    (s.startCores job run start l).core k = s.core k :=
  List.foldlRecOn (motive := fun t : State => t.core k = s.core k) l _ rfl fun t ht _ hi =>
    (t.startOn_ne job run start (ne_of_mem_of_not_mem hi hk).symm).trans ht

/-- Core `k` runs, and if it has no handler it begins block 0 of the run when its copy of the timebase reaches the instant. -/
def State.startsOn (s : State) (job run start k : Nat) : Prop :=
  s.gated = false → (s.core k).ms.handler = none → runBegun (s.core k) job run ((s.core k).tm.p + 1 + s.shortOf k start)

theorem State.gated_of_startKept {s t : State} {k : Nat} (h : t.startKept k = s.startKept k) : t.gated = s.gated := by
  rw [State.gated, State.gated, show t.clk = s.clk from congrArg StartKept.clk h, show t.pins = s.pins from congrArg StartKept.pins h]

theorem State.shortOf_of_startKept {s t : State} {k : Nat} (h : t.startKept k = s.startKept k) (n : Nat) : t.shortOf k n = s.shortOf k n :=
  State.shortOf_congr (congrArg StartKept.clk h) (congrArg StartKept.spare h) k n

theorem State.startOn_startsOn (s : State) (job run start k : Nat) : (s.startOn job run start k).startsOn job run start k := by
  intro hg hh
  have hkept := s.startOn_startKept job run start k k
  have hg' : s.gated = false := (State.gated_of_startKept hkept).symm.trans hg
  have htm : ((s.startOn job run start k).core k).tm = (s.core k).tm := congrArg StartKept.tm hkept
  have hh' : (s.core k).ms.handler = none := (congrArg StartKept.handler hkept).symm.trans hh
  rw [State.shortOf_of_startKept hkept, htm, State.startOn_core hg']
  exact Core.startRun_begun (c := { s.core k with fc := s.freeCtr }) hh' (s.env k) job run (s.shortOf k start)

theorem State.startsOn_startOn {s : State} {job run start k : Nat} (h : s.startsOn job run start k) {i : Nat} :
    (s.startOn job run start i).startsOn job run start k := by
  by_cases hk : k = i
  · exact hk ▸ s.startOn_startsOn job run start k
  · intro hg hh
    have hkept := s.startOn_startKept job run start i k
    have hg' : s.gated = false := (State.gated_of_startKept hkept).symm.trans hg
    rw [s.startOn_ne _ _ _ hk] at hh ⊢
    rw [State.shortOf_of_startKept hkept]
    exact h hg' hh

theorem State.startCores_startsOn (s : State) (job run start : Nat) {l : List Nat} {k : Nat} (hk : k ∈ l) :
    (s.startCores job run start l).startsOn job run start k :=
  foldl_establishes (P := fun t : State => t.startsOn job run start k) hk (fun t => t.startOn_startsOn job run start k)
    (fun _ _ ht => State.startsOn_startOn ht) s

/-! ### The job -/

/-- The run `r` has joined those of its job. -/
def State.withRun (s : State) (job set : Nat) (r : Run) : State :=
  (s.spoilDigests job set).setJob job
    { s.job job with state := jRUNNING, runIdx := (s.job job).runIdx + 1, live := (s.job job).live ++ [r] }

/-- The run joins those of its job, its cores are told to start, and THERMAL may mark it. -/
theorem State.startRun_eq (s : State) (job : Nat) (a : StartArgs) :
    ∃ r : Run, r.plan = ((s.job job).runIdx, a.start, a.set, a.deadline) ∧ s.startRun job a
      = ((s.withRun job a.set r).startCores job (s.job job).runIdx a.start (s.job job).placement).thermalStart job
          (s.job job).runIdx := ⟨_, rfl, rfl⟩

/-- What a start leaves, and makes, of its job's plan. -/
theorem State.startRun_plan (s : State) (job : Nat) (a : StartArgs) :
    ((s.startRun job a).job job).plan = { (s.job job).plan with
      state := 4, runIdx := (s.job job).runIdx + 1
      live := (s.job job).live.map Run.plan ++ [((s.job job).runIdx, a.start, a.set, a.deadline)] } := by
  obtain ⟨r, hr, he⟩ := s.startRun_eq job a
  obtain ⟨hplan, -⟩ := State.thermalStart_keeps
    ((s.withRun job a.set r).startCores job (s.job job).runIdx a.start (s.job job).placement) job (s.job job).runIdx
  have h := congrArg Prod.fst ((hplan job).trans (State.startCores_planned ..))
  rw [he]
  refine h.trans ?_
  rw [State.planned, State.withRun, State.job_setJob, ← hr]
  simp [Job.plan, jRUNNING]

/-- What a start leaves, and makes, of the cores and units. -/
theorem State.startRun_cores (s : State) (job : Nat) (a : StartArgs) (hg : s.gated = false) :
    let t := s.startRun job a
    (∀ k, (t.core k).regs = (s.core k).regs ∧ (t.core k).mem = (s.core k).mem)
      ∧ (∀ k ∈ (s.job job).placement, (s.core k).ms.handler = none →
        runBegun (t.core k) job (s.job job).runIdx ((s.core k).tm.p + 1 + s.shortOf k a.start))
      ∧ (∀ k, k ∉ (s.job job).placement → t.core k = s.core k) ∧ t.hbm = s.hbm ∧ t.clk = s.clk ∧ t.cfg = s.cfg := by
  obtain ⟨r, -, he⟩ := s.startRun_eq job a
  intro t
  obtain ⟨u, hu, ht⟩ : ∃ u, (s.withRun job a.set r).startCores job (s.job job).runIdx a.start (s.job job).placement = u
      ∧ t.still = u.still := ⟨_, rfl, (congrArg State.still he).trans (State.thermalStart_keeps ..).2⟩
  have hkept : ∀ k, u.startKept k = s.startKept k := fun k =>
    hu ▸ State.startCores_startKept (s.withRun job a.set r) job (s.job job).runIdx a.start (s.job job).placement k
  refine ⟨fun k => ?_, fun k hk hh => ?_, fun k hk => ?_, (congrArg Still.hbm ht).trans (congrArg StartKept.hbm (hkept 0)),
    (congrArg Still.clk ht).trans (congrArg StartKept.clk (hkept 0)), (congrArg Still.cfg ht).trans (congrArg StartKept.cfg (hkept 0))⟩
  · rw [State.core_of_still ht]
    exact ⟨congrArg StartKept.regs (hkept k), congrArg StartKept.mem (hkept k)⟩
  · have hstart := State.startCores_startsOn (s.withRun job a.set r) job (s.job job).runIdx a.start hk
    rw [hu] at hstart
    have h := hstart ((State.gated_of_startKept (hkept k)).trans hg) ((congrArg StartKept.handler (hkept k)).trans hh)
    rw [State.shortOf_of_startKept (hkept k), show (u.core k).tm = (s.core k).tm from congrArg StartKept.tm (hkept k)] at h
    rw [State.core_of_still ht]
    exact h
  · rw [State.core_of_still ht, ← hu]
    exact State.startCores_ne (s.withRun job a.set r) job (s.job job).runIdx a.start hk

theorem State.startRun_started (s : State) (job : Nat) (a : StartArgs) (hg : s.gated = false) :
    runStarted s (s.startRun job a) job a.start a.set a.deadline := by
  have hplan := s.startRun_plan job a
  obtain ⟨hdata, hbegun, hother, hhbm, hclk, hcfg⟩ := s.startRun_cores job a hg
  have hlive : ((s.startRun job a).job job).live.map Run.plan
      = (s.job job).live.map Run.plan ++ [((s.job job).runIdx, a.start, a.set, a.deadline)] := congrArg JobPlan.live hplan
  refine ⟨congrArg JobPlan.runIdx hplan, congrArg JobPlan.state hplan, ?_, ?_, fun k hk hh => ?_, hother, hhbm, hclk, hcfg⟩
  · simpa using congrArg List.length hlive
  · obtain ⟨r, hr, hp⟩ : ∃ r ∈ ((s.startRun job a).job job).live, r.plan = ((s.job job).runIdx, a.start, a.set, a.deadline) :=
      List.mem_map.1 (hlive.symm ▸ List.mem_append_right _ (List.mem_singleton_self _))
    simp only [Run.plan, Prod.mk.injEq] at hp
    exact ⟨r, hr, hp⟩
  · obtain ⟨hblock, hbegin, hrun, hccyc, hctx⟩ := hbegun k hk hh
    obtain ⟨hregs, hmem⟩ := hdata k
    exact ⟨hblock, hbegin, hrun, hccyc, hctx, hregs, hmem⟩

/-- A start after a change of the job that leaves its runs, their number and its cores. -/
theorem runStarted_setJob {s t : State} {job start set deadline : Nat} {x : Job} (hidx : x.runIdx = (s.job job).runIdx)
    (hlive : x.live = (s.job job).live) (hplace : x.placement = (s.job job).placement)
    (h : runStarted (s.setJob job x) t job start set deadline) : runStarted s t job start set deadline := by
  unfold runStarted at h ⊢
  dsimp only at h ⊢
  rw [State.job_setJob, hidx, hlive, hplace] at h
  exact h

/-- The end of a command after a start. -/
theorem runStarted_finish {s t : State} {job start set deadline : Nat} (id : Nat) (st : Status) (d : Nat)
    (h : runStarted s t job start set deadline) : runStarted s (t.finish id st d) job start set deadline := by
  obtain ⟨⟨hhbm, hcores, hclk, hcfg, -⟩, hjobs⟩ := t.finish_alone id st d
  unfold runStarted State.job State.core at h ⊢
  rw [hhbm, hcores, hclk, hcfg, hjobs]
  exact h

/-! ### FRAME_TICK and START_AT_TBT -/

/-- The tick instants of R372, divided with care for the size of what is multiplied. -/
theorem tickAt_eq {num : Nat} (e k den : Nat) (h : 0 < num) : tickAt e k num den = e + k * den * 4000000000 / num := by
  have hk : k * den * 4000000000 = k % num * den * 4000000000 + num * (k / num * den * 4000000000) := by
    calc k * den * 4000000000 = (k % num + num * (k / num)) * den * 4000000000 := by rw [Nat.mod_add_div]
      _ = _ := by ring
  rw [hk, Nat.add_mul_div_left _ _ h, tickAt]
  omega

theorem Job.forbids_iff (j : Job) :
    j.forbids = true ↔ (∃ r ∈ j.live, r.toBegin ≠ [] ∨ r.toEnd ≠ []) ∨ 2 ≤ j.live.length := by
  simp [Job.forbids]

/-- The job after a tick that starts a run. -/
def Job.ticked (j : Job) (p : Periodic) : Job :=
  { j with per := some { p with tick := p.tick + 1, stopped := p.limit ≠ 0 && p.limit ≤ j.runIdx + 1 } }

/-- A record for a ring touches the host interface alone. -/
theorem State.addRecord_host (s : State) (ring : Nat) (x : CRec) : ∃ h, s.addRecord ring x = { s with host := h } := by
  unfold State.addRecord
  dsimp only
  split
  all_goals exact ⟨_, rfl⟩

theorem State.logUnit_logs {s : State} {source unit island cls job run s0 s1 : Nat} {stop : Bool} {r : State × Nat}
    (h : s.logUnit source unit island cls stop job run s0 s1 = r) : r.1.jobs = s.jobs ∧ r.1.fl.seq = s.fl.seq + 1
      ∧ (∃ f, tget none r.1.fl.log s.fl.head = some f ∧ f.cls = cls) ∧ r.1.still = s.still := by
  unfold State.logUnit at h
  obtain ⟨-, hlog⟩ := State.logRec_log h
  subst h
  obtain ⟨hjobs, -, hseq⟩ := State.logRec_books s _
  exact ⟨hjobs, hseq, ⟨_, hlog, rfl⟩, State.logRec_still ..⟩

/-- A missed tick is logged, and its record waits; no run starts (R490). -/
theorem State.missTick_logs {s t : State} {job t0 : Nat} {p : Periodic} (ht : s.missTick job p t0 = t) :
    (t.job job).runIdx = (s.job job).runIdx ∧ (t.job job).live = (s.job job).live
      ∧ (∃ p', (t.job job).per = some p' ∧ p'.tick = p.tick + 1) ∧ t.cores = s.cores ∧ t.hbm = s.hbm
      ∧ t.fl.seq = s.fl.seq + 1 ∧ ∃ f, tget none t.fl.log s.fl.head = some f ∧ f.cls = 0x0B := by
  unfold State.missTick at ht
  extract_lets j at ht
  generalize hr : s.logUnit 3 0 140 0x0B false job j.runIdx 3 t0 = r at ht
  obtain ⟨hjobs, hseq, hlog, hstill⟩ := State.logUnit_logs hr
  have hjob : r.1.job job = s.job job := by rw [State.job, hjobs]; rfl
  have hidx : (r.1.job job).runIdx = (s.job job).runIdx := by rw [hjob]
  have hlive : (r.1.job job).live = (s.job job).live := by rw [hjob]
  obtain ⟨h, hu⟩ := r.1.addRecord_host j.ring
    { tag := p.tag, status := .etimeout, delayed := false, cls := p.cls, dvalid := false, runrec := true
      detail := BitVec.ofNat 32 r.2, start := BitVec.ofNat 64 t0, info := 0, notify := true }
  dsimp only at ht
  rw [hu] at ht
  rw [← ht, State.job_setJob]
  exact ⟨hidx, hlive, ⟨_, rfl, rfl⟩, congrArg Still.cores hstill, congrArg Still.hbm hstill, hseq,
    hlog⟩

/-- What a tick that is due names for the run that it starts (R373). -/
def State.tickArgs (s : State) (job : Nat) (p : Periodic) : StartArgs :=
  let j := s.job job
  let at0 := p.epoch + p.tick * p.den * 4000000000 / p.num
  ⟨at0, j.runIdx % p.nsets, p.deadline, (s.setJob job (j.ticked p)).stopDelay at0, j.ring, p.tag, p.cls⟩

section
variable {s : State} {job : Nat} {p : Periodic} (hf : fit (.frameTick job) s = true) (hper : (s.job job).per = some p)
  (hnum : 0 < p.num) (hstop : p.stopped = false) (hst : (s.job job).state = 4)
  (hdue : s.reached job (p.epoch + p.tick * p.den * 4000000000 / p.num) = true)
include hf hper hnum hstop hst hdue

/-- A tick that is due starts the next run, or is missed (R372, R490). -/
theorem frameTick_due : exec (.frameTick job) s = .next (if (s.job job).forbids then s.missTick job p (s.tickArgs job p).start
    else (s.setJob job ((s.job job).ticked p)).startRun job (s.tickArgs job p)) := by
  have he : exec (.frameTick job) s = execFrameTick job s := rfl
  unfold execFrameTick at he
  dsimp only at he
  rw [hper] at he
  dsimp only at he
  rw [tickAt_eq _ _ _ hnum, if_neg (by simp [hdue, hstop, hst, gated_of_fit hf, jRUNNING])] at he
  exact exec_next (wf_of_fit hf) he

theorem frameTick_starts (hb : (s.job job).forbids = false) :
    ∃ t, exec (.frameTick job) s = .next t
      ∧ runStarted s t job (p.epoch + p.tick * p.den * 4000000000 / p.num) ((s.job job).runIdx % p.nsets) p.deadline
      ∧ ∃ p', (t.job job).per = some p' ∧ p'.tick = p.tick + 1 := by
  have he := frameTick_due hf hper hnum hstop hst hdue
  rw [hb, if_neg Bool.false_ne_true] at he
  have hs := State.startRun_started (s.setJob job ((s.job job).ticked p)) job (s.tickArgs job p) (gated_of_fit hf)
  have hp := congrArg JobPlan.per (State.startRun_plan (s.setJob job ((s.job job).ticked p)) job (s.tickArgs job p))
  exact ⟨_, he, runStarted_setJob (x := (s.job job).ticked p) rfl rfl rfl hs, _,
    hp.trans (congrArg Job.per (State.job_setJob ..)), rfl⟩

theorem frameTick_misses (hb : (s.job job).forbids = true) :
    ∃ t, exec (.frameTick job) s = .next t ∧ (t.job job).runIdx = (s.job job).runIdx ∧ (t.job job).live = (s.job job).live
      ∧ (∃ p', (t.job job).per = some p' ∧ p'.tick = p.tick + 1) ∧ t.cores = s.cores ∧ t.hbm = s.hbm
      ∧ t.fl.seq = s.fl.seq + 1 ∧ ∃ f, tget none t.fl.log s.fl.head = some f ∧ f.cls = 0x0B := by
  have he := frameTick_due hf hper hnum hstop hst hdue
  rw [hb, if_pos rfl] at he
  exact ⟨_, he, State.missTick_logs rfl⟩

end

/-- START_AT_TBT of the first pending start, which is due, starts its run and ends its command (R443). -/
theorem startAtTbt_due {s : State} {job : Nat} {x : PendStart} {rest : List PendStart} (hf : fit (.startAtTbt job) s = true)
    (hx : (s.job job).starts = x :: rest) (hdue : s.reached job x.tbt = true) (hb : (s.job job).forbids = false) :
    ∃ a : StartArgs, a.start = x.tbt ∧ a.set = x.set ∧ a.deadline = x.deadline ∧ exec (.startAtTbt job) s
      = .next (((s.setJob job { s.job job with starts := rest }).startRun job a).finish x.cmd .ok 0) := by
  have he : exec (.startAtTbt job) s = execStartAtTbt job s := rfl
  have hpick : s.dueStart job = some (x, rest) := by rw [State.dueStart, hx, pick_head (p := fun y : PendStart => s.reached job y.tbt) hdue]
  unfold execStartAtTbt at he
  dsimp only at he
  rw [hpick] at he
  dsimp only at he
  rw [gated_of_fit hf, if_neg Bool.false_ne_true, hb, if_neg Bool.false_ne_true] at he
  exact ⟨⟨_, _, _, _, _, _, _⟩, rfl, rfl, rfl, exec_next (wf_of_fit hf) he⟩

/-- A command that has ended executes no more. -/
theorem State.finish_gone (s : State) (id : Nat) (st : Status) (d : Nat) : ∀ y ∈ (s.finish id st d).host.exec, y.id ≠ id := by
  cases h : s.cmd id with
  | none =>
    have hnone := List.find?_eq_none.1 h
    simp only [State.finish, h]
    exact fun y hy => by simpa using hnone y hy
  | some c => exact State.cmd_id h ▸ (State.finish_completed h st d).1

theorem startAtTbt_starts {s : State} {job : Nat} {x : PendStart} {rest : List PendStart} (hf : fit (.startAtTbt job) s = true)
    (hx : (s.job job).starts = x :: rest) (hdue : s.reached job x.tbt = true) (hb : (s.job job).forbids = false) :
    ∃ t, exec (.startAtTbt job) s = .next t ∧ runStarted s t job x.tbt x.set x.deadline ∧ (t.job job).starts = rest
      ∧ ∀ c ∈ t.host.exec, c.id ≠ x.cmd := by
  obtain ⟨a, hstart, hset, hdead, he⟩ := startAtTbt_due hf hx hdue hb
  have hs := State.startRun_started (s.setJob job { s.job job with starts := rest }) job a (gated_of_fit hf)
  have hp := congrArg JobPlan.starts (State.startRun_plan (s.setJob job { s.job job with starts := rest }) job a)
  refine ⟨_, he, ?_, ?_, State.finish_gone _ _ _ _⟩
  · rw [← hstart, ← hset, ← hdead]
    exact runStarted_finish _ _ _ (runStarted_setJob (s := s) (x := { s.job job with starts := rest }) rfl rfl rfl hs)
  · rw [State.job, (State.finish_alone ..).2]
    exact hp.trans (congrArg Job.starts (State.job_setJob ..))

theorem runsStartWhenTheirTimeComes : RunsStartWhenTheirTimeComes := by
  intro s job k p x rest j at0 busy htrip hclk
  have hforbid : ∀ {b : Bool}, (busy ↔ b = true) → j.forbids = b := fun h => by
    have := j.forbids_iff.trans h
    exact Bool.eq_iff_iff.2 this
  have hfree : ¬ busy → j.forbids = false := fun h => hforbid (by simpa using h)
  have hbusy : busy → j.forbids = true := j.forbids_iff.2
  refine ⟨fun hf hper htick hnum hstop hst hdue => ⟨fun hb => ?_, fun hb => ?_⟩, fun hf hx hdue hb => ?_⟩
  · rw [← htick]
    exact frameTick_starts hf hper hnum hstop hst hdue (hfree hb)
  · rw [← htick]
    exact frameTick_misses hf hper hnum hstop hst hdue (hbusy hb)
  · exact startAtTbt_starts hf hx hdue (hfree hb)

end Sys2Proof.Machine
end

section
/-!
SUPPORT. A run retires with its record (O22; 09 R277; 14 R437; 15 R457).
-/

namespace Sys2Proof.Machine

open Sys2Proof Sys2Proof.Safety Sys2Proof.Claims

/-! ### Records -/

/-- Only the host interface has changed, and no record that waited has gone. -/
def recordsKept (s t : State) : Prop := (∃ h, t = { s with host := h }) ∧ ∀ n, ∀ y ∈ (s.ring n).waiting, y ∈ (t.ring n).waiting

theorem recordsKept.refl (s : State) : recordsKept s s := ⟨⟨s.host, rfl⟩, fun _ _ h => h⟩

theorem recordsKept.trans {s t u : State} (h : recordsKept s t) (h' : recordsKept t u) : recordsKept s u := by
  obtain ⟨⟨_, rfl⟩, hw⟩ := h
  obtain ⟨⟨x, rfl⟩, hw'⟩ := h'
  exact ⟨⟨x, rfl⟩, fun n y hy => hw' n y (hw n y hy)⟩

/-- A change of the host interface that leaves its rings. -/
theorem recordsKept_rings (s : State) {h : HostIf} (hr : h.rings = s.host.rings) : recordsKept s { s with host := h } :=
  ⟨⟨h, rfl⟩, fun n y hy => by rwa [State.ring, hr]⟩

/-- A record that joins those of its ring. -/
theorem recordsKept_push (s : State) (n : Nat) (x : CRec) :
    recordsKept s (s.setRing n { s.ring n with waiting := (s.ring n).waiting ++ [x] }) := by
  refine ⟨⟨_, rfl⟩, fun m y hy => ?_⟩
  by_cases hm : m = n
  · rw [hm, State.ring_setRing]
    exact List.mem_append_left _ (hm ▸ hy)
  · rw [State.ring_setRing_ne _ _ hm]
    exact hy

theorem State.addRecord_recordsKept (s : State) (n : Nat) (x : CRec) : recordsKept s (s.addRecord n x) := by
  unfold State.addRecord
  dsimp only
  split
  · exact recordsKept_rings s rfl
  · exact recordsKept_push s n x

theorem State.finish_recordsKept (s : State) (id : Nat) (st : Status) (d : Nat) : recordsKept s (s.finish id st d) := by
  unfold State.finish
  split
  · exact .refl s
  · refine (recordsKept_rings s rfl).trans ?_
    unfold State.cmdRecord
    dsimp only
    split
    · exact .refl _
    · exact State.addRecord_recordsKept ..

theorem State.settleDevice_recordsKept (s : State) : recordsKept s s.settleDevice := by
  unfold State.settleDevice
  dsimp only
  split
  · exact recordsKept_rings s rfl
  · split
    · exact recordsKept_rings s rfl
    · split
      · split
        · exact (recordsKept_rings s rfl).trans (State.finish_recordsKept ..)
        · exact recordsKept_rings s rfl
      · exact .refl s

/-- A run record waits for its ring if that is enabled and not full (R432). -/
theorem State.runRecord_waits (s : State) (r : Run) (st : Status) (d : Nat) (dig : Option Nat) (hen : (s.ring r.ring).en = true)
    (hfull : (s.ring r.ring).full = false) :
    ∃ y ∈ ((s.runRecord r st d dig).ring r.ring).waiting, y.runrec = true ∧ y.tag = r.tag ∧ y.status = st
      ∧ y.start = BitVec.ofNat 64 r.start ∧ y.detail = BitVec.ofNat 32 d := by
  unfold State.runRecord State.addRecord
  dsimp only
  rw [if_neg (by simp [hen, hfull]), State.ring_setRing]
  exact ⟨_, List.mem_append_right _ (List.mem_singleton_self _), rfl, rfl, rfl, rfl, rfl⟩

/-! ### Run contexts -/

/-- The core whose context of the run is free. -/
def Core.freeRun (c : Core) (job run : Nat) : Core :=
  match c.ctxOf job run with
  | some n => c.setRctx n RunCtx.free
  | none => c

theorem Core.freeRun_keeps (c : Core) (job run : Nat) :
    (c.freeRun job run).regs = c.regs ∧ (c.freeRun job run).mem = c.mem ∧ (c.freeRun job run).tl = c.tl := by
  unfold Core.freeRun
  split
  all_goals exact ⟨rfl, rfl, rfl⟩

/-- Context 0 is free where it held the run, and as it was where it did not. -/
theorem Core.freeRun_c0 (c : Core) (job run : Nat) : (c.freeRun job run).rn.c0
    = if c.rn.c0.used = true ∧ c.rn.c0.job = job ∧ c.rn.c0.run = run then RunCtx.free else c.rn.c0 := by
  unfold Core.freeRun Core.ctxOf
  by_cases h : c.rn.c0.used = true ∧ c.rn.c0.job = job ∧ c.rn.c0.run = run
  · rw [if_pos h, if_pos (by simpa [and_assoc] using h)]
    rfl
  · rw [if_neg h, if_neg (by simpa [and_assoc] using h)]
    cases hc : c.rn.c1.used && c.rn.c1.job = job && c.rn.c1.run = run
    all_goals rfl

theorem State.freeCtx_eq (s : State) (job run : Nat) :
    s.freeCtx job run = (s.job job).placement.foldl (fun t i => t.modCore i (·.freeRun job run)) s := rfl

/-- The cores of the job free their contexts of the run; nothing else changes. -/
theorem State.freeCtx_cores (s : State) (job run : Nat) : ∃ c, s.freeCtx job run = { s with cores := c } := by
  rw [s.freeCtx_eq]
  refine List.foldlRecOn (motive := fun t : State => ∃ c, t = { s with cores := c }) (s.job job).placement _ ⟨s.cores, rfl⟩ ?_
  rintro t ⟨c, rfl⟩ i -
  exact ⟨_, rfl⟩

theorem State.core_modCore (s : State) (i k : Nat) (f : Core → Core) :
    (s.modCore i f).core k = if k = i then f (s.core i) else s.core k := by
  by_cases h : k = i
  · rw [if_pos h, h]
    exact State.core_setCore ..
  · rw [if_neg h]
    exact State.core_setCore_ne _ _ h

/-- Registers, memory and tallies of core `k`. -/
def State.dataOf (s : State) (k : Nat) : Regs × SMap Byte × Tallies := ((s.core k).regs, (s.core k).mem, (s.core k).tl)

theorem State.freeRun_dataOf (s : State) (job run i k : Nat) : (s.modCore i (·.freeRun job run)).dataOf k = s.dataOf k := by
  unfold State.dataOf
  rw [s.core_modCore]
  split
  · next h =>
    obtain ⟨hregs, hmem, htl⟩ := (s.core i).freeRun_keeps job run
    rw [hregs, hmem, htl, h]
  · rfl

theorem State.freeCtx_dataOf (s : State) (job run k : Nat) : (s.freeCtx job run).dataOf k = s.dataOf k :=
  foldl_keeps (State.dataOf · k) _ (fun t i => t.freeRun_dataOf job run i k) (s.job job).placement s

/-- Context 0 of the core is in use and holds the run. -/
def Core.holds0 (c : Core) (job run : Nat) : Prop := c.rn.c0.used = true ∧ c.rn.c0.job = job ∧ c.rn.c0.run = run

theorem Core.freeRun_not_holds0 (c : Core) (job run : Nat) : ¬ (c.freeRun job run).holds0 job run := by
  unfold Core.holds0
  rw [c.freeRun_c0]
  split
  · exact fun h => Bool.false_ne_true h.1
  · assumption

theorem Core.freeRun_c0_or (c : Core) (job run : Nat) : (c.freeRun job run).rn.c0 = RunCtx.free ∨ (c.freeRun job run).rn.c0 = c.rn.c0 := by
  rw [c.freeRun_c0]
  exact ite_eq_or_eq ..

/-- A core of the job whose context 0 holds the run has it free. -/
theorem State.freeCtx_c0 {s : State} {job run k : Nat} (hk : k ∈ (s.job job).placement) (h : (s.core k).holds0 job run) :
    ((s.freeCtx job run).core k).rn.c0.used = false := by
  have hfree : ¬ ((s.freeCtx job run).core k).holds0 job run := by
    rw [s.freeCtx_eq]
    refine foldl_establishes (P := fun t : State => ¬ (t.core k).holds0 job run) hk (fun t => ?_) (fun t i ht => ?_) s
    · rw [t.core_modCore, if_pos rfl]
      exact (t.core k).freeRun_not_holds0 job run
    · rw [t.core_modCore]
      split
      · exact (t.core i).freeRun_not_holds0 job run
      · exact ht
  have hold : ((s.freeCtx job run).core k).rn.c0 = RunCtx.free ∨ ((s.freeCtx job run).core k).rn.c0 = (s.core k).rn.c0 := by
    rw [s.freeCtx_eq]
    refine List.foldlRecOn (motive := fun t : State => (t.core k).rn.c0 = RunCtx.free ∨ (t.core k).rn.c0 = (s.core k).rn.c0)
      (s.job job).placement _ (.inr rfl) fun t ht i _ => ?_
    rw [t.core_modCore]
    split
    · next hi =>
      rw [hi] at ht ⊢
      rcases (t.core i).freeRun_c0_or job run with h0 | h0
      · exact .inl h0
      · rwa [h0]
    · exact ht
  rcases hold with h0 | h0
  · exact congrArg RunCtx.used h0
  · unfold Core.holds0 at hfree h
    rw [h0] at hfree
    exact absurd h hfree

/-! ### RUN_RETIRE -/

/-- What a job has done. -/
def Job.history (j : Job) : List Run × W64 × W64 := (j.live, j.runs, j.lastEnd)

/-- A job with nothing left to do ends, with its commands; its runs, its counts and what waits at rings stand. -/
theorem State.settleJob_keeps (s : State) (job : Nat) :
    let t := s.settleJob job
    (t.job job).history = (s.job job).history ∧ t.cores = s.cores ∧ t.hbm = s.hbm ∧ t.queues = s.queues ∧ t.clk = s.clk
      ∧ ∀ n, ∀ y ∈ (s.ring n).waiting, y ∈ (t.ring n).waiting := by
  unfold State.settleJob
  extract_lets j idle u t
  unfold t
  split
  · exact ⟨rfl, rfl, rfl, rfl, rfl, fun _ _ h => h⟩
  · have hfin : recordsKept u (j.stopCmd.foldl (fun t id => t.finish id .ok 0) u) :=
      List.foldlRecOn (motive := recordsKept u) j.stopCmd _ (.refl u) fun v hv id _ => hv.trans (v.finish_recordsKept ..)
    obtain ⟨⟨h, hh⟩, hwait⟩ := hfin.trans (State.settleDevice_recordsKept _)
    have hist : (u.job job).history = j.history := (congrArg Job.history (State.job_setJob s job _)).trans rfl
    rw [hh] at hwait ⊢
    exact ⟨hist, rfl, rfl, rfl, rfl, hwait⟩

theorem State.newDigest_mss (s : State) (job : Nat) (r : Run) (st : Status) : ∃ m, (s.newDigest job r st).1 = { s with mss := m } := by
  unfold State.newDigest
  dsimp only
  split
  all_goals exact ⟨_, rfl⟩

/-- The state in which the run's record waits and its contexts are free. -/
def State.afterRun (s : State) (job : Nat) (r : Run) : State :=
  let x := s.newDigest job r r.status.1
  (x.1.runRecord r r.status.1 r.detail x.2).freeCtx job r.idx

/-- The job without a run that has retired at `tbt`. -/
def Job.without (j : Job) (r : Run) (tbt : W64) : Job :=
  { j with
    live := j.live.filter fun x => x.idx ≠ r.idx
    runs := j.runs + 1, lastStretch := BitVec.ofNat 64 r.stretches, lastEnd := tbt }

theorem runRetire_retires {s : State} {job run : Nat} {r : Run} (hf : fit (.runRetire job run) s = true)
    (hr : (s.job job).live.find? (fun y => y.idx = run) = some r) (hc : s.canRetire job r = true) :
    exec (.runRetire job run) s = .next (((s.afterRun job r).setJob job
      (((s.afterRun job r).job job).without r (s.afterRun job r).clk.tbt)).settleJob job) := by
  have hid : r.idx = run := by simpa using List.find?_some hr
  subst hid
  have he : exec (.runRetire job r.idx) s = execRunRetire job r.idx s := rfl
  unfold execRunRetire at he
  dsimp only at he
  rw [hr] at he
  dsimp only at he
  rw [hc, if_neg (by decide)] at he
  exact exec_next (wf_of_fit hf) he

/-- What the end of a run leaves of the part, and does to its cores. -/
theorem State.afterRun_ends (s : State) (job : Nat) (r : Run) :
    let t := s.afterRun job r
    t.jobs = s.jobs ∧ t.hbm = s.hbm ∧ t.queues = s.queues ∧ t.clk = s.clk
      ∧ ((s.ring r.ring).en = true → (s.ring r.ring).full = false →
        ∃ y ∈ (t.ring r.ring).waiting, y.runrec = true ∧ y.tag = r.tag ∧ y.status = r.status.1
          ∧ y.start = BitVec.ofNat 64 r.start ∧ y.detail = BitVec.ofNat 32 r.detail)
      ∧ (∀ k ∈ (s.job job).placement, (s.core k).holds0 job r.idx → (t.core k).rn.c0.used = false)
      ∧ ∀ k, t.dataOf k = s.dataOf k := by
  unfold State.afterRun
  obtain ⟨m, hm⟩ := s.newDigest_mss job r r.status.1
  generalize s.newDigest job r r.status.1 = x at hm
  obtain ⟨h, hh⟩ : ∃ h, x.1.runRecord r r.status.1 r.detail x.2 = { x.1 with host := h } := x.1.addRecord_host ..
  have hwait := x.1.runRecord_waits r r.status.1 r.detail x.2
  dsimp only
  generalize x.1.runRecord r r.status.1 r.detail x.2 = u at hh hwait
  rw [hm] at hh hwait
  have hcores : ∀ k, u.core k = s.core k := fun k => by rw [hh]; rfl
  have hjob : u.job job = s.job job := by rw [hh]; rfl
  have hused : ∀ k ∈ (s.job job).placement, (s.core k).holds0 job r.idx → ((u.freeCtx job r.idx).core k).rn.c0.used = false :=
    fun k hk hc => State.freeCtx_c0 (hjob ▸ hk) (hcores k ▸ hc)
  have hdata : ∀ k, (u.freeCtx job r.idx).dataOf k = s.dataOf k := fun k => by
    rw [State.freeCtx_dataOf, State.dataOf, hcores]
    rfl
  obtain ⟨c, hc⟩ := u.freeCtx_cores job r.idx
  rw [hc] at hused hdata ⊢
  rw [hh] at hused hdata hwait ⊢
  exact ⟨rfl, rfl, rfl, rfl, hwait, hused, hdata⟩

theorem runsRetireWithTheirRecord : RunsRetireWithTheirRecord := by
  intro s job run r j hf hr hc
  have hid : r.idx = run := by simpa using List.find?_some hr
  have he := runRetire_retires hf hr hc
  obtain ⟨hjobs, hhbm, hqueues, hclk, hrec, hctx, hdata⟩ := s.afterRun_ends job r
  generalize s.afterRun job r = u at *
  have hjob : u.job job = s.job job := by rw [State.job, hjobs]; rfl
  rw [hjob, hclk] at he
  have hset := (u.setJob job ((s.job job).without r s.clk.tbt)).settleJob_keeps job
  dsimp only at hset
  rw [State.job_setJob] at hset
  generalize (u.setJob job ((s.job job).without r s.clk.tbt)).settleJob job = t at he hset
  obtain ⟨hist, hcores, hhbm', hqueues', hclk', hwait⟩ := hset
  simp only [Job.history, Job.without, Prod.mk.injEq, hid] at hist
  obtain ⟨hlive, hruns, hend⟩ := hist
  have hcore : ∀ k, t.core k = u.core k := fun k => by
    rw [State.core, hcores]
    rfl
  refine ⟨t, he, hlive, hruns, hend, fun hen hfull => ?_, fun k hk hu hj hrun => ?_, fun k => ?_, hhbm'.trans hhbm,
    hqueues'.trans hqueues, hclk'.trans hclk⟩
  · obtain ⟨y, hy, hspec⟩ := hrec hen hfull
    exact ⟨y, hwait _ y hy, hspec⟩
  · rw [hcore]
    exact hctx k hk ⟨hu, hj, hid ▸ hrun⟩
  · rw [hcore]
    simpa only [State.dataOf, Prod.mk.injEq] using hdata k

/-- Settles O22: runs start by their tick or their pending start, and retire with their record. -/
theorem runsStartAndRetire : Obligations.RunsStartAndRetire := ⟨runsStartWhenTheirTimeComes, runsRetireWithTheirRecord⟩

end Sys2Proof.Machine
end

section
/-!
SUPPORT. The answers of placers that reach a core (O18; 11 R313, R315, R322, R326).
-/

namespace Sys2Proof.Machine

open Sys2Proof Sys2Proof.Safety Sys2Proof.Claims

/-! ### QUEUE_ANSWER -/

/-- Taking a message off the planes leaves all that `othersKept` speaks of. -/
theorem othersKept_take (s : State) (id n : Nat) : othersKept s (s.take id) n := ⟨fun _ _ => rfl, rfl, rfl, rfl, rfl, rfl, rfl, rfl⟩

/-- An answer for core `n` leaves the planes and acts on the core in the ccyc to which it comes. -/
theorem queueAnswer_acts {s : State} {n delta req : Nat} {a : QAns} (hf : fit (.queueAnswer n delta req) s = true)
    (hm : s.msg req = some (.qans a)) (hc : a.core = n) :
    ∃ u, exec (.queueAnswer n delta req) s = .next u ∧ othersKept s u n
      ∧ u.core n = settled ((reached s n delta).queueAnswered (s.env n) a) := by
  have hg : (s.take req).gated = false := gated_of_fit hf
  refine ⟨(s.take req).onCore n fun env k => (k.comeTo env delta).queueAnswered env a, exec_next (wf_of_fit hf) ?_,
    othersKept_trans (othersKept_take s req n) (othersKept_onCore n _ hg), (s.take req).onCore_core n _ hg⟩
  rw [exec_queueAnswer, execQueueAnswer, hm]
  simp [hc, gated_of_fit hf]

/-! ### Contexts -/

@[simp] theorem Core.sctx_setSctx (c : Core) (q : Nat) (x : SCtx) : (c.setSctx q x).sctx q = x := tget_tput_self _ _ _ _

theorem Core.sctx_setSctx_ne (c : Core) {j q : Nat} (x : SCtx) (h : j ≠ q) : (c.setSctx q x).sctx j = c.sctx j :=
  tget_tput_ne _ _ _ h

/-- A context that is not CLOSING has no close to send. -/
theorem Core.tryClose_of_state {c : Core} {q : Nat} (env : Env) (h : (c.sctx q).state ≠ 3) : c.tryClose env q = c := by
  simp [Core.tryClose, h]

/-- The context to one of whose members credit has come back. -/
def SCtx.credited (x : SCtx) (a : QAns) : SCtx :=
  { x with members := x.members.map fun (m : SMember) => if m.idx = a.member then { m with credit := m.credit + a.credit } else m }

/-- Returned credit is added to its member's (R322). -/
theorem Core.queueAnswered_credit {c : Core} {a : QAns} (env : Env) (ha : a.op = 5) (hs : (c.sctx a.ctx).state ≠ 0) :
    c.queueAnswered env a = c.setSctx a.ctx ((c.sctx a.ctx).credited a) :=
  (if_pos ha).trans (if_neg hs)

/-- The send that every member has accepted: it is freed and counted. -/
def Core.accepted (c : Core) (a : QAns) : Core :=
  { c with ms := { c.ms with outs := c.ms.outs.filter fun y => !isFor a y, sent := c.ms.sent + 1 } }

/-- The accepting answer of a send's last member, no member having refused, ends the send (R326, R335). -/
theorem Core.queueAnswered_accepts {c : Core} {a : QAns} {o : SendOut} (env : Env) (ho : c.ms.outs.find? (isFor a) = some o)
    (h2 : 2 ≤ o.op) (hs : (c.sctx a.ctx).state ≠ 3) (h5 : a.op ≠ 5) (hok : a.status = .ok) (hl : o.left ≤ 1) (hb : o.bad = false) :
    c.queueAnswered env a = (c.accepted a).finishOut o := by
  have hstate : (((c.accepted a).finishOut o).sctx a.ctx).state ≠ 3 := by
    unfold Core.finishOut
    split
    all_goals exact hs
  have hsend : c.queueAnswered env a = c.sendAnswer env o a := by
    simp [Core.queueAnswered, h5, ho, show o.op ≠ 0 by omega, show o.op ≠ 1 by omega]
  rw [hsend, ← Core.tryClose_of_state env hstate]
  simp [Core.sendAnswer, hok, hb, Nat.not_lt.2 hl]
  rfl

/-- The end of an operation raises its tally, where it asks for that, and leaves the context's engine, registers and memory. -/
theorem Core.finishOut_keeps (c : Core) (o : SendOut) :
    let u := c.finishOut o
    u.ms = c.ms ∧ u.regs = c.regs ∧ u.mem = c.mem
      ∧ u.tl.chg = c.tl.chg ++ (if o.raise then [⟨false, o.tally, .inc, 1, .mse, 0xFFFFFFFF⟩] else []) := by
  unfold Core.finishOut
  split
  · exact ⟨rfl, rfl, rfl, rfl⟩
  · exact ⟨rfl, rfl, rfl, (List.append_nil _).symm⟩

/-- Settles O18: credit comes back to its member; the last acceptance ends its send. -/
theorem queueAnswersReachTheirContext : Obligations.QueueAnswersReachTheirContext := by
  intro s n delta req a i k sc hf hm hc
  obtain ⟨u, he, hothers, hu⟩ := queueAnswer_acts hf hm hc
  refine ⟨fun h5 hst => ⟨u, he, hothers, ?_⟩, fun o ho h2 _ hs h5 hok hl hb => ⟨u, he, hothers, ?_⟩⟩
  · rw [hu, Core.queueAnswered_credit _ h5 hst]
    have hctx := k.sctx_setSctx a.ctx (sc.credited a)
    exact ⟨congrArg SCtx.members hctx, (congrArg SCtx.state hctx :), fun j hj => k.sctx_setSctx_ne _ hj, rfl, rfl, rfl, rfl⟩
  · obtain ⟨hms, hregs, hmem, hchg⟩ := (k.accepted a).finishOut_keeps o
    rw [hu, Core.queueAnswered_accepts _ ho h2 hs h5 hok hl hb]
    exact ⟨congrArg Mse.sent hms, congrArg Mse.outs hms, hregs, hmem, hchg⟩

end Sys2Proof.Machine
end

section
/-!
SUPPORT. What the placers of queues keep, and how they open and close connections (O26; 11 R313 to R316).
-/

namespace Sys2Proof.Machine

open Sys2Proof Sys2Proof.Safety Sys2Proof.Claims

/-! ### What an answer leaves of queues -/

/-- An answer that is not the failure of a total leaves every queue, and the device's number. -/
theorem State.answerTo_queues {r : Reply} {st : Status} (h : st = .ok ∨ ∀ q, r ≠ .total q) (s : State) (a b c : Nat) (d : List Byte)
    (p : Bool) : (s.answerTo r st a b c d p).queues = s.queues ∧ (s.answerTo r st a b c d p).fab.devId = s.fab.devId := by
  unfold State.answerTo State.sendEntry State.sendOn
  cases r
  case core =>
    dsimp only
    split
    · exact ⟨rfl, rfl⟩
    · split
      all_goals exact ⟨rfl, rfl⟩
  case total q =>
    obtain rfl : st = .ok := h.resolve_right fun hne => hne q rfl
    exact ⟨rfl, rfl⟩
  case fabric =>
    dsimp only
    split
    · split
      · exact ⟨rfl, rfl⟩
      · split
        all_goals exact ⟨rfl, rfl⟩
    · split
      · exact ⟨rfl, rfl⟩
      · split
        all_goals exact ⟨rfl, rfl⟩
  all_goals exact ⟨rfl, rfl⟩

/-- The answer to a total that fails counts a drop at its queue (R338). -/
theorem State.answerTo_failed_total {st : Status} (h : st ≠ .ok) (s : State) (q a b c : Nat) (d : List Byte) (p : Bool) :
    s.answerTo (.total q) st a b c d p = s.setQueue q { s.queue q with drops := satAdd (s.queue q).drops 1 } := if_neg h

/-- Two states that agree on the device's number and on every queue, but for its count of dropped records. -/
def sameQueues (s t : State) : Prop := t.fab.devId = s.fab.devId ∧ ∀ y, ∃ d, t.queue y = { s.queue y with drops := d }

theorem sameQueues.refl (s : State) : sameQueues s s := ⟨rfl, fun _ => ⟨_, rfl⟩⟩

theorem State.drop_sameQueues (s : State) (q : Nat) (d : W32) : sameQueues s (s.setQueue q { s.queue q with drops := d }) := by
  refine ⟨rfl, fun y => ?_⟩
  by_cases h : y = q
  · subst h
    exact ⟨d, s.queue_setQueue y _⟩
  · exact ⟨_, s.queue_setQueue_ne _ h⟩

/-- No answer touches more of the queues than a count of dropped records. -/
theorem State.answerTo_sameQueues (s : State) (r : Reply) (st : Status) (a b c : Nat) (d : List Byte) (p : Bool) :
    sameQueues s (s.answerTo r st a b c d p) := by
  by_cases h : st = .ok ∨ ∀ q, r ≠ .total q
  · obtain ⟨hq, hdev⟩ := State.answerTo_queues h s a b c d p
    exact ⟨hdev, fun y => ⟨(s.queue y).drops, congrArg (tget Queue.zero · y) hq⟩⟩
  · obtain ⟨hst, q, rfl⟩ : st ≠ .ok ∧ ∃ q, r = .total q := by simpa using h
    rw [State.answerTo_failed_total hst]
    exact s.drop_sameQueues q _

theorem State.answer_sameQueues (s : State) (r : Reply) (st : Status) (a b c : Nat) (d : List Byte) (p : Bool) :
    sameQueues s (s.answer r st a b c d p) := by
  unfold State.answer
  split
  · split
    · exact .refl s
    · dsimp only
      split
      · exact ⟨rfl, fun _ => ⟨_, rfl⟩⟩
      · split
        all_goals exact State.answerTo_sameQueues ..
  · exact s.answerTo_sameQueues ..

/-- The answer to `r` is no part of the answer to a request that was cut at a granule (08 R227). -/
def Reply.whole (r : Reply) : Prop := ∀ id off, r ≠ .part id off

theorem State.answer_whole {r : Reply} (h : r.whole) (s : State) (st : Status) (a b c : Nat) (d : List Byte) (p : Bool) :
    s.answer r st a b c d p = s.answerTo r st a b c d p := by
  cases r
  case part id off => exact absurd rfl (h id off)
  all_goals rfl

/-- A good answer to a whole request leaves every queue. -/
theorem State.answer_ok_queues {r : Reply} (h : r.whole) (s : State) (a b c : Nat) (d : List Byte) (p : Bool) :
    (s.answer r .ok a b c d p).queues = s.queues := by
  rw [State.answer_whole h]
  exact (State.answerTo_queues (.inl rfl) s a b c d p).1

/-! ### What a placer leaves -/

/-- A step that leaves the cores, the clocks, the host interface and the configuration keeps what a placer keeps. -/
theorem placerKept_of_still {s t : State} (h : t.still = s.still) : placerKept s t :=
  ⟨fun k => by rw [State.core_of_still h]; exact ⟨rfl, rfl⟩, congrArg Still.clk h, congrArg Still.host h, congrArg Still.cfg h⟩

theorem queueAnswer_names (core ctx member op seq : Nat) (st : Status) (data : List Byte) :
    let a := queueAnswer core ctx member op seq st data
    a.core = core ∧ a.ctx = ctx ∧ a.status = st := by
  unfold queueAnswer
  split
  all_goals exact ⟨rfl, rfl, rfl⟩

/-- The answer to an operation of a core's context is the one message that is put. -/
theorem State.answer_queue (s : State) (core ctx member op seq : Nat) (st : Status) (data : List Byte) :
    let a := queueAnswer core ctx member op seq st data
    (s.answer (.queue core ctx member op seq) st 0 0 0 data false).msg s.nextId = some (.qans a)
      ∧ a.core = core ∧ a.ctx = ctx ∧ a.status = st :=
  ⟨(s.put_msgs _).1, queueAnswer_names ..⟩

/-! ### PLACER_OPEN_REQUEST -/

/-- The request is connected: the connection stands, and the reader core's engine has a reader context for the queue. -/
def State.connected (s : State) (r : QReq) (cls : Nat) : State :=
  let q := s.queue r.qid
  let s := s.setQueue r.qid { q with conns := q.conns ++ [⟨r.dev, r.core, r.ctx, r.member, cls⟩] }
  if q.group || q.kind ≠ 0 || (s.core q.reader).ms.readers.contains r.qid then s
  else s.modCore q.reader fun (c : Core) => { c with ms := { c.ms with readers := c.ms.readers ++ [r.qid] } }

/-- A reader context changes no register and no memory, and a connection only its queue. -/
theorem State.connected_keeps (s : State) (r : QReq) (cls : Nat) :
    let q := s.queue r.qid
    let t := s.connected r cls
    placerKept s t ∧ t.hbm = s.hbm ∧ t.nextId = s.nextId
      ∧ t.queue r.qid = { q with conns := q.conns ++ [⟨r.dev, r.core, r.ctx, r.member, cls⟩] }
      ∧ ∀ y, y ≠ r.qid → t.queue y = s.queue y := by
  unfold State.connected
  dsimp only
  split
  · exact ⟨⟨fun _ => ⟨rfl, rfl⟩, rfl, rfl, rfl⟩, rfl, rfl, s.queue_setQueue .., fun _ hy => s.queue_setQueue_ne _ hy⟩
  · refine ⟨⟨fun k => ?_, rfl, rfl, rfl⟩, rfl, rfl, s.queue_setQueue .., fun _ hy => s.queue_setQueue_ne _ hy⟩
    by_cases hk : k = (s.queue r.qid).reader
    · rw [State.modCore, hk, State.core_setCore]
      exact ⟨rfl, rfl⟩
    · rw [State.modCore, State.core_setCore_ne _ _ hk]
      exact ⟨rfl, rfl⟩

section
variable {s : State} {req cls : Nat} {r : QReq} (hw : (Instr.placerOpenRequest req).wf = true) (hr : s.queueReq req = some r)
  (hop : r.op = .opn cls) (hd : s.forDie r = false)
include hw hr hop hd

theorem placerOpenRequest_opens (h : s.openCause (s.queue r.qid) r (openClass (s.queue r.qid) r cls) = none)
    (hm : s.memberCause (s.queue r.qid) r (openClass (s.queue r.qid) r cls) = none) :
    exec (.placerOpenRequest req) s = .next (((s.take req).connected r (openClass (s.queue r.qid) r cls)).answer r.reply .ok 0 0 0
      (openData (s.queue r.qid) (openClass (s.queue r.qid) r cls)) false) := by
  have hd' : (s.take req).forDie r = false := hd
  have hc : ((s.take req).openCause ((s.take req).queue r.qid) r (openClass ((s.take req).queue r.qid) r cls)).orElse
      (fun _ => (s.take req).memberCause ((s.take req).queue r.qid) r (openClass ((s.take req).queue r.qid) r cls)) = none := by
    change (s.openCause (s.queue r.qid) r (openClass (s.queue r.qid) r cls)).orElse
      (fun _ => s.memberCause (s.queue r.qid) r (openClass (s.queue r.qid) r cls)) = none
    rw [h, hm]
    rfl
  refine exec_next hw ?_
  rw [exec_placerOpenRequest, execPlacerOpenRequest]
  simp only [hr, hop, hd', hc, Bool.false_eq_true, if_false]
  rfl

theorem placerOpenRequest_refuses {st : Status} (h : s.openCause (s.queue r.qid) r (openClass (s.queue r.qid) r cls) = some st) :
    exec (.placerOpenRequest req) s = .next ((s.take req).refuse r.qid r.reply st) := by
  have hd' : (s.take req).forDie r = false := hd
  have hc : (s.take req).openCause ((s.take req).queue r.qid) r (openClass ((s.take req).queue r.qid) r cls) = some st := h
  refine exec_next hw ?_
  rw [exec_placerOpenRequest, execPlacerOpenRequest]
  simp only [hr, hop, hd', hc, Option.orElse_some, Bool.false_eq_true, if_false]

end

/-- R314 admits an open of this device. -/
theorem State.openCause_admits {s : State} {q : Queue} {r : QReq} {cls : Nat} (ho : q.state = 1)
    (hj : (s.job q.job).state ≠ 2 ∨ r.core = 0xFF) (hdev : r.dev = s.fab.devId) (hk : cls < 2 ↔ q.kind ≠ 1)
    (hn : q.conns.length < q.maxconn) (hf : s.readerFree q r.qid = true)
    (hc : cls = 0 → q.scred ≠ 0 ∧ q.reserved + q.scred + 64 ≤ 2 ^ q.rlog / 2) : s.openCause q r cls = none := by
  have hjob : ¬ ((s.job q.job).state = jLOADED ∧ r.core ≠ 0xFF) := fun ⟨h2, hn⟩ => hj.elim (· h2) hn
  have hcred : ¬ (cls = 0 ∧ (q.scred = 0 ∨ 2 ^ q.rlog / 2 < q.reserved + q.scred + 64)) := fun ⟨h0, h⟩ => by
    obtain ⟨h1, h2⟩ := hc h0
    omega
  have hclass : (decide (cls < 2) != decide (q.kind ≠ 1)) = false := by simp [hk]
  unfold State.openCause
  dsimp only
  rw [if_neg (by simpa [ho] using hjob), if_neg (by simp [hdev]), hclass, if_neg (by simp),
    if_neg (by simpa [hf] using hn), if_neg (by simpa using hcred)]

/-- A queue that is not OPEN is GONE for its peers (R314). -/
theorem State.openCause_gone (s : State) {q : Queue} (r : QReq) (cls : Nat) (h : q.state ≠ 1) :
    s.openCause q r cls = some .epeerGone :=
  if_pos (by simp [h])

/-- A credit of four bytes, as the answer to an open carries it. -/
theorem queueAnswer_credit (core ctx member op seq : Nat) (st : Status) (n : Nat) :
    let a := queueAnswer core ctx member op seq st (leBytes n 4)
    a.credit = n % 2 ^ 32 ∧ a.mcast = none := by
  have hl : (leBytes n 4).length = 4 := leBytes_length n 4
  unfold queueAnswer
  rw [if_neg (by omega)]
  refine ⟨?_, rfl⟩
  simp [leAt, leBytes, leVal]
  omega

/-! ### PLACER_CLOSE -/

/-- A record of a connection that has ended keeps no credit. -/
def PRec.unheld (x : PRec) (r : QReq) : PRec :=
  match x.conn with
  | some c => if c.isOf r then { x with conn := none } else x
  | none => x

theorem PRec.unheld_conn (x : PRec) (r : QReq) : ∀ y, (x.unheld r).conn = some y → y.isOf r = false := by
  intro y hy
  unfold PRec.unheld at hy
  split at hy
  · next c hc =>
    split at hy
    · simp at hy
    · next hne =>
      obtain rfl : c = y := Option.some.inj (hc.symm.trans hy)
      simpa using hne
  · next hc => simp [hc] at hy

/-- The queue from which a connection has gone. -/
def Queue.disconnected (q : Queue) (r : QReq) : Queue :=
  { q with conns := q.conns.filter fun c => !c.isOf r, recs := q.recs.map fun x => x.unheld r }

theorem placerClose_closes {s : State} {req : Nat} {r : QReq} (hw : (Instr.placerClose req).wf = true) (hr : s.queueReq req = some r)
    (hop : r.op = .close) (hd : s.forDie r = false) :
    exec (.placerClose req) s = .next (((s.take req).setQueue r.qid ((s.queue r.qid).disconnected r)).answer r.reply .ok 0 0 0
      (leBytes 0 4) false) := by
  have hd' : (s.take req).forDie r = false := hd
  refine exec_next hw ?_
  rw [exec_placerClose, execPlacerClose]
  simp only [hr, hop, hd', Bool.false_eq_true, if_false]
  rfl

/-- An open of a core of this device that R314 admits is connected; one of a queue that is not OPEN is refused; a close
disconnects: the first half of O26 holds. -/
theorem placersOpenAndClose : PlacersOpenAndClose := by
  intro s req cls core ctx member op seq r qid q c others hr hreply hd
  refine ⟨fun hop hw => ⟨fun ho hj hdev hk hn hf hc hm => ?_, fun ho => ?_⟩, fun hop hw => ?_⟩
  · have he := placerOpenRequest_opens hw hr hop hd (State.openCause_admits ho hj hdev hk hn hf hc) hm
    rw [hreply] at he
    obtain ⟨hkept, hhbm, hid, hq, hne⟩ := (s.take req).connected_keeps r c
    obtain ⟨hmsg, hcore, hctx, hst⟩ := ((s.take req).connected r c).answer_queue core ctx member op seq .ok (openData q c)
    rw [hid] at hmsg
    refine ⟨_, _, he, ⟨hkept, hhbm, hne⟩, hq, hmsg, hcore, hctx, hst, fun hplain => ?_⟩
    have hdata : openData q c = leBytes (if c = 0 then q.scred else 0) 4 := if_neg (by omega)
    rw [hdata]
    exact queueAnswer_credit ..
  · have he := placerOpenRequest_refuses hw hr hop hd (s.openCause_gone r _ ho)
    rw [State.refuse, hreply] at he
    obtain ⟨hmsg, hcore, hctx, hst⟩ := ((s.take req).setQueue qid { q with refused := satAdd q.refused 1 }).answer_queue core ctx
      member op seq .epeerGone []
    have hq : ((s.take req).setQueue qid { q with refused := satAdd q.refused 1 }).queue qid = { q with refused := satAdd q.refused 1 } :=
      State.queue_setQueue ..
    exact ⟨_, _, he, ⟨⟨fun _ => ⟨rfl, rfl⟩, rfl, rfl, rfl⟩, rfl, fun _ hy => State.queue_setQueue_ne _ _ hy⟩,
      (congrArg Queue.conns hq :), (congrArg (·.refused.toNat) hq :).trans (satAdd_one_toNat _), hmsg, hcore, hctx, hst⟩
  · have he := placerClose_closes hw hr hop hd
    rw [hreply] at he
    obtain ⟨hmsg, hcore, hctx, hst⟩ := ((s.take req).setQueue qid (q.disconnected r)).answer_queue core ctx member op seq .ok
      (leBytes 0 4)
    have hq : ((s.take req).setQueue qid (q.disconnected r)).queue qid = q.disconnected r := State.queue_setQueue ..
    refine ⟨_, _, he, ⟨⟨fun _ => ⟨rfl, rfl⟩, rfl, rfl, rfl⟩, rfl, fun _ hy => State.queue_setQueue_ne _ _ hy⟩,
      (congrArg Queue.conns hq :), fun x hx => ?_, (congrArg Queue.tail hq :), (congrArg Queue.head hq :), hmsg, hcore, hctx, hst⟩
    obtain ⟨x', -, rfl⟩ := List.mem_map.1 ((congrArg Queue.recs hq :) ▸ hx)
    exact x'.unheld_conn r

end Sys2Proof.Machine
end

section
/-!
SUPPORT. How the placers of queues place records, refuse and drop them, and assign them, and the refutation of O26
(11 R317 to R324, R333).
-/

namespace Sys2Proof.Machine

open Sys2Proof Sys2Proof.Safety Sys2Proof.Claims

/-! ### Records -/

theorem recBytes_eq (n : Nat) : recBytes n = 16 * ((8 + 8 * n + 15) / 16) := rfl

theorem length_flatMap_leBytes (words : List W64) : (words.flatMap fun w => leBytes w.toNat 8).length = 8 * words.length := by
  induction words with
  | nil => rfl
  | cons w ws ih => rw [List.flatMap_cons, List.length_append, ih, leBytes_length, List.length_cons]; omega

/-- A record is as long as its size says (R318). -/
theorem recData_length (hdr : W64) (words : List W64) : (recData hdr words).length = recBytes words.length := by
  have hsize := recBytes_eq words.length
  simp only [recData, List.length_append, List.length_replicate, length_flatMap_leBytes, leBytes_length]
  omega

theorem phaseAt_iff (tail log : Nat) : phaseAt tail log = true ↔ tail / 2 ^ log % 2 = 0 := by
  rw [phaseAt, bitAt, Nat.testBit_eq_decide_div_mod_eq]
  simp

/-- The fields of a header (R319). -/
theorem recHdr_toNat (type : Nat) (phase poison : Bool) (nw dev core : Nat) (sat partl : Bool) (seq : Nat) :
    (recHdr type phase poison nw dev core sat partl seq).toNat
      = type % 4 + (if phase then 4 else 0) + (if poison then 8 else 0) + 16 * (nw % 16) + 2 ^ 8 * (dev % 2 ^ 12)
        + 2 ^ 20 * (core % 2 ^ 8) + (if sat then 2 ^ 28 else 0) + (if partl then 2 ^ 29 else 0) + 2 ^ 32 * (seq % 2 ^ 32) := by
  have hif : ∀ (b : Bool) (m : Nat), (if b then m else 0) = m * b2n b := by
    intro b m
    cases b
    all_goals simp [b2n]
  have hle : ∀ b : Bool, b2n b ≤ 1 := by decide
  have h0 := hle phase
  have h1 := hle poison
  have h2 := hle sat
  have h3 := hle partl
  simp only [recHdr, hif, fld, Nat.shiftLeft_eq, BitVec.toNat_ofNat]
  omega

/-- A write of a ring in HBM reads as its bytes (R318). -/
theorem Hbm.put_recData (h : Hbm) (at0 : Nat) (hdr : W64) (words : List W64) (p : Bool) :
    readBytes (h.put at0 (recData hdr words) p).mem at0 (recBytes words.length) = recData hdr words
      ∧ ∀ a, a < at0 ∨ at0 + recBytes words.length ≤ a → tget 0 (h.put at0 (recData hdr words) p).mem a = tget 0 h.mem a := by
  rw [← recData_length hdr words]
  exact h.write_bytes ..

/-! ### PLACER_SEND -/

/-- PLACER_SEND takes the record `n`, which comes first of its cycle, of connection `c` to a PLAIN queue that is OPEN. -/
structure TakesRecord (s : State) (req : Nat) (r : QReq) (c : Conn) (n : NewRec) : Prop where
  wf     : (Instr.placerSend req).wf = true
  turn   : s.queueReq req = some r
  die    : s.forDie r = false
  first  : s.firstOfCycle r = true
  record : r.record = some n
  conn   : (s.queue r.qid).conn r = some c
  opened : (s.queue r.qid).state = 1
  plain  : (s.queue r.qid).kind = 0

/-! ### A record is placed -/

/-- A record that ends within its ring needs no pad (R320). -/
theorem padBytes_zero {tail log n : Nat} (h : tail % 2 ^ log + n ≤ 2 ^ log) : padBytes tail log n = 0 := if_pos h

/-- The header of a record that is placed at the tail. -/
def Queue.nextHdr (q : Queue) (n : NewRec) : W64 := n.hdr (phaseAt q.tail q.rlog)

/-- A record as its queue lists it when it has been placed at the tail. -/
def Queue.placed (q : Queue) (no : Nat) (n : NewRec) (conn : Conn) : PRec :=
  ⟨no, q.rbase + q.tail % 2 ^ q.rlog, n.size, q.nextHdr n, n.words, false, if q.group then none else some q.reader, some conn, false,
    q.hbm, false⟩

/-- The queue that has the record at its tail. -/
def Queue.taking (q : Queue) (no : Nat) (n : NewRec) (conn : Conn) : Queue :=
  { q with tail := q.tail + n.size, recs := q.recs ++ [q.placed no n conn] }

/-- The record is listed; its bytes are still to go. -/
def State.listed (s : State) (qid : Nat) (n : NewRec) (conn : Conn) : State :=
  { s.setQueue qid ((s.queue qid).taking (s.recNo + 1) n conn) with recNo := s.recNo + 2 }

theorem State.placeMain_unpadded {s : State} {qid : Nat} {n : NewRec} (conn : Conn) (r : Reply)
    (h : (s.queue qid).tail % 2 ^ (s.queue qid).rlog + n.size ≤ 2 ^ (s.queue qid).rlog) :
    let q := s.queue qid
    s.placeMain qid n (some conn) r = (s.listed qid n conn).ringWrite qid q.hbm q.reader q.rbase (q.tail % 2 ^ q.rlog)
      (recData (q.nextHdr n) n.words) n.poison ⟨n.dev, n.core, n.dev ≠ s.fab.devId⟩ r := by
  unfold State.placeMain
  simp only [padBytes_zero h, if_true, Nat.add_zero]
  rfl

/-- A listed record has been placed once its bytes are in the ring, or on their way there (R318). -/
theorem placedAt_of_listed {s t : State} {qid : Nat} {n : NewRec} {conn : Conn} {d : W32}
    (hq : t.queue qid = { (s.queue qid).taking (s.recNo + 1) n conn with drops := d }) (hno : t.recNo = s.recNo + 2)
    (hhbm : (s.queue qid).hbm = true → t.hbm = s.hbm.put ((s.queue qid).rbase + (s.queue qid).tail % 2 ^ (s.queue qid).rlog)
      (recData ((s.queue qid).nextHdr n) n.words) n.poison)
    (hline : (s.queue qid).hbm = false → t.hbm = s.hbm ∧ ∃ p, t.msg s.nextId = some (.line (s.queue qid).reader p)
      ∧ p.addr = (s.queue qid).rbase + (s.queue qid).tail % 2 ^ (s.queue qid).rlog
      ∧ p.data = recData ((s.queue qid).nextHdr n) n.words ∧ p.kind = .record qid ∧ p.poison = n.poison) : placedAt s t qid n := by
  have hhdr : ((s.queue qid).nextHdr n).toNat = _ := recHdr_toNat ..
  simp only [phaseAt_iff] at hhdr
  refine ⟨(s.queue qid).placed (s.recNo + 1) n conn, congrArg Queue.recs hq, congrArg Queue.tail hq, (congrArg Queue.head hq :), rfl,
    rfl, rfl, rfl, rfl, hno, hhdr, fun hh => ?_, hline⟩
  rw [hhbm hh]
  exact Hbm.put_recData ..

/-- A record that needs no pad is placed. -/
theorem State.placeMain_places {s : State} {qid : Nat} {n : NewRec} (conn : Conn) (r : Reply)
    (h : (s.queue qid).tail % 2 ^ (s.queue qid).rlog + n.size ≤ 2 ^ (s.queue qid).rlog) :
    placerKept s (s.placeMain qid n (some conn) r) ∧ placedAt s (s.placeMain qid n (some conn) r) qid n := by
  rw [State.placeMain_unpadded conn r h]
  have hq : (s.listed qid n conn).queue qid = (s.queue qid).taking (s.recNo + 1) n conn := s.queue_setQueue qid _
  unfold State.ringWrite
  cases hh : (s.queue qid).hbm
  · rw [if_neg Bool.false_ne_true]
    exact ⟨⟨fun _ => ⟨rfl, rfl⟩, rfl, rfl, rfl⟩, placedAt_of_listed hq rfl
      (fun hf => absurd (hh.symm.trans hf) Bool.false_ne_true)
      fun _ => ⟨rfl, _, ((s.listed qid n conn).put_msgs _).1, rfl, rfl, rfl, rfl⟩⟩
  · rw [if_pos rfl]
    generalize hu : ({ s.listed qid n conn with
      hbm := (s.listed qid n conn).hbm.put ((s.queue qid).rbase + (s.queue qid).tail % 2 ^ (s.queue qid).rlog)
        (recData ((s.queue qid).nextHdr n) n.words) n.poison } : State) = u
    have hstill := u.answer_still r .ok 0 0 0 [] false
    obtain ⟨d, hd⟩ := (u.answer_sameQueues r .ok 0 0 0 [] false).2 qid
    generalize u.answer r .ok 0 0 0 [] false = t at hstill hd ⊢
    obtain ⟨hcores, hclk, hhost, hcfg⟩ := placerKept_of_still hstill
    subst hu
    exact ⟨⟨hcores, hclk, hhost, hcfg⟩, placedAt_of_listed (hd.trans (congrArg (fun q : Queue => { q with drops := d }) hq))
      (congrArg Still.recNo hstill) (fun _ => congrArg Still.hbm hstill) fun hf => absurd (hh.symm.trans hf) (by decide)⟩

/-- What a placer that changes its queue to `q` and answers leaves: a bad answer, or one to a part, may count a drop. -/
theorem State.changed_answered (s : State) (req qid : Nat) (q : Queue) (r : Reply) (st : Status) :
    let t := ((s.take req).setQueue qid q).answer r st 0 0 0 [] false
    placerKept s t ∧ t.hbm = s.hbm ∧ (∃ d, t.queue qid = { q with drops := d }) ∧ (st = .ok → r.whole → t.queue qid = q) := by
  intro t
  have hq : ((s.take req).setQueue qid q).queue qid = q := State.queue_setQueue ..
  have hstill : t.still = s.still := ((s.take req).setQueue qid q).answer_still r st 0 0 0 [] false
  obtain ⟨d, hd⟩ := (((s.take req).setQueue qid q).answer_sameQueues r st 0 0 0 [] false).2 qid
  refine ⟨placerKept_of_still hstill, congrArg Still.hbm hstill, ⟨d, by rwa [hq] at hd⟩, ?_⟩
  rintro rfl hwhole
  exact (congrArg (tget Queue.zero · qid) (State.answer_ok_queues hwhole _ 0 0 0 [] false)).trans hq

/-! ### What PLACER_SEND does with its record -/

section
variable {s : State} {req : Nat} {r : QReq} {c : Conn} {n : NewRec} (h : TakesRecord s req r c n)
  (hend : (s.queue r.qid).tail % 2 ^ (s.queue r.qid).rlog + n.size ≤ 2 ^ (s.queue r.qid).rlog)
include h

theorem exec_placerSend_elastic (hc : c.cls ≠ 0) :
    exec (.placerSend req) s = .next ((s.take req).placeElastic r.qid n c r.reply) := by
  refine exec_next h.wf ?_
  rw [exec_placerSend, execPlacerSend]
  simp [h.turn, h.record, h.die, h.first, h.conn, h.opened, h.plain, hc]

include hend

/-- A scheduled record within its credit, for which the ring has room, is placed (R322). -/
theorem placerSend_places_scheduled (hc : c.cls = 0) (hcred : (s.queue r.qid).spent c + n.size ≤ (s.queue r.qid).scred)
    (hroom : n.size ≤ 2 ^ (s.queue r.qid).rlog - ((s.queue r.qid).tail - (s.queue r.qid).head)) :
    ∃ t, exec (.placerSend req) s = .next t ∧ placerKept s t ∧ placedAt s t r.qid n := by
  refine ⟨(s.take req).placeMain r.qid n (some c) r.reply, exec_next h.wf ?_, (s.take req).placeMain_places c r.reply hend⟩
  rw [exec_placerSend, execPlacerSend]
  simp [h.turn, h.record, h.die, h.first, h.conn, h.opened, h.plain, hc, padBytes_zero hend, Nat.not_lt.2 hcred, Nat.not_lt.2 hroom]

/-- An elastic record, for which the ring has room and before which no spilled record waits, is placed (R324). -/
theorem placerSend_places_elastic (hc : c.cls ≠ 0)
    (hroom : n.size + (s.queue r.qid).unused ≤ 2 ^ (s.queue r.qid).rlog - ((s.queue r.qid).tail - (s.queue r.qid).head))
    (hspill : (s.queue r.qid).shead = (s.queue r.qid).stail) :
    ∃ t, exec (.placerSend req) s = .next t ∧ placerKept s t ∧ placedAt s t r.qid n := by
  refine ⟨_, exec_placerSend_elastic h hc, ?_⟩
  have hplace : (s.take req).placeElastic r.qid n c r.reply = (s.take req).placeMain r.qid n (some c) r.reply := by
    simp [State.placeElastic, padBytes_zero hend, hroom, hspill]
  rw [hplace]
  exact (s.take req).placeMain_places c r.reply hend

/-- Without room, policy REFUSE refuses an elastic record, and counts that (R324). -/
theorem placerSend_refuses (hc : c.cls ≠ 0)
    (hfull : 2 ^ (s.queue r.qid).rlog - ((s.queue r.qid).tail - (s.queue r.qid).head) < n.size + (s.queue r.qid).unused)
    (hpol : (s.queue r.qid).policy = 0) :
    ∃ t, exec (.placerSend req) s = .next t ∧ placerKept s t ∧ t.hbm = s.hbm ∧ (t.queue r.qid).recs = (s.queue r.qid).recs
      ∧ (t.queue r.qid).tail = (s.queue r.qid).tail
      ∧ (t.queue r.qid).refused.toNat = min ((s.queue r.qid).refused.toNat + 1) 0xFFFFFFFF := by
  have hrefuse : (s.take req).placeElastic r.qid n c r.reply = ((s.take req).setQueue r.qid
      { s.queue r.qid with refused := satAdd (s.queue r.qid).refused 1 }).answer r.reply .erefused 0 0 0 [] false := by
    simp [State.placeElastic, State.refuse, padBytes_zero hend, Nat.not_le.2 hfull, hpol]
  obtain ⟨hkept, hhbm, ⟨d, hd⟩, -⟩ := s.changed_answered req r.qid
    { s.queue r.qid with refused := satAdd (s.queue r.qid).refused 1 } r.reply .erefused
  exact ⟨_, (exec_placerSend_elastic h hc).trans (congrArg _ hrefuse), hkept, hhbm, (congrArg Queue.recs hd :),
    (congrArg Queue.tail hd :), (congrArg (·.refused.toNat) hd :).trans (satAdd_one_toNat _)⟩

/-- Without room, policy DROP drops an elastic record, and counts that (R324). -/
theorem placerSend_drops (hc : c.cls ≠ 0)
    (hfull : 2 ^ (s.queue r.qid).rlog - ((s.queue r.qid).tail - (s.queue r.qid).head) < n.size + (s.queue r.qid).unused)
    (hpol : (s.queue r.qid).policy = 1) (hwhole : r.reply.whole) :
    ∃ t, exec (.placerSend req) s = .next t ∧ placerKept s t ∧ t.hbm = s.hbm ∧ (t.queue r.qid).recs = (s.queue r.qid).recs
      ∧ (t.queue r.qid).tail = (s.queue r.qid).tail
      ∧ (t.queue r.qid).drops.toNat = min ((s.queue r.qid).drops.toNat + 1) 0xFFFFFFFF := by
  have hdrop : (s.take req).placeElastic r.qid n c r.reply = ((s.take req).setQueue r.qid
      { s.queue r.qid with drops := satAdd (s.queue r.qid).drops 1 }).answer r.reply .ok 0 0 0 [] false := by
    simp [State.placeElastic, padBytes_zero hend, Nat.not_le.2 hfull, hpol]
  obtain ⟨hkept, hhbm, -, hq⟩ := s.changed_answered req r.qid
    { s.queue r.qid with drops := satAdd (s.queue r.qid).drops 1 } r.reply .ok
  have hd := hq rfl hwhole
  exact ⟨_, (exec_placerSend_elastic h hc).trans (congrArg _ hdrop), hkept, hhbm, (congrArg Queue.recs hd :),
    (congrArg Queue.tail hd :), (congrArg (·.drops.toNat) hd :).trans (satAdd_one_toNat _)⟩

end

/-! ### GROUP_ASSIGN -/

theorem State.groupCores_eq (s : State) (g : Nat) :
    s.groupCores g = (List.range 128).filter fun m => (tget 0 s.qgrp g).getLsbD m :=
  congrArg (List.filter _) (upFrom_zero 128)

/-- The member to which a record goes: the first idle one without a record (balanced), or the one that its sender and sequence
name (R333). -/
theorem State.assignee_eq {s : State} {q : Queue} {x : PRec} {k : Nat}
    (hbal : q.bal = true → (s.groupCores q.reader).find? (fun m => (s.core m).atDispatch && !s.hasAssigned m) = some k)
    (hname : q.bal = false →
      (s.groupCores q.reader)[(x.hdr.toNat / 2 ^ 20 % 256 + x.hdr.toNat / 2 ^ 32) % (s.groupCores q.reader).length]? = some k) :
    s.assignee q x = some k := by
  unfold State.assignee
  dsimp only
  split
  · next hb => exact hbal hb
  · next hb =>
    have hk := hname (by simpa using hb)
    have hne : ¬ (s.groupCores q.reader).isEmpty = true := by
      intro he
      rw [List.isEmpty_iff.1 he] at hk
      simp at hk
    have hseq : bits x.hdr.toNat 32 32 = x.hdr.toNat / 2 ^ 32 := by
      have hlt := x.hdr.isLt
      rw [bits, Nat.shiftRight_eq_div_pow]
      omega
    have hsender : bits x.hdr.toNat 20 8 = x.hdr.toNat / 2 ^ 20 % 256 := congrArg (· % 256) (Nat.shiftRight_eq_div_pow ..)
    rw [if_neg hne, hseq, hsender]
    exact hk

/-- The first record of a group that no core has goes to its member, and nothing else changes (R333). -/
theorem groupAssign_assigns {s : State} {qid k : Nat} {x : PRec} (hw : (Instr.groupAssign qid).wf = true)
    (hg : (s.queue qid).group = true) (hx : (s.queue qid).recs.find? (fun y => y.core = none && !y.pad && !y.done) = some x) :
    let q := s.queue qid
    let ms := (List.range 128).filter fun m => (tget 0 s.qgrp q.reader).getLsbD m
    (q.bal = true → ms.find? (fun m => (s.core m).atDispatch && !s.hasAssigned m) = some k) →
    (q.bal = false → ms[(x.hdr.toNat / 2 ^ 20 % 256 + x.hdr.toNat / 2 ^ 32) % ms.length]? = some k) →
    ∃ t, exec (.groupAssign qid) s = .next t ∧ { t with queues := s.queues } = s ∧ (∀ y, y ≠ qid → t.queue y = s.queue y)
      ∧ t.queue qid = { q with recs := q.recs.map fun y => if y.no = x.no ∧ y.pad = false then { y with core := some k } else y } := by
  intro q ms hbal hname
  have hms : s.groupCores q.reader = ms := s.groupCores_eq q.reader
  have hk : s.assignee q x = some k := State.assignee_eq (by rwa [hms]) (by rwa [hms])
  refine ⟨s.setQueue qid (q.assign x.no k), exec_next hw ?_, rfl, fun y hy => s.queue_setQueue_ne _ hy, ?_⟩
  · rw [exec_groupAssign, execGroupAssign]
    simp only [hg, Bool.true_and, hx, show s.assignee (s.queue qid) x = some k from hk]
    rfl
  · rw [State.queue_setQueue, Queue.assign]
    simp only [Bool.and_eq_true, decide_eq_true_eq, Bool.not_eq_true']

/-! ### The request whose answer is a part -/

/-- Request 1 of the planes, of context 5 of core 7, is for queue 0, and its answer is a part of the answer to a request that was cut
at a granule. The model cuts only requests to HBM (08 R227), so that no run from reset makes such a request. -/
def partRequest (op : QOp) : QReq := ⟨0, 0, 7, 5, 64, 1, op, .part 0 0, 0⟩

/-- Queue 0 is `q`, with request 1 on its way. The part that it answers is the last; another has failed, and a total of queue 0 waits for
the whole. -/
def partState (q : Queue) (op : QOp) : State := { State.reset with
  queues := [(0, q)], plane := [(1, some (.queue (partRequest op)))], nextId := 2
  joins := [(0, ⟨1, [], false, some (.eslip, 0, 0, 0), .total 0⟩)] }

/-- The connection of the request, elastic as the queue's kind has it. -/
def partConn (kind : Nat) : Conn := ⟨0, 7, 5, 64, if kind = 1 then 3 else 1⟩

/-- A PLAIN queue whose ring of 16 bytes is full, with policy DROP. -/
def fullQueue : Queue := { Queue.zero with state := 1, policy := 1, rlog := 4, tail := 16, conns := [partConn 0] }

def fullState : State := partState fullQueue (.send 0 [] false)

theorem fullState_takes :
    TakesRecord fullState 1 (partRequest (.send 0 [] false)) (partConn 0) ⟨1, [], false, 0, 7, 0, false, false⟩ :=
  ⟨rfl, by decide +kernel, by decide +kernel, by decide +kernel, rfl, by decide +kernel, by decide +kernel, by decide +kernel⟩

/-- The placer counts the record that it drops, and the answer, as the end of a total that has failed, counts a drop once more. -/
theorem fullState_drops_twice : ∃ t, exec (.placerSend 1) fullState = .next t ∧ (t.queue 0).drops.toNat = 2 :=
  ⟨_, rfl, by decide +kernel⟩

/-- Refutes O26: the statement leaves open to whom the answer of a record goes, and a drop is counted twice where it is a part of the
answer to a total that has failed. `placersOpenAndClose`, `placerSend_places_scheduled`, `placerSend_places_elastic`,
`placerSend_refuses` and `groupAssign_assigns` prove every other part of the statement as it stands, and `placerSend_drops` this one for
a record whose answer is no part of another's. -/
theorem not_placersServeTheirQueues : ¬ Obligations.PlacersServeTheirQueues := by
  rintro ⟨-, hplace⟩
  have h := fullState_takes
  obtain ⟨hsend, -⟩ := hplace fullState 1 0 0 (partRequest (.send 0 [] false)) (partConn 0) [] false
    ⟨0, 0, 0, 0, [], false, none, none, false, false, false⟩
  obtain ⟨-, -, -, hdrop⟩ := hsend h.wf h.turn h.die h.first rfl h.conn h.opened h.plain (by decide +kernel)
  obtain ⟨t, he, -, -, -, -, hone⟩ := hdrop (by decide) (by decide +kernel) (by decide +kernel)
  obtain ⟨u, hu, htwo⟩ := fullState_drops_twice
  obtain rfl : t = u := Host.Outcome.next.inj (he.symm.trans hu)
  exact absurd (htwo.symm.trans hone) (by decide +kernel)

end Sys2Proof.Machine
end

section
/-!
SUPPORT. Combining: contributions, totals and their timeout, and the refutation of O27 (11 R335 to R339).
-/

namespace Sys2Proof.Machine

open Sys2Proof Sys2Proof.Safety Sys2Proof.Claims

/-! ### What a combining step keeps, and what a total takes -/

/-- A combining step on a key of a queue leaves the cores, HBM, the jobs, the other hubs and queues, and the entries of other keys. -/
def combKept (s t : State) (qid key : Nat) : Prop :=
  let home := (s.queue qid).home
  t.cores = s.cores ∧ t.hbm = s.hbm ∧ t.jobs = s.jobs ∧ (∀ y, y ≠ home → t.hub y = s.hub y)
    ∧ (∀ y, y ≠ qid → t.queue y = s.queue y)
    ∧ ∀ y : CombEntry, ¬ (y.qid = qid ∧ y.key = key) → (y ∈ (t.hub home).comb ↔ y ∈ (s.hub home).comb)

/-- The entry of a key is gone, and its total has been counted and sent to DQ. -/
def totalSent (s t : State) (qid key : Nat) (sum : Int) (count : Nat) (poison partl : Bool) : Prop :=
  let q := s.queue qid
  (∀ y ∈ (t.hub q.home).comb, ¬ (y.qid = qid ∧ y.key = key)) ∧ (t.hub q.home).combDel = (s.hub q.home).combDel + 1
    ∧ (t.queue qid).totals = q.totals + 1
    ∧ (q.dq / 2 ^ 20 = s.fab.devId → q.exact = false → -2 ^ 63 ≤ sum → sum < 2 ^ 63 →
      ∃ id y w, t.msg id = some (.queue y) ∧ y.handle = q.dq ∧ y.core = 0xFF
        ∧ y.op = .total (q.totals % 2 ^ 32) false partl [BitVec.ofNat 64 key, BitVec.ofInt 64 sum, w, BitVec.ofNat 64 count] poison)

/-! ### A total leaves -/

theorem State.failTotal_keeps (s : State) (q : Nat) (st : Status) (a b c : Nat) :
    let t := s.answer (.total q) st a b c [] false
    t.still = s.still ∧ t.books = s.books ∧ (∀ y, y ≠ q → t.queue y = s.queue y) ∧ (t.queue q).totals = (s.queue q).totals := by
  have hwhole : s.answer (.total q) st a b c [] false = s.answerTo (.total q) st a b c [] false := rfl
  rw [hwhole]
  by_cases h : st = .ok
  · subst h
    exact ⟨rfl, rfl, fun _ _ => rfl, rfl⟩
  · rw [State.answerTo_failed_total h]
    exact ⟨rfl, rfl, fun _ hy => s.queue_setQueue_ne _ hy, (congrArg Queue.totals (s.queue_setQueue q _) :)⟩

/-- A total that goes to DQ touches its own queue at most, and that queue's count of totals not at all. -/
theorem State.sendTotal_keeps (s : State) (env : Env) (handle ctx member cls : Nat) (op : QOp) (q : Nat) :
    let t := s.deliver (toQueue env handle ctx member cls op (.total q))
    t.still = s.still ∧ t.books = s.books ∧ (∀ y, y ≠ q → t.queue y = s.queue y) ∧ (t.queue q).totals = (s.queue q).totals := by
  unfold toQueue
  split
  · exact ⟨rfl, rfl, fun _ _ => rfl, rfl⟩
  · dsimp only [State.deliver]
    unfold State.sendFabric
    split
    · exact s.failTotal_keeps ..
    · dsimp only
      split
      · exact s.failTotal_keeps ..
      · split
        all_goals exact ⟨rfl, rfl, fun _ _ => rfl, rfl⟩

/-- A total to a queue of this device is a request to its placer. -/
theorem State.sendTotal_here (s : State) {env : Env} {handle : Nat} (h : handle / 2 ^ 20 = env.dev) (ctx member cls : Nat) (op : QOp)
    (q : Nat) : (s.deliver (toQueue env handle ctx member cls op (.total q))).msg s.nextId
      = some (.queue ⟨handle, env.dev, env.core, ctx, member, cls, op, .total q, env.tbt.toNat⟩) := by
  rw [toQueue, if_pos h]
  exact (s.put_msgs _).1

/-- A sum of 64 bits needs no saturation (R338). -/
theorem totalWords_plain {e : CombEntry} (hlo : -2 ^ 63 ≤ e.sum) (hhi : e.sum < 2 ^ 63) :
    ∃ w, totalWords false e = (false, BitVec.ofInt 64 e.sum, w) := by
  have hclamp : (if (2 ^ 63 - 1 : Int) < e.sum then 2 ^ 63 - 1 else if e.sum < -(2 ^ 63) then -(2 ^ 63) else e.sum) = e.sum := by
    rw [if_neg (by omega), if_neg (by omega)]
  have hlow : (BitVec.ofInt 128 e.sum).truncate 64 = BitVec.ofInt 64 e.sum := by
    apply BitVec.eq_of_toNat_eq
    simp only [BitVec.truncate_eq_setWidth, BitVec.toNat_setWidth, BitVec.toNat_ofInt]
    omega
  refine ⟨(BitVec.ofInt 128 e.sum >>> 64).truncate 64, ?_⟩
  rw [totalWords, if_neg Bool.false_ne_true]
  simp only [hclamp, hlow]
  simp

/-- The hub that has freed the entry of a key. -/
def Hub.without (h : Hub) (qid key : Nat) (partl : Bool) : Hub :=
  { h with
    comb := h.comb.filter fun x => !(x.qid = qid && x.key = key)
    combDel := h.combDel + 1
    combPar := if partl then satAdd h.combPar 1 else h.combPar }

theorem notKey_iff {y : CombEntry} {qid key : Nat} :
    (!(decide (y.qid = qid) && decide (y.key = key))) = true ↔ ¬ (y.qid = qid ∧ y.key = key) := by
  simp only [Bool.not_eq_true', Bool.and_eq_false_iff, decide_eq_false_iff_not, not_and_or]

theorem Hub.mem_without {h : Hub} {qid key : Nat} {partl : Bool} {y : CombEntry} :
    y ∈ (h.without qid key partl).comb ↔ y ∈ h.comb ∧ ¬ (y.qid = qid ∧ y.key = key) := by
  rw [Hub.without, List.mem_filter, notKey_iff]

/-- An entry has been freed, and its total counted; the total is still to go. -/
def State.entryEnded (s : State) (qid key : Nat) (partl : Bool) : State :=
  let q := s.queue qid
  (s.setHub q.home ((s.hub q.home).without qid key partl)).setQueue qid { q with totals := q.totals + 1 }

theorem State.deliverTotal_eq (s : State) (qid : Nat) (e : CombEntry) (partl : Bool) :
    let q := s.queue qid
    let w := totalWords q.exact e
    s.deliverTotal qid e partl = (s.entryEnded qid e.key partl).deliver
      (toQueue { (s.entryEnded qid e.key partl).env 0 with core := 0xFF } q.dq qid 64 0 (.total (q.totals % 2 ^ 32) w.1 partl
        [BitVec.ofNat 64 e.key, w.2.1, w.2.2, BitVec.ofNat 64 e.count] e.poison) (.total qid)) := rfl

/-- The total of an entry is counted and sent, and the entry is freed; with PARTIAL the hub counts that (R338, R339). -/
theorem State.deliverTotal_ends (s : State) (qid : Nat) (e : CombEntry) (partl : Bool) :
    let t := s.deliverTotal qid e partl
    combKept s t qid e.key ∧ totalSent s t qid e.key e.sum e.count e.poison partl
      ∧ (t.hub (s.queue qid).home).combPar
        = if partl then satAdd (s.hub (s.queue qid).home).combPar 1 else (s.hub (s.queue qid).home).combPar := by
  intro t
  have ht : t = _ := s.deliverTotal_eq qid e partl
  clear_value t
  obtain ⟨hstill, hbooks, hqueues, htotals⟩ := State.sendTotal_keeps (s.entryEnded qid e.key partl)
    { (s.entryEnded qid e.key partl).env 0 with core := 0xFF } (s.queue qid).dq qid 64 0 (.total ((s.queue qid).totals % 2 ^ 32)
      (totalWords (s.queue qid).exact e).1 partl [BitVec.ofNat 64 e.key, (totalWords (s.queue qid).exact e).2.1,
        (totalWords (s.queue qid).exact e).2.2, BitVec.ofNat 64 e.count] e.poison) qid
  rw [← ht] at hstill hbooks hqueues htotals
  have hhubs : ∀ y, t.hub y = (s.entryEnded qid e.key partl).hub y := fun y =>
    congrArg (tget Hub.reset · y) (congrArg Still.hubs hstill :)
  have hhub : t.hub (s.queue qid).home = (s.hub (s.queue qid).home).without qid e.key partl := (hhubs _).trans (s.hub_setHub _ _)
  refine ⟨⟨congrArg Still.cores hstill, congrArg Still.hbm hstill, congrArg Prod.fst hbooks,
    fun y hy => (hhubs y).trans (s.hub_setHub_ne _ hy), fun y hy => (hqueues y hy).trans (State.queue_setQueue_ne _ _ hy),
    fun y hy => ?_⟩, ⟨fun y hy => ?_, ?_, ?_, fun hdq hex hlo hhi => ?_⟩, ?_⟩
  · rw [hhub, Hub.mem_without]
    exact and_iff_left hy
  · rw [hhub] at hy
    exact (Hub.mem_without.1 hy).2
  · rw [hhub]
    rfl
  · exact htotals.trans (congrArg Queue.totals (State.queue_setQueue _ qid _) :)
  · obtain ⟨w, hw⟩ := totalWords_plain hlo hhi
    rw [hex, hw] at ht
    exact ⟨s.nextId, _, w, (congrArg (State.msg · s.nextId) ht).trans (State.sendTotal_here _ hdq qid 64 0 _ qid), rfl, rfl, rfl⟩
  · rw [hhub]
    rfl

/-! ### COMBINING_CONTRIBUTION -/

/-- COMBINING_CONTRIBUTION takes the value `x` for `key` of the COMBINING queue `qid`, which is OPEN, and `e` is the entry that takes it,
the key's own, or a new one, whose time had not passed when it arrived (R337, R339). -/
structure TakesValue (s : State) (req qid key : Nat) (x : W128) (p : Bool) (r : QReq) (e : CombEntry) : Prop where
  wf     : (Instr.combiningContribution req).wf = true
  turn   : s.queueReq req = some r
  here   : r.qid = qid
  op     : ∃ k32 : W32, r.op = .csend k32 false x p ∧ k32.toNat = key
  opened : (s.queue qid).state = 1
  comb   : (s.queue qid).kind = 1
  entry  : ∃ c, (s.queue qid).conn r = some c
    ∧ ((s.hub (s.queue qid).home).comb.find? (fun y => y.qid = qid && y.key = key) = some e
      ∨ (s.hub (s.queue qid).home).comb.find? (fun y => y.qid = qid && y.key = key) = none
        ∧ e = ⟨qid, key, 0, 0, .none, false, s.clk.tbt.toNat, false⟩ ∧ c.cls = 3
        ∧ ((s.hub (s.queue qid).home).comb.filter fun y => !y.resv).length < 65536 - (s.hub (s.queue qid).home).combRes)
  intime : (s.queue qid).ctmo = 0 ∨ r.at0 / 2 ≤ (e.first + 4000 * (s.queue qid).ctmo) / 2

/-- The entry once the value is added (R337). -/
def CombEntry.plus (e : CombEntry) (x : W128) (p : Bool) : CombEntry :=
  { e with sum := e.sum + x.toInt, count := e.count + 1, poison := e.poison || p }

/-- The hub whose entry of the key is `e`. -/
def Hub.holding (h : Hub) (qid key : Nat) (e : CombEntry) : Hub :=
  let rest := h.comb.filter fun y => !(y.qid = qid && y.key = key)
  { h with comb := rest ++ [e], combHwm := max h.combHwm (rest.length + 1) }

/-- The hub holds the value, and the sender has its answer. -/
def State.contributed (s : State) (req qid key : Nat) (r : Reply) (e : CombEntry) : State :=
  ((s.take req).setHub (s.queue qid).home ((s.hub (s.queue qid).home).holding qid key e)).answer r .ok 0 0 0 [] false

section
variable {s : State} {req qid key : Nat} {x : W128} {p : Bool} {r : QReq} {e : CombEntry} (h : TakesValue s req qid key x p r e)
include h

theorem TakesValue.names : e.qid = qid ∧ e.key = key := by
  obtain ⟨c, -, hold | ⟨-, rfl, -, -⟩⟩ := h.entry
  · simpa using List.find?_some hold
  · exact ⟨rfl, rfl⟩

theorem TakesValue.not_expired : (s.take req).expireBefore qid key r.at0 = s.take req := by
  obtain ⟨c, -, hold | ⟨hnone, -⟩⟩ := h.entry
  · unfold State.expireBefore CombEntry.due
    simp only [State.hub_take, State.queue_take, hold]
    by_cases h0 : (s.queue qid).ctmo = 0
    · simp only [h0, if_true]
    · have ht := h.intime.resolve_left h0
      simp only [h0, if_false]
      exact if_neg (by omega)
  · unfold State.expireBefore
    simp only [State.hub_take, State.queue_take, hnone]

theorem exec_combiningContribution_takes : exec (.combiningContribution req) s
    = .next (if (s.queue qid).expect ≤ e.count + 1
      then (s.contributed req qid key r.reply (e.plus x p)).deliverTotal qid (e.plus x p) false
      else s.contributed req qid key r.reply (e.plus x p)) := by
  obtain ⟨k32, hop, hkey⟩ := h.op
  obtain ⟨c, hconn, hentry⟩ := h.entry
  have hexp := h.not_expired
  subst hkey
  refine exec_next h.wf ?_
  rw [exec_combiningContribution, execCombiningContribution]
  have hplus : e.add false x p = e.plus x p := by simp [CombEntry.add, CombEntry.plus]
  have hput : ((s.hub (s.queue qid).home).comb.find? (fun y => y.qid = qid && y.key = k32.toNat)).orElse
      (fun _ => (s.hub (s.queue qid).home).takeEntry (s.queue qid) qid k32.toNat c.cls s.clk.tbt.toNat) = some e := by
    rcases hentry with hold | ⟨hnone, he, hcls, hroom⟩
    · rw [hold]
      rfl
    · rw [hnone, Option.orElse_none, Hub.takeEntry]
      simp [hcls, hroom, he]
  have hclk : (s.take req).clk = s.clk := rfl
  simp only [h.turn, hop, h.here, State.queue_take, hconn, h.opened, h.comb, ne_eq, not_true_eq_false, if_false, hexp, State.hub_take,
    hclk, hput, hplus]
  rfl

end

theorem Hub.mem_holding {h : Hub} {qid key : Nat} {e y : CombEntry} (he : e.qid = qid ∧ e.key = key)
    (hy : ¬ (y.qid = qid ∧ y.key = key)) :
    y ∈ (h.holding qid key e).comb ↔ y ∈ h.comb := by
  have hne : y ≠ e := fun hye => hy (hye ▸ he)
  rw [Hub.holding, List.mem_append, List.mem_singleton, or_iff_left hne, List.mem_filter, notKey_iff]
  exact and_iff_left hy

/-- A contribution whose answer is no part of another's changes the entry of its key, and the planes. -/
theorem State.contributed_keeps (s : State) (req : Nat) {qid key : Nat} {r : Reply} {e : CombEntry} (he : e.qid = qid ∧ e.key = key)
    (hr : r.whole) :
    let u := s.contributed req qid key r e
    combKept s u qid key ∧ u.queue qid = s.queue qid ∧ u.fab.devId = s.fab.devId
      ∧ u.hub (s.queue qid).home = (s.hub (s.queue qid).home).holding qid key e := by
  intro u
  have hu : u = ((s.take req).setHub (s.queue qid).home ((s.hub (s.queue qid).home).holding qid key e)).answer r .ok 0 0 0 [] false := rfl
  clear_value u
  generalize hv : (s.take req).setHub (s.queue qid).home ((s.hub (s.queue qid).home).holding qid key e) = v at hu
  have hstill := v.answer_still r .ok 0 0 0 [] false
  have hbooks := v.answer_books r .ok 0 0 0 [] false
  have hqueues := State.answer_ok_queues hr v 0 0 0 [] false
  obtain ⟨hdev, -⟩ := v.answer_sameQueues r .ok 0 0 0 [] false
  rw [← hu] at hstill hbooks hqueues hdev
  subst hv
  have hhubs : ∀ y, u.hub y = _ := fun y => congrArg (tget Hub.reset · y) (congrArg Still.hubs hstill :)
  have hhub : u.hub (s.queue qid).home = (s.hub (s.queue qid).home).holding qid key e := (hhubs _).trans (s.hub_setHub _ _)
  have hqueue : ∀ y, u.queue y = s.queue y := fun y => congrArg (tget Queue.zero · y) hqueues
  refine ⟨⟨congrArg Still.cores hstill, congrArg Still.hbm hstill, congrArg Prod.fst hbooks,
    fun y hy => (hhubs y).trans (s.hub_setHub_ne _ hy), fun y _ => hqueue y, fun y hy => ?_⟩, hqueue qid, hdev, hhub⟩
  rw [hhub]
  exact Hub.mem_holding he hy

theorem combKept.trans {s u t : State} {qid key : Nat} (h : combKept s u qid key) (hq : u.queue qid = s.queue qid)
    (h' : combKept u t qid key) : combKept s t qid key := by
  obtain ⟨hcores, hhbm, hjobs, hhubs, hqueues, hcomb⟩ := h
  unfold combKept at h'
  rw [hq] at h'
  obtain ⟨hcores', hhbm', hjobs', hhubs', hqueues', hcomb'⟩ := h'
  exact ⟨hcores'.trans hcores, hhbm'.trans hhbm, hjobs'.trans hjobs, fun y hy => (hhubs' y hy).trans (hhubs y hy),
    fun y hy => (hqueues' y hy).trans (hqueues y hy), fun y hy => (hcomb' y hy).trans (hcomb y hy)⟩

/-! ### Contributions and timeouts -/

section
variable {s : State} {req qid key : Nat} {x : W128} {p : Bool} {r : QReq} {e : CombEntry} (h : TakesValue s req qid key x p r e)
  (hr : r.reply.whole)
include h hr

/-- A contribution that does not make EXPECT is added to its key's entry (R337). -/
theorem combiningContribution_adds (hmore : e.count + 1 < (s.queue qid).expect) :
    ∃ t, exec (.combiningContribution req) s = .next t ∧ combKept s t qid key ∧ t.queue qid = s.queue qid
      ∧ { e with sum := e.sum + x.toInt, count := e.count + 1, poison := e.poison || p } ∈ (t.hub (s.queue qid).home).comb := by
  obtain ⟨hkept, hqueue, -, hhub⟩ := s.contributed_keeps req (e := e.plus x p) h.names hr
  refine ⟨_, (exec_combiningContribution_takes h).trans (congrArg _ (if_neg (by omega))), hkept, hqueue, ?_⟩
  rw [hhub]
  exact List.mem_append_right _ (List.mem_singleton_self _)

/-- The contribution that makes EXPECT ends its key's entry, whose total goes to DQ (R338). -/
theorem combiningContribution_ends (hall : (s.queue qid).expect ≤ e.count + 1) :
    ∃ t, exec (.combiningContribution req) s = .next t ∧ combKept s t qid key
      ∧ totalSent s t qid key (e.sum + x.toInt) (e.count + 1) (e.poison || p) false := by
  obtain ⟨-, hkey⟩ := h.names
  obtain ⟨hkept, hqueue, hdev, hhub⟩ := s.contributed_keeps req (e := e.plus x p) h.names hr
  obtain ⟨hkept', hsent, -⟩ := (s.contributed req qid key r.reply (e.plus x p)).deliverTotal_ends qid (e.plus x p) false
  rw [show (e.plus x p).key = key from hkey] at hkept' hsent
  simp only [totalSent, hqueue, hhub, hdev] at hsent
  exact ⟨_, (exec_combiningContribution_takes h).trans (congrArg _ (if_pos hall)), hkept.trans hqueue hkept', hsent⟩

end

/-- An entry that has waited CTMO µs ends with PARTIAL, once no contribution of its hcyc waits (R339). -/
theorem combiningTimeout_ends {s : State} {qid key : Nat} {e : CombEntry} (hw : (Instr.combiningTimeout qid key).wf = true)
    (he : (s.hub (s.queue qid).home).comb.find? (fun y => y.qid = qid && y.key = key) = some e) (h0 : (s.queue qid).ctmo ≠ 0)
    (ht : e.first + 4000 * (s.queue qid).ctmo ≤ s.clk.tbt.toNat)
    (hc : s.contribWaits qid key (e.first + 4000 * (s.queue qid).ctmo) = false) :
    ∃ t, exec (.combiningTimeout qid key) s = .next t ∧ combKept s t qid key ∧ totalSent s t qid key e.sum e.count e.poison true
      ∧ (t.hub (s.queue qid).home).combPar.toNat = min ((s.hub (s.queue qid).home).combPar.toNat + 1) 0xFFFFFFFF := by
  obtain ⟨-, hkey⟩ : e.qid = qid ∧ e.key = key := by simpa using List.find?_some he
  obtain ⟨hkept, hsent, hpar⟩ := s.deliverTotal_ends qid e true
  rw [hkey] at hkept hsent
  refine ⟨s.deliverTotal qid e true, exec_next hw ?_, hkept, hsent, (congrArg BitVec.toNat hpar).trans (satAdd_one_toNat _)⟩
  have hdue : e.due (s.queue qid) = some (e.first + 4000 * (s.queue qid).ctmo) := if_neg h0
  rw [exec_combiningTimeout, execCombiningTimeout]
  simp [he, hdue, hc, Nat.not_lt.2 ht]

/-! ### A contribution whose answer is a part -/

/-- A COMBINING queue that expects five contributions of each key. -/
def fiveQueue : Queue := { Queue.zero with state := 1, kind := 1, expect := 5, conns := [partConn 1] }

def fiveState : State := partState fiveQueue (.csend 0 false 1 false)

/-- The entry of key 0 before its first contribution. -/
def firstEntry : CombEntry := ⟨0, 0, 0, 0, .none, false, 0, false⟩

theorem fiveState_takes : TakesValue fiveState 1 0 0 1 false (partRequest (.csend 0 false 1 false)) firstEntry :=
  ⟨rfl, by decide +kernel, rfl, ⟨0, rfl, rfl⟩, by decide +kernel, by decide +kernel,
    ⟨partConn 1, by decide +kernel, .inr (by decide +kernel)⟩, .inl (by decide +kernel)⟩

/-- The answer, as the end of a total that has failed, counts a drop at the queue. -/
theorem fiveState_drops : ∃ t, exec (.combiningContribution 1) fiveState = .next t ∧ (t.queue 0).drops = 1 :=
  ⟨_, rfl, by decide +kernel⟩

/-- Refutes O27: the statement leaves open to whom the answer of a contribution goes, and a contribution changes its queue where that
answer is a part of the answer to a total that has failed. `combiningContribution_adds` and `combiningContribution_ends` prove the
statement for a contribution whose answer is no part of another's, `combiningTimeout_ends` its words on timeouts as they stand. -/
theorem not_contributionsCombine : ¬ Obligations.ContributionsCombine := by
  intro h
  have hx := fiveState_takes
  obtain ⟨c, hconn, hentry⟩ := hx.entry
  obtain ⟨hadd, -⟩ := h fiveState 1 0 0 (partRequest (.csend 0 false 1 false)) c 0 1 false firstEntry
  obtain ⟨hmore, -⟩ := hadd hx.turn rfl rfl rfl hconn hx.opened hx.comb hx.wf hentry hx.intime
  obtain ⟨t, he, -, hsame, -⟩ := hmore (by decide +kernel)
  obtain ⟨u, hu, hone⟩ := fiveState_drops
  obtain rfl : t = u := Host.Outcome.next.inj (he.symm.trans hu)
  rw [hsame] at hone
  exact absurd hone (by decide +kernel)

end Sys2Proof.Machine
end

section
/-!
SUPPORT. The count of the timebase under the operations of the model (12 R364, R365): each leaves it as it was. A lemma for each operation,
tagged for `simp`; it splits the operation's cases where there are any, and the lemmas on its parts close them.
-/

namespace Sys2Proof.Machine

open Sys2Proof Sys2Proof.Safety Sys2Proof.Claims

section
variable {s : State}

/-! ### Loops and cases -/

@[simp] theorem State.foldl_tbt {β : Type} {f : State → β → State} {l : List β} (hf : ∀ s b, (f s b).clk.tbt = s.clk.tbt) :
    (l.foldl f s).clk.tbt = s.clk.tbt := foldl_keeps (·.clk.tbt) f hf l s

@[simp] theorem State.ite_tbt {c : Prop} [Decidable c] {t : State} :
    (if c then s else t).clk.tbt = if c then s.clk.tbt else t.clk.tbt := apply_ite (·.clk.tbt) c s t

@[simp] theorem State.foldl_put_tbt {β : Type} {l : List β} {m : State → β → Msg} :
    (l.foldl (fun s b => s.put (m s b)) s).clk.tbt = s.clk.tbt := State.foldl_tbt fun _ _ => rfl

@[simp] theorem State.foldl_modHub_tbt {β : Type} {l : List β} {k : State → β → Nat} {f : State → β → Hub → Hub} :
    (l.foldl (fun s b => s.modHub (k s b) (f s b)) s).clk.tbt = s.clk.tbt := State.foldl_tbt fun _ _ => rfl

@[simp] theorem State.foldl_modCore_tbt {β : Type} {l : List β} {k : State → β → Nat} {f : State → β → Core → Core} :
    (l.foldl (fun s b => s.modCore (k s b) (f s b)) s).clk.tbt = s.clk.tbt := State.foldl_tbt fun _ _ => rfl

theorem State.foldl_setIsland_tbt {β : Type} {l : List β} {k : State → β → Nat} {x : State → β → Island} :
    (l.foldl (fun s b => s.setIsland (k s b) (x s b)) s).clk.tbt = s.clk.tbt := State.foldl_tbt fun _ _ => rfl

@[simp] theorem State.setIsland_tbt {i x} : (s.setIsland i x).clk.tbt = s.clk.tbt := rfl

@[simp] theorem State.modCore_tbt {k f} : (s.modCore k f).clk.tbt = s.clk.tbt := rfl

/-! ### Operations of Device -/

@[simp] theorem State.mapPorts_tbt {f} : (s.mapPorts f).clk.tbt = s.clk.tbt := rfl

@[simp] theorem State.draw_tbt : s.draw.clk.tbt = s.clk.tbt := rfl

@[simp] theorem State.alert_tbt {k} : (s.alert k).clk.tbt = s.clk.tbt := rfl

@[simp] theorem State.ledger_tbt {type data} : (s.ledger type data).clk.tbt = s.clk.tbt :=
  congrArg (·.clk.tbt) (s.ledger_still ..)

@[simp] theorem State.ledgerFault_tbt {data} : (s.ledgerFault data).clk.tbt = s.clk.tbt :=
  congrArg (·.clk.tbt) (s.ledgerFault_still ..)

@[simp] theorem State.logRec_tbt {f} : (s.logRec f).1.clk.tbt = s.clk.tbt := congrArg (·.clk.tbt) (s.logRec_still ..)

@[simp] theorem State.logNamed_tbt {k byCore f} : (s.logNamed k byCore f).clk.tbt = s.clk.tbt := by simp [State.logNamed]

@[simp] theorem State.sendOwn_tbt {p dev b} : (s.sendOwn p dev b).clk.tbt = s.clk.tbt := by simp [State.sendOwn]

@[simp] theorem State.sendPartner_tbt {p b} : (s.sendPartner p b).clk.tbt = s.clk.tbt := by simp [State.sendPartner]

@[simp] theorem State.sendCluster_tbt {b} : (s.sendCluster b).clk.tbt = s.clk.tbt := by simp [State.sendCluster]

@[simp] theorem State.sendOn_tbt {dev out x} : (s.sendOn dev out x).clk.tbt = s.clk.tbt :=
  congrArg (·.clk.tbt) (s.sendOn_still ..)

@[simp] theorem State.sendEntry_tbt {out a} : (s.sendEntry out a).clk.tbt = s.clk.tbt :=
  congrArg (·.clk.tbt) (s.sendEntry_still ..)

@[simp] theorem State.answer_tbt {r st cause pc slot data poison} :
    (s.answer r st cause pc slot data poison).clk.tbt = s.clk.tbt :=
  congrArg (·.clk.tbt) (s.answer_still ..)

@[simp] theorem State.sendFabric_tbt {hdr data sched r} : (s.sendFabric hdr data sched r).clk.tbt = s.clk.tbt :=
  congrArg (·.clk.tbt) (s.sendFabric_still ..)

@[simp] theorem State.fenceAnswer_tbt {m} : (s.fenceAnswer m).clk.tbt = s.clk.tbt := by
  unfold State.fenceAnswer
  repeat' split
  all_goals simp

@[simp] theorem State.deliver_tbt {m} : (s.deliver m).clk.tbt = s.clk.tbt := congrArg (·.clk.tbt) (s.deliver_still ..)

@[simp] theorem State.onCore_tbt {k f} : (s.onCore k f).clk.tbt = s.clk.tbt := by
  by_cases hg : s.gated = true
  · rw [s.onCore_gated k f hg]
  · rw [s.onCore_clk k f (by simpa using hg)]

/-! ### Operations of Access -/

@[simp] theorem State.modHub_tbt {i f} : (s.modHub i f).clk.tbt = s.clk.tbt := rfl

@[simp] theorem State.logUnit_tbt {source unit island cls stop job run s0 s1} :
    (s.logUnit source unit island cls stop job run s0 s1).1.clk.tbt = s.clk.tbt :=
  by simp [State.logUnit]

@[simp] theorem State.hbmError_tbt {burst ue} : (s.hbmError burst ue).clk.tbt = s.clk.tbt := by simp [State.hbmError]

@[simp] theorem State.hbmErrors_tbt {ecc k l} : (State.hbmErrors ecc k l s).1.clk.tbt = s.clk.tbt := by
  induction l generalizing s k with
  | nil => rfl
  | cons b l ih => simp [State.hbmErrors, ih]

@[simp] theorem State.touch_tbt {ecc l} : (s.touch ecc l).1.clk.tbt = s.clk.tbt := by simp [State.touch]

/-! ### Operations of Common -/

@[simp] theorem State.issueOn_tbt {x e lead body} : (s.issueOn x e lead body).clk.tbt = s.clk.tbt := by simp [State.issueOn]

/-! ### Operations of Queues -/

@[simp] theorem State.refuse_tbt {qid r st} : (s.refuse qid r st).clk.tbt = s.clk.tbt := by simp [State.refuse]

@[simp] theorem State.ringWrite_tbt {qid hbm reader base off d poison src r} :
    (s.ringWrite qid hbm reader base off d poison src r).clk.tbt = s.clk.tbt :=
  by simp [State.ringWrite]

@[simp] theorem State.placeMain_tbt {qid n conn r} : (s.placeMain qid n conn r).clk.tbt = s.clk.tbt := by simp [State.placeMain]

@[simp] theorem State.placeSpill_tbt {qid n r} : (s.placeSpill qid n r).clk.tbt = s.clk.tbt := by simp [State.placeSpill]

@[simp] theorem State.placeElastic_tbt {qid n conn r} : (s.placeElastic qid n conn r).clk.tbt = s.clk.tbt := by
  simp [State.placeElastic]

@[simp] theorem State.returnCredit_tbt {c n} : (s.returnCredit c n).clk.tbt = s.clk.tbt := by simp [State.returnCredit]

@[simp] theorem State.popFront_tbt {qid} : (s.popFront qid).clk.tbt = s.clk.tbt := rfl

@[simp] theorem State.release_tbt {qid no} : (s.release qid no).clk.tbt = s.clk.tbt := by
  unfold State.release
  dsimp only
  repeat' split
  all_goals simp

@[simp] theorem State.hubConn_tbt {q qid op} : (s.hubConn q qid op).clk.tbt = s.clk.tbt := by simp [State.hubConn]

@[simp] theorem State.queueGone_tbt {qid} : (s.queueGone qid).clk.tbt = s.clk.tbt := by simp [State.queueGone]

@[simp] theorem State.deliverTotal_tbt {qid e partl} : (s.deliverTotal qid e partl).clk.tbt = s.clk.tbt := by
  simp [State.deliverTotal]

@[simp] theorem State.expireBefore_tbt {qid key at0} : (s.expireBefore qid key at0).clk.tbt = s.clk.tbt := by
  unfold State.expireBefore
  dsimp only
  repeat' split
  all_goals simp

/-! ### Operations of Records -/

@[simp] theorem State.addRecord_tbt {ring x} : (s.addRecord ring x).clk.tbt = s.clk.tbt := by simp [State.addRecord]

@[simp] theorem State.cmdRecord_tbt {c st detail} : (s.cmdRecord c st detail).clk.tbt = s.clk.tbt := by simp [State.cmdRecord]

@[simp] theorem State.finish_tbt {id st detail} : (s.finish id st detail).clk.tbt = s.clk.tbt := by
  unfold State.finish
  split <;> simp

@[simp] theorem State.badState_tbt {id} : (s.badState id).clk.tbt = s.clk.tbt := by
  unfold State.badState
  split <;> simp

@[simp] theorem State.badParam_tbt {id k} : (s.badParam id k).clk.tbt = s.clk.tbt := by simp [State.badParam]

@[simp] theorem State.noRecord_tbt {id st} : (s.noRecord id st).clk.tbt = s.clk.tbt := by simp [State.noRecord]

@[simp] theorem State.settleDevice_tbt : s.settleDevice.clk.tbt = s.clk.tbt := by
  unfold State.settleDevice
  split <;> simp

@[simp] theorem State.runRecord_tbt {r st detail digest} : (s.runRecord r st detail digest).clk.tbt = s.clk.tbt := by
  simp [State.runRecord]

/-! ### Operations of Blocks -/

@[simp] theorem State.noteCore_tbt {k} : (s.noteCore k).clk.tbt = s.clk.tbt := by simp [State.noteCore]

@[simp] theorem State.assignAt_tbt {k} : (s.assignAt k).clk.tbt = s.clk.tbt := by
  unfold State.assignAt
  dsimp only
  repeat' split
  all_goals simp

@[simp] theorem State.resumeCore_tbt {k} : (s.resumeCore k).clk.tbt = s.clk.tbt := by simp [State.resumeCore]

/-! ### Operations of Host -/

@[simp] theorem State.touchBuffers_tbt {ecc l} : (s.touchBuffers ecc l).1.clk.tbt = s.clk.tbt := by simp [State.touchBuffers]

@[simp] theorem State.scrWrite_tbt {core a d poison} : (s.scrWrite core a d poison).clk.tbt = s.clk.tbt :=
  State.foldl_tbt fun _ _ => rfl

@[simp] theorem State.writeOut_tbt {device addr d} : (s.writeOut device addr d).clk.tbt = s.clk.tbt := by
  unfold State.writeOut
  dsimp only
  repeat' split
  all_goals simp

@[simp] theorem State.result_tbt {addr d} : (s.result addr d).clk.tbt = s.clk.tbt := by simp [State.result]

@[simp] theorem State.defined_tbt {fields v} : (s.defined fields v).1.clk.tbt = s.clk.tbt := by
  unfold State.defined
  split <;> simp

@[simp] theorem State.dropHostReqs_tbt : s.dropHostReqs.clk.tbt = s.clk.tbt := rfl

@[simp] theorem State.linkDown_tbt : s.linkDown.clk.tbt = s.clk.tbt := rfl

@[simp] theorem State.writeSqTail_tbt {ring v} : (s.writeSqTail ring v).clk.tbt = s.clk.tbt := by simp [State.writeSqTail]

@[simp] theorem State.writeCqHead_tbt {ring v} : (s.writeCqHead ring v).clk.tbt = s.clk.tbt := by simp [State.writeCqHead]

@[simp] theorem State.writeRingCtrl_tbt {ring v} : (s.writeRingCtrl ring v).clk.tbt = s.clk.tbt := by simp [State.writeRingCtrl]

@[simp] theorem State.writeDefer_tbt {ring v} : (s.writeDefer ring v).clk.tbt = s.clk.tbt := rfl

@[simp] theorem State.setHdm_tbt {n x} : (s.setHdm n x).clk.tbt = s.clk.tbt := by cases n <;> rfl

@[simp] theorem State.writeBiasCmd_tbt {v} : (s.writeBiasCmd v).clk.tbt = s.clk.tbt := by simp [State.writeBiasCmd]

@[simp] theorem State.hostReq_tbt {hpa dpa r} : (s.hostReq hpa dpa r).clk.tbt = s.clk.tbt := State.foldl_tbt fun _ _ => rfl

@[simp] theorem State.writeBar2Sel_tbt {v} : (s.writeBar2Sel v).clk.tbt = s.clk.tbt := by simp [State.writeBar2Sel]

/-! ### Operations of Thermal -/

@[simp] theorem State.thermalRun_tbt {job run x} : (s.thermalRun job run x).clk.tbt = s.clk.tbt := by simp [State.thermalRun]

@[simp] theorem State.ledgerThermal_tbt {sensor value point} : (s.ledgerThermal sensor value point).clk.tbt = s.clk.tbt := by
  simp [State.ledgerThermal]

@[simp] theorem State.thermalNoted_tbt {x} : (s.thermalNoted x).clk.tbt = s.clk.tbt := by simp [State.thermalNoted]

@[simp] theorem State.thermalAll_tbt {x} : (s.thermalAll x).clk.tbt = s.clk.tbt := by simp [State.thermalAll]

@[simp] theorem State.thermalStart_tbt {job run} : (s.thermalStart job run).clk.tbt = s.clk.tbt := by
  unfold State.thermalStart
  split <;> simp

@[simp] theorem State.setThrottle_tbt {n} : (s.setThrottle n).clk.tbt = s.clk.tbt := by
  unfold State.setThrottle
  dsimp only
  repeat' split
  all_goals simp

@[simp] theorem State.throttleStep_tbt {sensor value n} : (s.throttleStep sensor value n).clk.tbt = s.clk.tbt := by
  simp [State.throttleStep]

/-! ### Operations of Runs -/

@[simp] theorem State.spoilDigests_tbt {job set} : (s.spoilDigests job set).clk.tbt = s.clk.tbt := rfl

@[simp] theorem State.startRun_tbt {job a} : (s.startRun job a).clk.tbt = s.clk.tbt := by simp [State.startRun]

@[simp] theorem State.settleJob_tbt {job} : (s.settleJob job).clk.tbt = s.clk.tbt := by simp [State.settleJob]

@[simp] theorem State.cancelStarts_tbt {job} : (s.cancelStarts job).clk.tbt = s.clk.tbt := by simp [State.cancelStarts]

@[simp] theorem State.missTick_tbt {job p t0} : (s.missTick job p t0).clk.tbt = s.clk.tbt := by simp [State.missTick]

@[simp] theorem State.freeCtx_tbt {job run} : (s.freeCtx job run).clk.tbt = s.clk.tbt := State.foldl_tbt fun _ _ => rfl

@[simp] theorem State.newDigest_tbt {job r st} : (s.newDigest job r st).1.clk.tbt = s.clk.tbt := by
  unfold State.newDigest
  dsimp only
  repeat' split
  all_goals simp

@[simp] theorem State.faultCapture_tbt {cores idx} : (s.faultCapture cores idx).clk.tbt = s.clk.tbt := by
  simp [State.faultCapture]

@[simp] theorem State.deviceFault_tbt {cause rec} : (s.deviceFault cause rec).clk.tbt = s.clk.tbt := by simp [State.deviceFault]

@[simp] theorem State.markCore_tbt {p} : (s.markCore p).clk.tbt = s.clk.tbt := by simp [State.markCore]

/-! ### Operations of Hbm -/

@[simp] theorem State.calRefuse_tbt {r cause slot} : (s.calRefuse r cause slot).clk.tbt = s.clk.tbt := by simp [State.calRefuse]

@[simp] theorem State.addEgress_tbt {l} : (s.addEgress l).clk.tbt = s.clk.tbt := rfl

@[simp] theorem State.perform_tbt {pc run ecc k r} : (s.perform pc run ecc k r).1.clk.tbt = s.clk.tbt := by
  unfold State.perform
  split <;> simp

@[simp] theorem State.performAll_tbt {pc run ecc k l} : (State.performAll pc run ecc k l s).clk.tbt = s.clk.tbt := by
  induction l generalizing s k with
  | nil => rfl
  | cons r l ih => simp [State.performAll, ih]

@[simp] theorem State.elasticRun_tbt {pc run ecc lent} : (s.elasticRun pc run ecc lent).clk.tbt = s.clk.tbt := by
  unfold State.elasticRun
  dsimp only
  repeat' split
  all_goals simp

@[simp] theorem State.egress_tbt {x} : (s.egress x).clk.tbt = s.clk.tbt := by simp [State.egress]

@[simp] theorem State.slip_tbt {c kind src dst skew pc slot} : (s.slip c kind src dst skew pc slot).clk.tbt = s.clk.tbt := by
  simp [State.slip, State.logCore]

@[simp] theorem State.linkSlipped_tbt {c kind pc slot} : (s.linkSlipped c kind pc slot).clk.tbt = s.clk.tbt := by
  simp [State.linkSlipped]

/-! ### Operations of Clocks -/

@[simp] theorem State.onIsland_tbt {i delta} : (s.onIsland i delta).1.clk.tbt = s.clk.tbt := by
  unfold State.onIsland
  repeat' split
  all_goals simp

@[simp] theorem State.endSlips_tbt : s.endSlips.clk.tbt = s.clk.tbt := rfl

@[simp] theorem State.dieEvent_tbt : s.dieEvent.clk.tbt = s.clk.tbt := by simp [State.dieEvent]

@[simp] theorem State.calibrate_tbt {given span i} : (s.calibrate given span i).clk.tbt = s.clk.tbt := by simp [State.calibrate]

@[simp] theorem State.planStep_tbt {m} : (s.planStep m).clk.tbt = s.clk.tbt := by simp [State.planStep]

@[simp] theorem State.correct_tbt {x} : (s.correct x).clk.tbt = s.clk.tbt := by simp [State.correct]

@[simp] theorem State.stepFrom_tbt {e} : (s.stepFrom e).clk.tbt = s.clk.tbt := by simp [State.stepFrom]

@[simp] theorem State.align_tbt {e} : (s.align e).clk.tbt = s.clk.tbt := by simp [State.align]

@[simp] theorem State.bootStep_tbt : s.bootStep.clk.tbt = s.clk.tbt := by
  unfold State.bootStep
  split <;> simp

@[simp] theorem State.ledgerRef_tbt {r} : (s.ledgerRef r).clk.tbt = s.clk.tbt := by simp [State.ledgerRef]

@[simp] theorem State.referenceBack_tbt {rs} : (s.referenceBack rs).clk.tbt = s.clk.tbt := by
  unfold State.referenceBack
  dsimp only
  repeat' split
  all_goals simp

@[simp] theorem State.gateClocks_tbt {on} : (s.gateClocks on).clk.tbt = s.clk.tbt := rfl

@[simp] theorem State.resumeAll_tbt : s.resumeAll.clk.tbt = s.clk.tbt := by simp [State.resumeAll]

@[simp] theorem State.nextChange_tbt : s.nextChange.clk.tbt = s.clk.tbt := by
  unfold State.nextChange
  dsimp only
  repeat' split
  all_goals simp

/-! ### Operations of Ports -/

@[simp] theorem State.bounce_tbt {port i st} : (s.bounce port i st).clk.tbt = s.clk.tbt := by simp [State.bounce]

@[simp] theorem State.release1_tbt {m} : (s.release1 m).clk.tbt = s.clk.tbt := by
  unfold State.release1
  split
  · rfl
  · exact State.foldl_tbt fun _ _ => rfl

@[simp] theorem State.drainMoved_tbt : s.drainMoved.clk.tbt = s.clk.tbt := by simp [State.drainMoved]

@[simp] theorem State.dropOut_tbt {agent tag} : (s.dropOut agent tag).clk.tbt = s.clk.tbt := rfl

@[simp] theorem State.loseOut_tbt {p} : (s.loseOut p).clk.tbt = s.clk.tbt := by simp [State.loseOut]

@[simp] theorem State.switchRoutes_tbt {p} : (s.switchRoutes p).clk.tbt = s.clk.tbt := rfl

@[simp] theorem State.ledgerPort_tbt {p} : (s.ledgerPort p).clk.tbt = s.clk.tbt := by simp [State.ledgerPort]

@[simp] theorem State.ledgerPeer_tbt {p serial good} : (s.ledgerPeer p serial good).clk.tbt = s.clk.tbt := by
  simp [State.ledgerPeer]

@[simp] theorem State.freeBuffer_tbt {y} : (s.freeBuffer y).clk.tbt = s.clk.tbt := by
  unfold State.freeBuffer
  split <;> simp

@[simp] theorem State.closePort_tbt {p st cause} : (s.closePort p st cause).clk.tbt = s.clk.tbt := by simp [State.closePort]

@[simp] theorem State.fence_tbt {p cause} : (s.fence p cause).clk.tbt = s.clk.tbt := by simp [State.fence]

@[simp] theorem State.trainPort_tbt {p} : (s.trainPort p).clk.tbt = s.clk.tbt := by simp [State.trainPort]

@[simp] theorem State.random_tbt {n} : (s.random n).1.clk.tbt = s.clk.tbt := rfl

@[simp] theorem State.narrow_tbt {p x l} : (s.narrow p x l).clk.tbt = s.clk.tbt := by simp [State.narrow]

@[simp] theorem State.laneFail_tbt {p k} : (s.laneFail p k).clk.tbt = s.clk.tbt := by simp [State.laneFail]

/-! ### Operations of Packets -/

@[simp] theorem State.stompCopy_tbt {i} : (s.stompCopy i).clk.tbt = s.clk.tbt := by
  unfold State.stompCopy
  repeat' split
  all_goals simp

@[simp] theorem State.received_tbt {x} : (s.received x).1.clk.tbt = s.clk.tbt := by
  unfold State.received
  dsimp only
  repeat' split
  all_goals simp

@[simp] theorem State.keepBuffer_tbt {port vc} : (s.keepBuffer port vc).clk.tbt = s.clk.tbt := rfl

@[simp] theorem State.forward_tbt {port hdr data own} : (s.forward port hdr data own).clk.tbt = s.clk.tbt := by
  unfold State.forward
  dsimp only
  repeat' split
  all_goals simp

@[simp] theorem State.dropLog_tbt {port cause i} : (s.dropLog port cause i).clk.tbt = s.clk.tbt := rfl

@[simp] theorem State.apertureDrop_tbt {port hdr} : (s.apertureDrop port hdr).clk.tbt = s.clk.tbt := by
  unfold State.apertureDrop
  dsimp only
  repeat' split
  all_goals simp

@[simp] theorem State.countLate_tbt {port late} : (s.countLate port late).clk.tbt = s.clk.tbt := by simp [State.countLate]

@[simp] theorem State.countTerm_tbt {i} : (s.countTerm i).clk.tbt = s.clk.tbt := by simp [State.countTerm]

@[simp] theorem State.packet_tbt {x type own act} (ha : ∀ u : State, (act u).clk.tbt = u.clk.tbt) :
    (s.packet x type own act).clk.tbt = s.clk.tbt := by
  unfold State.packet
  repeat' split
  all_goals simp [ha]

@[simp] theorem State.request_tbt {x type k range act} (ha : ∀ u : State, (act u).clk.tbt = u.clk.tbt) :
    (s.request x type k range act).clk.tbt = s.clk.tbt := by
  unfold State.request
  simp [ha]

@[simp] theorem State.begun_tbt {r} : (s.begun r).clk.tbt = s.clk.tbt := rfl

@[simp] theorem State.toMemory_tbt {x req r} : (s.toMemory x req r).clk.tbt = s.clk.tbt := by
  unfold State.toMemory
  dsimp only
  split <;> simp

@[simp] theorem State.queuePacket_tbt {x type op} : (s.queuePacket x type op).clk.tbt = s.clk.tbt :=
  State.request_tbt fun _ => rfl

@[simp] theorem State.farAnswer_tbt {agent tag type status data poison} :
    (s.farAnswer agent tag type status data poison).clk.tbt = s.clk.tbt := by
  unfold State.farAnswer
  split <;> simp

@[simp] theorem State.pktAnswer_tbt {i type data poison} : (s.pktAnswer i type data poison).clk.tbt = s.clk.tbt := by
  simp [State.pktAnswer]

@[simp] theorem State.timeStamps_tbt {port t1 t4} : (s.timeStamps port t1 t4).clk.tbt = s.clk.tbt := by
  unfold State.timeStamps
  dsimp only
  repeat' split
  all_goals simp

@[simp] theorem State.heartbeat_tbt {epoch master serial} : (s.heartbeat epoch master serial).clk.tbt = s.clk.tbt := by
  simp [State.heartbeat]

@[simp] theorem State.installCircuit_tbt {id c slots} : (s.installCircuit id c slots).clk.tbt = s.clk.tbt := by
  simp [State.installCircuit]

@[simp] theorem State.removeCircuit_tbt {id} : (s.removeCircuit id).clk.tbt = s.clk.tbt := by simp [State.removeCircuit]

@[simp] theorem State.sendShare_tbt {port} : (s.sendShare port).clk.tbt = s.clk.tbt := by simp [State.sendShare]

/-! ### Operations of Transmit -/

@[simp] theorem State.transmit_tbt {p y} : (s.transmit p y).clk.tbt = s.clk.tbt := by simp [State.transmit]

@[simp] theorem State.sendAck_tbt {p dev} : (s.sendAck p dev).clk.tbt = s.clk.tbt := rfl

@[simp] theorem State.replay_tbt {p n} : (s.replay p n).clk.tbt = s.clk.tbt := by
  unfold State.replay
  dsimp only
  repeat' split
  all_goals simp

@[simp] theorem State.sendOf_tbt {p y} : (s.sendOf p y).clk.tbt = s.clk.tbt := by cases y <;> simp [State.sendOf]

@[simp] theorem State.reroute_tbt {d e} : (s.reroute d e).clk.tbt = s.clk.tbt := by
  unfold State.reroute
  dsimp only
  repeat' split
  all_goals simp

@[simp] theorem State.fabricFrame_tbt {n} : (s.fabricFrame n).clk.tbt = s.clk.tbt := by simp [State.fabricFrame]

/-! ### Operations of Registers -/

@[simp] theorem State.setRc_tbt {a v} : (s.setRc a v).clk.tbt = s.clk.tbt := by
  obtain ⟨-, -, -, -, -, -, hclk⟩ := s.setRc_keeps a v
  exact hclk

@[simp] theorem State.readWord_tbt {a same} : (s.readWord a same).1.clk.tbt = s.clk.tbt := by
  unfold State.readWord
  split <;> simp

@[simp] theorem State.readTbtLow_tbt : s.readTbtLow.clk.tbt = s.clk.tbt := rfl

@[simp] theorem State.readTbtHigh_tbt : s.readTbtHigh.clk.tbt = s.clk.tbt := rfl

@[simp] theorem State.readFree_tbt {a len} : (s.readFree a len).clk.tbt = s.clk.tbt := rfl

@[simp] theorem State.readPair_tbt {off same half} : (s.readPair off same half).clk.tbt = s.clk.tbt := by
  unfold State.readPair
  dsimp only
  repeat' split
  all_goals simp

/-! ### Operations of Commands -/

@[simp] theorem State.beginCmd_tbt {c : Cmd} : (s.beginCmd c).clk.tbt = s.clk.tbt := by
  unfold State.beginCmd
  dsimp only
  repeat' split
  all_goals simp

@[simp] theorem State.perform1_tbt {id opc mine bad act} (ha : ∀ c, (act c).clk.tbt = s.clk.tbt) :
    (s.perform1 id opc mine bad act).clk.tbt = s.clk.tbt := by
  unfold State.perform1
  repeat' split
  all_goals simp [ha]

@[simp] theorem State.reading_tbt {id opc ecc bufs k} (hk : ∀ u : State, (k u).clk.tbt = u.clk.tbt) :
    (s.reading id opc ecc bufs k).clk.tbt = s.clk.tbt := by
  unfold State.reading
  repeat' split
  all_goals simp [hk]

@[simp] theorem State.runCmd_tbt {id opc act} (ha : ∀ c, (act c).clk.tbt = s.clk.tbt) :
    (s.runCmd id opc act).clk.tbt = s.clk.tbt :=
  State.perform1_tbt ha

@[simp] theorem State.await_tbt {id} : (s.await id).clk.tbt = s.clk.tbt := rfl

@[simp] theorem State.admitCmd_tbt {c : Cmd} : (s.admitCmd c).clk.tbt = s.clk.tbt := by
  unfold State.admitCmd
  split <;> simp

@[simp] theorem State.beginBulk_tbt : s.beginBulk.clk.tbt = s.clk.tbt := by
  unfold State.beginBulk
  split <;> simp

/-! ### Operations of Vxe -/

@[simp] theorem State.vxeOn_tbt {x f} : (s.vxeOn x f).clk.tbt = s.clk.tbt := by simp [State.vxeOn]

/-! ### Operations of Jobs -/

@[simp] theorem State.writeResults_tbt {at0 l} : (s.writeResults at0 l).clk.tbt = s.clk.tbt := by simp [State.writeResults]

@[simp] theorem State.loadJob_tbt {c x} : (s.loadJob c x).clk.tbt = s.clk.tbt := by
  unfold State.loadJob
  dsimp only
  repeat' split
  all_goals simp

@[simp] theorem State.endLoad_tbt {held} : (s.endLoad held).clk.tbt = s.clk.tbt := by
  unfold State.endLoad
  split <;> simp

@[simp] theorem State.emptyJob_tbt {job} : (s.emptyJob job).clk.tbt = s.clk.tbt := by simp [State.emptyJob]

/-! ### Operations of Capture -/

@[simp] theorem State.beginCapture_tbt {trigger cores cmd} : (s.beginCapture trigger cores cmd).clk.tbt = s.clk.tbt := rfl

@[simp] theorem State.endCapture_tbt : s.endCapture.clk.tbt = s.clk.tbt := by
  unfold State.endCapture
  dsimp only
  repeat' split
  all_goals simp

@[simp] theorem State.writeCapStatus_tbt {v same} : (s.writeCapStatus v same).clk.tbt = s.clk.tbt := by
  simp [State.writeCapStatus]

@[simp] theorem State.writeWdLimit_tbt {v} : (s.writeWdLimit v).clk.tbt = s.clk.tbt := rfl

/-! ### Operations of Mss -/

@[simp] theorem State.lostSensor_tbt {n} : (s.lostSensor n).clk.tbt = s.clk.tbt := by simp [State.lostSensor]

@[simp] theorem State.hubTemp_tbt {x r i} : (s.hubTemp x r i).clk.tbt = s.clk.tbt := by simp [State.hubTemp]

@[simp] theorem State.sampleRegs_tbt {x} : (s.sampleRegs x).clk.tbt = s.clk.tbt := by
  rw [State.sampleRegs, State.ite_tbt, State.alert_tbt, ite_self]
  exact (State.foldl_tbt fun _ _ => State.hubTemp_tbt).trans (State.foldl_tbt fun _ _ => State.lostSensor_tbt)

@[simp] theorem State.slower_tbt {sensor value} : (s.slower sensor value).clk.tbt = s.clk.tbt := by simp [State.slower]

@[simp] theorem State.act_tbt : s.act.clk.tbt = s.clk.tbt := by
  unfold State.act
  repeat' split
  all_goals simp

@[simp] theorem State.writePcap_tbt {v} : (s.writePcap v).clk.tbt = s.clk.tbt := by simp [State.writePcap]

@[simp] theorem State.clearAlerts_tbt {v keep} : (s.clearAlerts v keep).clk.tbt = s.clk.tbt := rfl

@[simp] theorem State.writeAlert_tbt {v same} : (s.writeAlert v same).clk.tbt = s.clk.tbt := by simp [State.writeAlert]

@[simp] theorem State.writeMbCtrl_tbt {v} : (s.writeMbCtrl v).clk.tbt = s.clk.tbt := by simp [State.writeMbCtrl]

/-! ### Operations of Messages -/

@[simp] theorem State.respond_tbt {t0 d} : (s.respond t0 d).clk.tbt = s.clk.tbt := by
  unfold State.respond
  dsimp only
  repeat' split
  all_goals simp

@[simp] theorem State.reply_tbt {t0 type code body} : (s.reply t0 type code body).clk.tbt = s.clk.tbt := by simp [State.reply]

@[simp] theorem State.restartBegin_tbt : s.restartBegin.clk.tbt = s.clk.tbt := by
  unfold State.restartBegin
  refine State.foldl_tbt fun s x => ?_
  split <;> simp

@[simp] theorem State.ledgerBoot_tbt : s.ledgerBoot.clk.tbt = s.clk.tbt := by simp [State.ledgerBoot]

@[simp] theorem State.setSpdm_tbt {x} : (s.setSpdm x).clk.tbt = s.clk.tbt := rfl

@[simp] theorem State.spdmError_tbt {t0 code} : (s.spdmError t0 code).clk.tbt = s.clk.tbt := by simp [State.spdmError]

@[simp] theorem State.negotiated_tbt {x act} (ha : act.clk.tbt = s.clk.tbt) : (s.negotiated x act).clk.tbt = s.clk.tbt := by
  simp [State.negotiated, ha]

@[simp] theorem State.ledgerUpdate_tbt {step svn st} : (s.ledgerUpdate step svn st).clk.tbt = s.clk.tbt := by
  simp [State.ledgerUpdate]

/-! ### Operations of Mxe -/

@[simp] theorem State.beamOn_tbt {x f} : (s.beamOn x f).clk.tbt = s.clk.tbt := by simp [State.beamOn]

/-! ### Operations of Reset -/

@[simp] theorem State.raiseFence_tbt : s.raiseFence.clk.tbt = s.clk.tbt := by simp [State.raiseFence]

@[simp] theorem State.queuesGone_tbt : s.queuesGone.clk.tbt = s.clk.tbt := by simp [State.queuesGone]

@[simp] theorem State.emptyAll_tbt : s.emptyAll.clk.tbt = s.clk.tbt := by simp [State.emptyAll]

@[simp] theorem State.stopDie_tbt : s.stopDie.clk.tbt = s.clk.tbt := by simp [State.stopDie]

@[simp] theorem State.failCore_tbt {p} : (s.failCore p).clk.tbt = s.clk.tbt := by simp [State.failCore]

@[simp] theorem State.failRod_tbt {x} : (s.failRod x).clk.tbt = s.clk.tbt := by simp [State.failRod]

@[simp] theorem State.applyRemap_tbt {cores rods} : (s.applyRemap cores rods).clk.tbt = s.clk.tbt := by simp [State.applyRemap]

@[simp] theorem State.freshCores_tbt : s.freshCores.clk.tbt = s.clk.tbt := rfl

@[simp] theorem State.failIslands_tbt {xlat} : (s.failIslands xlat).clk.tbt = s.clk.tbt := by simp [State.failIslands]

@[simp] theorem State.calibrateDie_tbt {xlat badPlane} : (s.calibrateDie xlat badPlane).clk.tbt = s.clk.tbt := by
  simp [State.calibrateDie]

@[simp] theorem State.deviceRecord_tbt {cause island} : (s.deviceRecord cause island).1.clk.tbt = s.clk.tbt := by
  simp [State.deviceRecord]

@[simp] theorem State.endReset_tbt {micros} : (s.endReset micros).clk.tbt = s.clk.tbt := by
  unfold State.endReset
  dsimp only
  repeat' split
  all_goals simp

@[simp] theorem State.resetPhase_tbt {r n} : (s.resetPhase r n).clk.tbt = s.clk.tbt := by
  unfold State.resetPhase
  split <;> simp

@[simp] theorem State.advanceReset_tbt {upTo r} : (s.advanceReset upTo r).clk.tbt = s.clk.tbt := by simp [State.advanceReset]

@[simp] theorem State.beginReset_tbt {capture} : (s.beginReset capture).clk.tbt = s.clk.tbt := by simp [State.beginReset]

@[simp] theorem State.joinReset_tbt {id} : (s.joinReset id).clk.tbt = s.clk.tbt := rfl

/-! ### Operations of Package -/

@[simp] theorem State.takeRole_tbt {sel} : (s.takeRole sel).clk.tbt = s.clk.tbt := rfl

@[simp] theorem State.startHubs_tbt : s.startHubs.clk.tbt = s.clk.tbt := rfl

@[simp] theorem State.disturb_tbt {l} : (s.disturb l).clk.tbt = s.clk.tbt := by
  unfold State.disturb
  refine State.foldl_tbt fun s x => ?_
  dsimp only
  split <;> rfl

@[simp] theorem State.disturbJob_tbt {job} : (s.disturbJob job).clk.tbt = s.clk.tbt := rfl

/-! ### Operations of Seq -/

@[simp] theorem State.arithOn_tbt {x f lat op} : (s.arithOn x f lat op).clk.tbt = s.clk.tbt := by simp [State.arithOn]

/-! ### Operations of Steps -/

/-! ### Operations of Writes -/

@[simp] theorem State.writeRingWord_tbt {ring o v} : (s.writeRingWord ring o v).clk.tbt = s.clk.tbt := by
  unfold State.writeRingWord
  split <;> simp

@[simp] theorem State.writeCpWord_tbt {o v} : (s.writeCpWord o v).clk.tbt = s.clk.tbt := by
  unfold State.writeCpWord
  split
  · simp
  · split <;> simp

@[simp] theorem State.writeBell_tbt {o v} : (s.writeBell o v).clk.tbt = s.clk.tbt := by
  unfold State.writeBell
  split <;> simp

@[simp] theorem State.writeMgWord_tbt {o v same} : (s.writeMgWord o v same).clk.tbt = s.clk.tbt := by
  unfold State.writeMgWord
  split
  · rfl
  · split <;> simp

@[simp] theorem State.writeFlWord_tbt {o v same} : (s.writeFlWord o v same).clk.tbt = s.clk.tbt := by
  unfold State.writeFlWord
  split <;> simp

@[simp] theorem State.writeHdmWord_tbt {o v} : (s.writeHdmWord o v).clk.tbt = s.clk.tbt := by
  unfold State.writeHdmWord
  split <;> simp

@[simp] theorem State.writeWord_tbt {a v same} : (s.writeWord a v same).clk.tbt = s.clk.tbt := by
  unfold State.writeWord
  split <;> simp

@[simp] theorem State.writePair_tbt {off v same half} : (s.writePair off v same half).clk.tbt = s.clk.tbt := by
  unfold State.writePair
  split <;> simp

/-! ### Operations of Step -/

/-! ### Operations of Dma -/

@[simp] theorem State.slotOn_tbt {x e slot load f} : (s.slotOn x e slot load f).clk.tbt = s.clk.tbt := by simp [State.slotOn]

/-- A new upstream port. -/
theorem State.upstream_tbt {v : W32} : ({ s with clk := { s.clk with upstream := v } } : State).clk.tbt = s.clk.tbt := rfl

/-- Circuits that are installed one after another. -/
theorem State.installAll_tbt {u : State} {job l idx ids} (e : State.installAll job l idx s = .ok (u, ids)) :
    u.clk.tbt = s.clk.tbt := by
  induction l generalizing s idx ids with
  | nil => cases e; rfl
  | cons x l ih =>
    unfold State.installAll at e
    dsimp only at e
    split at e
    · cases e
    · split at e
      · split at e
        · cases e
        · next hl =>
          cases e
          exact (ih hl).trans State.installCircuit_tbt
      · cases e

end

end Sys2Proof.Machine
end

section
/-!
The timebase moves by its steps alone (O58; 12 R364, R365, R375).
-/

namespace Sys2Proof.Machine

open Sys2Proof Sys2Proof.Safety Sys2Proof.Claims

section
variable {s t : State}

theorem eq_of_accept {i : Instr} (h : accept i s = .next t) : t = s := by
  unfold accept at h
  split at h
  · cases h
  · split at h
    · cases h
    · exact (Host.Outcome.next.inj h).symm

/-! ### Commands with cases of their own -/

theorem execServiceBlockEnd_tbt {c delta} (h : execServiceBlockEnd c delta s = .next t) : t.clk.tbt = s.clk.tbt := by
  rw [eq_of_accept h]
  dsimp only
  repeat' split
  all_goals simp

theorem execHandlerDispatch_tbt {c delta} (h : execHandlerDispatch c delta s = .next t) : t.clk.tbt = s.clk.tbt := by
  rw [eq_of_accept h]
  dsimp only
  repeat' split
  all_goals simp

theorem execFrameTick_tbt {job} (h : execFrameTick job s = .next t) : t.clk.tbt = s.clk.tbt := by
  rw [eq_of_accept h]
  dsimp only
  repeat' split
  all_goals simp

theorem execStartAtTbt_tbt {job} (h : execStartAtTbt job s = .next t) : t.clk.tbt = s.clk.tbt := by
  rw [eq_of_accept h]
  split <;> simp

theorem execRunRetire_tbt {job run} (h : execRunRetire job run s = .next t) : t.clk.tbt = s.clk.tbt := by
  rw [eq_of_accept h]
  dsimp only
  repeat' split
  all_goals simp

theorem execDmaRequestComplete_tbt {c delta txn} (h : execDmaRequestComplete c delta txn s = .next t) : t.clk.tbt = s.clk.tbt := by
  rw [eq_of_accept h]
  dsimp only
  repeat' split
  all_goals simp

theorem execLandingArrival_tbt {c delta pkt} (h : execLandingArrival c delta pkt s = .next t) : t.clk.tbt = s.clk.tbt := by
  rw [eq_of_accept h]
  repeat' split
  all_goals simp

theorem execSchedRequestArrival_tbt {req} (h : execSchedRequestArrival req s = .next t) : t.clk.tbt = s.clk.tbt := by
  rw [eq_of_accept h]
  dsimp only
  repeat' split
  all_goals simp

theorem execElasticRequestArrival_tbt {req} (h : execElasticRequestArrival req s = .next t) : t.clk.tbt = s.clk.tbt := by
  rw [eq_of_accept h]
  split <;> simp

theorem execRunCutoff_tbt {pc run ecc} (h : execRunCutoff pc run ecc s = .next t) : t.clk.tbt = s.clk.tbt := by
  rw [eq_of_accept h]
  dsimp only
  repeat' split
  all_goals simp

theorem execHbmReadEgress_tbt {pc slot} (h : execHbmReadEgress pc slot s = .next t) : t.clk.tbt = s.clk.tbt := by
  rw [eq_of_accept h]
  split <;> simp

theorem execHbmWriteAck_tbt {req} (h : execHbmWriteAck req s = .next t) : t.clk.tbt = s.clk.tbt := by
  rw [eq_of_accept h]
  split <;> simp

theorem execHbmUePoisonStore_tbt {pc} (h : execHbmUePoisonStore pc s = .next t) : t.clk.tbt = s.clk.tbt := by
  rw [eq_of_accept h]
  split <;> simp

theorem execLinkSlip_tbt {pkt} (h : execLinkSlip pkt s = .next t) : t.clk.tbt = s.clk.tbt := by
  rw [eq_of_accept h]
  repeat' split
  all_goals simp

theorem execPlacerOpenRequest_tbt {req} (h : execPlacerOpenRequest req s = .next t) : t.clk.tbt = s.clk.tbt := by
  rw [eq_of_accept h]
  dsimp only
  repeat' split
  all_goals simp

theorem execPlacerSend_tbt {req} (h : execPlacerSend req s = .next t) : t.clk.tbt = s.clk.tbt := by
  rw [eq_of_accept h]
  dsimp only
  repeat' split
  all_goals simp

theorem execPlacerClose_tbt {req} (h : execPlacerClose req s = .next t) : t.clk.tbt = s.clk.tbt := by
  rw [eq_of_accept h]
  repeat' split
  all_goals simp

theorem execQueueAnswer_tbt {c delta req} (h : execQueueAnswer c delta req s = .next t) : t.clk.tbt = s.clk.tbt := by
  rw [eq_of_accept h]
  split <;> simp

theorem execGroupAssign_tbt {qid} (h : execGroupAssign qid s = .next t) : t.clk.tbt = s.clk.tbt := by
  rw [eq_of_accept h]
  dsimp only
  repeat' split
  all_goals simp

theorem execCombiningContribution_tbt {req} (h : execCombiningContribution req s = .next t) : t.clk.tbt = s.clk.tbt := by
  rw [eq_of_accept h]
  dsimp only
  repeat' split
  all_goals simp

theorem execCombiningTimeout_tbt {qid key} (h : execCombiningTimeout qid key s = .next t) : t.clk.tbt = s.clk.tbt := by
  rw [eq_of_accept h]
  dsimp only
  repeat' split
  all_goals simp

theorem execCrossingSlip_tbt {c toCore words pkts} (h : execCrossingSlip c toCore words pkts s = .next t) : t.clk.tbt = s.clk.tbt := by
  rw [eq_of_accept h]
  dsimp only
  split
  · rfl
  · split
    · exact State.foldl_tbt fun u id => by split <;> rfl
    · exact Eq.trans State.slip_tbt (State.foldl_tbt fun u id => by split <;> rfl)

theorem execPpsInEdge_tbt (h : execPpsInEdge s = .next t) : t.clk.tbt = s.clk.tbt := by
  rw [eq_of_accept h]
  dsimp only
  repeat' split
  all_goals simp

theorem execOpStopResume_tbt {ticks} (h : execOpStopResume ticks s = .next t) : t.clk.tbt = s.clk.tbt := by
  rw [eq_of_accept h]
  repeat' split
  all_goals simp

theorem execSetOpTimeout_tbt (h : execSetOpTimeout s = .next t) : t.clk.tbt = s.clk.tbt := by
  rw [eq_of_accept h]
  dsimp only
  repeat' split
  all_goals simp

theorem execPortStateTimeout_tbt {port} (h : execPortStateTimeout port s = .next t) : t.clk.tbt = s.clk.tbt := by
  rw [eq_of_accept h]
  dsimp only
  repeat' split
  all_goals simp

theorem execPktWrite_tbt {p} (h : execPktWrite p s = .next t) : t.clk.tbt = s.clk.tbt := by
  rw [eq_of_accept h]
  dsimp only
  repeat' split
  all_goals simp

theorem execPktQresp_tbt {p} (h : execPktQresp p s = .next t) : t.clk.tbt = s.clk.tbt := by
  rw [eq_of_accept h]
  refine State.packet_tbt fun u => ?_
  dsimp only
  split
  · rfl
  · split
    · rfl
    · simp

theorem execPktTime_tbt {p b} (h : execPktTime p b s = .next t) : t.clk.tbt = s.clk.tbt := by
  rw [eq_of_accept h]
  split <;> simp

theorem execPktMgmt_tbt {p b} (h : execPktMgmt p b s = .next t) : t.clk.tbt = s.clk.tbt := by
  rw [eq_of_accept h]
  refine State.packet_tbt fun u => ?_
  cases b
  case heartbeat => exact State.heartbeat_tbt
  case assignId => exact State.ite_tbt.trans (ite_self _)
  case circuit => rw [State.ite_tbt, State.installCircuit_tbt, ite_self]
  case removeCircuit => rw [State.ite_tbt, State.removeCircuit_tbt, ite_self]
  case timeUpstream => exact State.upstream_tbt
  all_goals rfl

theorem execPktAuth_tbt {p b} (h : execPktAuth p b s = .next t) : t.clk.tbt = s.clk.tbt := by
  rw [eq_of_accept h]
  split <;> simp

theorem execLinkWord_tbt {port w} (h : execLinkWord port w s = .next t) : t.clk.tbt = s.clk.tbt := by
  rw [eq_of_accept h]
  repeat' split
  all_goals simp

theorem execFabricSlot_tbt {port} (h : execFabricSlot port s = .next t) : t.clk.tbt = s.clk.tbt := by
  rw [eq_of_accept h]
  dsimp only
  repeat' split
  all_goals simp

theorem execCommandAdmission_tbt {ring p} (h : execCommandAdmission ring p s = .next t) : t.clk.tbt = s.clk.tbt := by
  rw [eq_of_accept h]
  dsimp only
  repeat' split
  all_goals simp

theorem execCommandExecute_tbt (h : execCommandExecute s = .next t) : t.clk.tbt = s.clk.tbt := by
  rw [eq_of_accept h]
  split <;> simp

theorem execBulkDeferralExpiry_tbt {id} (h : execBulkDeferralExpiry id s = .next t) : t.clk.tbt = s.clk.tbt := by
  rw [eq_of_accept h]
  split <;> simp

theorem execCompletionRecordWrite_tbt {ring} (h : execCompletionRecordWrite ring s = .next t) : t.clk.tbt = s.clk.tbt := by
  rw [eq_of_accept h]
  dsimp only
  repeat' split
  all_goals simp

theorem execBiasFlipDone_tbt (h : execBiasFlipDone s = .next t) : t.clk.tbt = s.clk.tbt := by
  rw [eq_of_accept h]
  split <;> simp

theorem execHostCxlMemRead_tbt {hpa len} (h : execHostCxlMemRead hpa len s = .next t) : t.clk.tbt = s.clk.tbt := by
  rw [eq_of_accept h]
  split <;> simp

theorem execHostCxlMemWrite_tbt {hpa data poison} (h : execHostCxlMemWrite hpa data poison s = .next t) : t.clk.tbt = s.clk.tbt := by
  rw [eq_of_accept h]
  split <;> simp

theorem execReserve_tbt {id entries} (h : execReserve id entries s = .next t) : t.clk.tbt = s.clk.tbt := by
  rw [eq_of_accept h]
  refine State.reading_tbt fun u => State.perform1_tbt fun c => ?_
  dsimp only
  split <;> simp

theorem execArm_tbt {id} (h : execArm id s = .next t) : t.clk.tbt = s.clk.tbt := by
  rw [eq_of_accept h]
  refine State.runCmd_tbt fun c => ?_
  dsimp only
  split
  · simp
  · split <;> simp

theorem execCloseChannel_tbt {id} (h : execCloseChannel id s = .next t) : t.clk.tbt = s.clk.tbt := by
  rw [eq_of_accept h]
  refine State.runCmd_tbt fun c => ?_
  rw [State.finish_tbt]
  split <;> simp

theorem execSetCircuits_tbt {id entries later} (h : execSetCircuits id entries later s = .next t) : t.clk.tbt = s.clk.tbt := by
  rw [eq_of_accept h]
  refine State.reading_tbt fun u => State.perform1_tbt fun c => ?_
  split
  · next hplan => simp [State.installAll_tbt hplan]
  · simp

theorem execComputeReset_tbt {id upTo r} (h : execComputeReset id upTo r s = .next t) : t.clk.tbt = s.clk.tbt := by
  rw [eq_of_accept h]
  repeat' split
  all_goals simp

theorem execRunHalt_tbt {job} (h : execRunHalt job s = .next t) : t.clk.tbt = s.clk.tbt := by
  rw [eq_of_accept h]
  dsimp only
  repeat' split
  all_goals simp

theorem execRunDeadline_tbt {job run} (h : execRunDeadline job run s = .next t) : t.clk.tbt = s.clk.tbt := by
  rw [eq_of_accept h]
  dsimp only
  repeat' split
  all_goals simp

theorem execQuiesceTimeout_tbt {c} (h : execQuiesceTimeout c s = .next t) : t.clk.tbt = s.clk.tbt := by
  rw [eq_of_accept h]
  split <;> simp

theorem execPcapApply_tbt (h : execPcapApply s = .next t) : t.clk.tbt = s.clk.tbt := by
  rw [eq_of_accept h]
  split <;> simp

theorem execPldmBase_tbt {t0 cmd body} (h : execPldmBase t0 cmd body s = .next t) : t.clk.tbt = s.clk.tbt := by
  rw [eq_of_accept h]
  repeat' split
  all_goals simp

theorem execPldmSensorRead_tbt {t0 sensor} (h : execPldmSensorRead t0 sensor s = .next t) : t.clk.tbt = s.clk.tbt := by
  rw [eq_of_accept h]
  repeat' split
  all_goals simp

theorem execThermtrip_tbt {sensor} (h : execThermtrip sensor s = .next t) : t.clk.tbt = s.clk.tbt := by
  rw [eq_of_accept h]
  dsimp only
  split
  · rfl
  · rw [State.foldl_modHub_tbt, State.foldl_setIsland_tbt, State.gateClocks_tbt]
    exact State.foldl_tbt fun u p => by simp

theorem execDrainTimeout_tbt (h : execDrainTimeout s = .next t) : t.clk.tbt = s.clk.tbt := by
  rw [eq_of_accept h]
  split <;> simp

/-! ### Every command -/

/-- Every command but a step of the timebase and a reset of the package leaves its count as it was. -/
theorem exec_tbt {i : Instr} (hs : i ≠ .timebaseStep) (hp : ∀ p, i ≠ .packageReset p) (hb : ∀ r, i ≠ .brownOut r)
    (e : exec i s = .next t) : t.clk.tbt = s.clk.tbt := by
  cases i
  all_goals dsimp only [exec] at e
  case timebaseStep => exact absurd rfl hs
  case packageReset p => exact absurd rfl (hp p)
  case brownOut r => exact absurd rfl (hb r)
  case serviceBlockEnd => exact execServiceBlockEnd_tbt e
  case handlerDispatch => exact execHandlerDispatch_tbt e
  case frameTick => exact execFrameTick_tbt e
  case startAtTbt => exact execStartAtTbt_tbt e
  case runRetire => exact execRunRetire_tbt e
  case dmaRequestComplete => exact execDmaRequestComplete_tbt e
  case landingArrival => exact execLandingArrival_tbt e
  case schedRequestArrival => exact execSchedRequestArrival_tbt e
  case elasticRequestArrival => exact execElasticRequestArrival_tbt e
  case runCutoff => exact execRunCutoff_tbt e
  case hbmReadEgress => exact execHbmReadEgress_tbt e
  case hbmWriteAck => exact execHbmWriteAck_tbt e
  case hbmUePoisonStore => exact execHbmUePoisonStore_tbt e
  case linkRetry => rw [eq_of_accept e]
  case linkSlip => exact execLinkSlip_tbt e
  case placerOpenRequest => exact execPlacerOpenRequest_tbt e
  case placerSend => exact execPlacerSend_tbt e
  case placerClose => exact execPlacerClose_tbt e
  case queueAnswer => exact execQueueAnswer_tbt e
  case groupAssign => exact execGroupAssign_tbt e
  case combiningContribution => exact execCombiningContribution_tbt e
  case combiningTimeout => exact execCombiningTimeout_tbt e
  case crossingSlip => exact execCrossingSlip_tbt e
  case ppsInEdge => exact execPpsInEdge_tbt e
  case opStopResume => exact execOpStopResume_tbt e
  case setOpTimeout => exact execSetOpTimeout_tbt e
  case portStateTimeout => exact execPortStateTimeout_tbt e
  case pktWrite => exact execPktWrite_tbt e
  case pktQresp => exact execPktQresp_tbt e
  case pktTime => exact execPktTime_tbt e
  case pktMgmt => exact execPktMgmt_tbt e
  case pktAuth => exact execPktAuth_tbt e
  case linkWord => exact execLinkWord_tbt e
  case fabricSlot => exact execFabricSlot_tbt e
  case commandAdmission => exact execCommandAdmission_tbt e
  case commandExecute => exact execCommandExecute_tbt e
  case bulkDeferralExpiry => exact execBulkDeferralExpiry_tbt e
  case completionRecordWrite => exact execCompletionRecordWrite_tbt e
  case biasFlipDone => exact execBiasFlipDone_tbt e
  case hostCxlMemRead => exact execHostCxlMemRead_tbt e
  case hostCxlMemWrite => exact execHostCxlMemWrite_tbt e
  case reserve => exact execReserve_tbt e
  case arm => exact execArm_tbt e
  case closeChannel => exact execCloseChannel_tbt e
  case setCircuits => exact execSetCircuits_tbt e
  case computeReset => exact execComputeReset_tbt e
  case runHalt => exact execRunHalt_tbt e
  case runDeadline => exact execRunDeadline_tbt e
  case quiesceTimeout => exact execQuiesceTimeout_tbt e
  case pcapApply => exact execPcapApply_tbt e
  case pldmBase => exact execPldmBase_tbt e
  case pldmSensorRead => exact execPldmSensorRead_tbt e
  case thermtrip => exact execThermtrip_tbt e
  case drainTimeout => exact execDrainTimeout_tbt e
  case skip | tinc | tdec | tset | twait | fence | add | sub | and | or | xor | shl | shr | sar | mul | movi | cmp | plog |
      sel | aadd | amov | sfroma | movia | rdsys | ld | st | lda | sta | atom | br | mldw | mmul | mclr | manc | mout | mflg |
      mraw | vop | vld | vldStrided | vldTranspose | vst | ocfill | ocput | lutld | dload | dbase | dgo | datom | qopen |
      qclose | qsend | qcsend | holdEnd | waitTimeout | blockBoundary | handlerBudgetExpiry | dmaRequestIssue | fillComplete |
      landingPlacement | remoteReadServe | landingAtomic | calendarFrameBoundary | patrolScrub | droopNotice | dieEventGrant |
      emergencyStretch | timebaseCopyCorrection | timeMessageSend | ppsOutRise | ppsOutFall | referenceLoss | holdoverEnd |
      opStopBegin | portTrainingDone | portAuthDone | portJoinDone | partnerLost | fecWindow | laneRetrainDone |
      creditTimeout | apertureDropWindow | pktRead | pktRresp | pktAtomic | pktAresp | pktAck | pktQopen | pktQsend |
      pktQcsend | pktQclose | pktTransit | linkWordSend | fabricFrameBoundary | heartbeatSend | masterTakeover |
      doorbellSqTail | doorbellCqHead | ringEnable | ringDisable | ringDeferWrite | biasFlipGo | hdmCommit | bar2SelWrite |
      bar2Read | bar2Write | hostLinkTrained | hostLinkReset | load | unload | start | startPeriodic | stop | drain |
      openChannel | setApertures | setOp | query | faults | captureTake | captureRead | portReset | portHoldDown |
      portWriteCfg | loadClusterMap | timeCtrlStep | timeCtrlRead | mss | haltQuiesced | watchdogNoProgress | captureDone |
      autoReset | sensorSample | throttleReturn | ledgerFlush | remapFlashCopy | hashComplete | digestSign | mbGo |
      mgPcapWrite | mgAlertClear | capLockRelease | wdLimitWrite | tmTbtLowRead | rcRegisterRead | registerWrite | getStatus |
      ledgerRead | mssRestart | setRoots | clearAlert | getVersion | getCapabilities | negotiateAlgorithms | getDigests |
      getCertificate | challenge | getMeasurements | keyExchange | finish | endSession | pldmFirmwareUpdate | mctpUnsupported |
      boot | bootImageVerified | jtagExtest | laneLossOfLock | uncorrectableCodeword | snoop | endpointIdAssignment |
      ideKeyManagement =>
    rw [eq_of_accept e]
    simp

end

/-- Settles O58: no operation of the model but a step's own and a reset's writes the count. -/
theorem theTimebaseMovesByStepsAlone : Obligations.TheTimebaseMovesByStepsAlone := by
  intro i s t e
  by_cases hs : i = .timebaseStep
  · exact .inr (.inl hs)
  · by_cases hp : ∃ p, i = .packageReset p
    · exact .inr (.inr (.inl hp))
    · by_cases hb : ∃ r, i = .brownOut r
      · exact .inr (.inr (.inr hb))
      · exact .inl (exec_tbt hs (not_exists.1 hp) (not_exists.1 hb) e)

end Sys2Proof.Machine
end

section
/-!
SUPPORT. What one port sends, and what concerns one port alone (13 R378, R382).
-/

namespace Sys2Proof.Machine

open Sys2Proof Sys2Proof.Safety Sys2Proof.Claims

/-! ### The ledger -/

/-- An entry for the ledger changes the MSS, and the notes on the hcyc, and nothing else. -/
theorem State.ledger_writes (s : State) (ty : Nat) (d : List Byte) : ∃ m h, s.ledger ty d = { s with mss := m, hc := h } := by
  unfold State.ledger
  split
  · exact ⟨_, _, rfl⟩
  · exact ⟨_, _, rfl⟩

/-! ### What a port sends -/

/-- A packet that joins the transmit queue comes last; of the rest of the port only the highest depth changes. -/
theorem Port.push_writes (x : Port) (y : TxPkt) : ∃ q, x.push y = { x with txq := x.txq ++ [y], qhwm := q } := by
  unfold Port.push
  dsimp only
  split
  · exact ⟨_, rfl⟩
  · exact ⟨_, rfl⟩

/-- A linked port sends a packet of VC3: it comes last in the transmit queue. -/
theorem State.sendOwn_writes {s : State} {p : Nat} (dev : Nat) (b : Own) (h : (s.port p).linked = true) :
    ∃ y q, s.sendOwn p dev b = s.setPort p { s.port p with txq := (s.port p).txq ++ [y], qhwm := q }
      ∧ y.own = some b ∧ y.via = none := by
  let y : TxPkt := ⟨s.ownHeader dev b, [], false, s.clk.tbt.toNat, none, 0, .none, some b⟩
  obtain ⟨q, e⟩ := Port.push_writes (s.port p) y
  refine ⟨y, q, ?_, rfl, rfl⟩
  unfold State.sendOwn
  dsimp only
  rw [if_pos h, e]

theorem State.sendPartner_writes {s : State} {p : Nat} (b : Own) (h : (s.port p).linked = true) :
    ∃ y q, s.sendPartner p b = s.setPort p { s.port p with txq := (s.port p).txq ++ [y], qhwm := q }
      ∧ y.own = some b ∧ y.via = none :=
  State.sendOwn_writes _ b h

/-! ### What concerns one port alone -/

/-- Of the units, and of the ports but one, all are as they were. -/
def onlyPort (s t : State) (port : Nat) : Prop := unitsKept s t ∧ ∀ p, p ≠ port → t.port p = s.port p

section
variable {s t : State} {port : Nat}

theorem unitsKept_refl (s : State) : unitsKept s s := ⟨rfl, rfl, rfl, rfl, rfl, rfl, rfl, rfl, rfl⟩

theorem unitsKept_ledger (h : unitsKept s t) (ty : Nat) (d : List Byte) : unitsKept s (t.ledger ty d) := by
  obtain ⟨m, c, e⟩ := t.ledger_writes ty d
  rw [e]
  exact h

theorem unitsKept_setPort (s : State) (p : Nat) (x : Port) : unitsKept s (s.setPort p x) := unitsKept_refl s

theorem unitsKept_ledgerPort (h : unitsKept s t) (p : Nat) : unitsKept s (t.ledgerPort p) := unitsKept_ledger h _ _

theorem unitsKept_alert (h : unitsKept s t) (k : Nat) : unitsKept s (t.alert k) := h

theorem onlyPort_refl (s : State) (port : Nat) : onlyPort s s port := ⟨unitsKept_refl s, fun _ _ => rfl⟩

theorem onlyPort.setPort (h : onlyPort s t port) (x : Port) : onlyPort s (t.setPort port x) port :=
  ⟨h.1, fun p hp => (State.port_setPort_ne t x hp).trans (h.2 p hp)⟩

theorem onlyPort.ledger (h : onlyPort s t port) (ty : Nat) (d : List Byte) : onlyPort s (t.ledger ty d) port := by
  obtain ⟨m, c, e⟩ := t.ledger_writes ty d
  rw [e]
  exact h

theorem onlyPort.ledgerPeer (h : onlyPort s t port) (p : Nat) (serial : List Byte) (good : Bool) :
    onlyPort s (t.ledgerPeer p serial good) port :=
  h.ledger _ _

theorem onlyPort.trans {u : State} (h : onlyPort s t port) (k : onlyPort t u port) : onlyPort s u port := by
  obtain ⟨⟨h1, h2, h3, h4, h5, h6, h7, h8, h9⟩, hp⟩ := h
  obtain ⟨⟨k1, k2, k3, k4, k5, k6, k7, k8, k9⟩, kp⟩ := k
  exact ⟨⟨k1.trans h1, k2.trans h2, k3.trans h3, k4.trans h4, k5.trans h5, k6.trans h6, k7.trans h7, k8.trans h8, k9.trans h9⟩,
    fun p hne => (kp p hne).trans (hp p hne)⟩

theorem onlyPort.sendPartner (h : onlyPort s t port) (b : Own) : onlyPort s (t.sendPartner port b) port := by
  unfold State.sendPartner State.sendOwn
  dsimp only
  split
  · exact h.setPort _
  · exact h

end

end Sys2Proof.Machine
end

section
/-!
CLAIM PROOF. Ports come up, and their lanes fail and recover (O30; 13 R378, R404).
-/

namespace Sys2Proof.Machine

open Sys2Proof Sys2Proof.Safety Sys2Proof.Claims

/-! ### Ports come up -/

theorem laneList_take_isEmpty {l : BitVec 5} (h : 1 ≤ ((List.range 5).filter fun i => l.getLsbD i).length) :
    ((laneList l).take 4).isEmpty = false := by
  have e : 1 ≤ (laneList l).length := h
  cases hl : laneList l with
  | nil => simp [hl] at e
  | cons a t => rfl

/-- The width of a port that has one lane or more. -/
theorem widthOf_min_four {n : Nat} (h : 1 ≤ n) : widthOf (min 4 n) = if 4 ≤ n then 4 else if 2 ≤ n then 2 else 1 := by
  rcases n with _ | _ | _ | _ | n
  · omega
  · rfl
  · rfl
  · rfl
  · rw [Nat.min_eq_left (by omega), if_pos (by omega)]
    rfl

theorem widthOf_laneList {l : BitVec 5} (h : 1 ≤ ((List.range 5).filter fun i => l.getLsbD i).length) :
    widthOf ((laneList l).take 4).length = (if 4 ≤ ((List.range 5).filter fun i => l.getLsbD i).length then 4
      else if 2 ≤ ((List.range 5).filter fun i => l.getLsbD i).length then 2 else 1) := by
  rw [List.length_take]
  exact widthOf_min_four h

/-- NX_PEER of a port that is UP (13 R415). -/
theorem peer_word (a : BitVec 12) (b : BitVec 4) :
    BitVec.ofNat 32 (a.toNat + fld b.toNat 12 4 + fld 1 16 1) = BitVec.ofNat 32 (a.toNat + 2 ^ 12 * b.toNat + 2 ^ 16) := by
  have hb : b.toNat < 2 ^ 4 := b.isLt
  rw [fld, fld, Nat.shiftLeft_eq, Nat.shiftLeft_eq, Nat.mod_eq_of_lt hb, Nat.mul_comm b.toNat]
  rfl

/-- The last route for a device is that which its table holds. -/
theorem tget_installRoutes (rs : List (Nat × W32)) (d : Nat) (e : W32) (m : SMap W32) (hd : d < 4096) :
    tget 0 ((rs ++ [(d, e)]).foldl (fun (m : SMap W32) r => if r.1 < 4096 then tput 0 m r.1 r.2 else m) m) d = e := by
  rw [List.foldl_append, List.foldl_cons, List.foldl_nil, if_pos hd]
  exact tget_tput_self _ _ _ _

/-- Two packets of VC3 that a linked port sends come last in its transmit queue, in order. -/
theorem State.sendPartner_twice {s : State} {p : Nat} (b c : Own) (h : (s.port p).linked = true) :
    ∃ y z q, ((s.sendPartner p b).sendPartner p c).port p = { s.port p with txq := (s.port p).txq ++ [y, z], qhwm := q }
      ∧ y.own = some b ∧ z.own = some c := by
  obtain ⟨y, q, e, hy, -⟩ := State.sendPartner_writes b h
  obtain ⟨z, r, e', hz, -⟩ := State.sendPartner_writes (s := s.sendPartner p b) (p := p) c
    (by rw [e, State.port_setPort]; exact h)
  refine ⟨y, z, r, ?_, hy, hz⟩
  rw [e', State.port_setPort, e, State.port_setPort]
  simp only [List.append_assoc, List.cons_append, List.nil_append]

/-- A port that has trained: in AUTH, at the width of its lanes, with the link's times as measured (13 R378). -/
def Port.trained (x : Port) (now : Nat) (lanes : Lanes) (link : LinkTimes) : Port :=
  let l := (laneList lanes.good).take 4
  let n := widthOf l.length
  { x with
    dly := link.dly % 65536, asym := link.asym, state := pAUTH, since := now, active := laneSet (l.take n), failed := lanes.failed
    width := n, spare := (l.take n).contains 4 }

/-- The part with a port that has trained, and has drawn its nonce, but has sent nothing. -/
def State.trained (s : State) (port : Nat) (x : Port) : State :=
  let t := ((s.setPort port x.suspend).random 32).1
  t.setPort port { t.port port with nonces := Config.random s.mss.draws 32 }

theorem State.trained_port (s : State) (port : Nat) (x : Port) :
    (s.trained port x).port port = { x.suspend with nonces := Config.random s.mss.draws 32 } := by
  have h : ((s.setPort port x.suspend).random 32).1.port port = x.suspend := State.port_setPort s port _
  rw [State.trained, State.port_setPort, h]

theorem State.trained_onlyPort (s : State) (port : Nat) (x : Port) : onlyPort s (s.trained port x) port := by
  have h : onlyPort s ((s.setPort port x.suspend).random 32).1 port := (onlyPort_refl s port).setPort _
  exact h.setPort _

/-- PORT_TRAINING_DONE: the port sends its certificate chain, then its nonce. -/
theorem portTrainingDone_sends {s : State} {port : Nat} {lanes : Lanes} {link : LinkTimes}
    (hi : (Instr.portTrainingDone port lanes link).wf = true) (hx : (s.port port).state = 1)
    (hn : ((laneList lanes.good).take 4).isEmpty = false) :
    exec (.portTrainingDone port lanes link) s
      = .next (((s.trained port ((s.port port).trained s.clk.tbt.toNat lanes link)).sendPartner port
          (.auth (.chain s.mss.chain (BitVec.ofNat 4 port)))).sendPartner port (.auth (.nonce (Config.random s.mss.draws 32)))) := by
  have hc : ¬ ((decide ((s.port port).state ≠ pTRAINING) || ((laneList lanes.good).take 4).isEmpty) = true) := by
    rw [hx, hn]
    decide
  refine exec_next hi ?_
  rw [exec_portTrainingDone, execPortTrainingDone, if_neg hc]
  rfl

/-- A packet of VC3 that a port may send changes its transmit queue, and the rest of the part not at all. -/
theorem State.sendPartner_ite (s : State) (p : Nat) (c : Prop) [Decidable c] (b : Own) :
    onlyPort s (if c then s.sendPartner p b else s) p ∧ (if c then s.sendPartner p b else s).fab = s.fab
      ∧ ∃ l q, (if c then s.sendPartner p b else s).port p = { s.port p with txq := l, qhwm := q } := by
  refine ⟨?_, ?_, ?_⟩
  · split
    · exact (onlyPort_refl s p).sendPartner b
    · exact onlyPort_refl s p
  · split
    · unfold State.sendPartner State.sendOwn
      dsimp only
      split <;> rfl
    · rfl
  · split
    · by_cases h : (s.port p).linked = true
      · obtain ⟨y, q, e, -, -⟩ := State.sendPartner_writes b h
        exact ⟨_, q, by rw [e, State.port_setPort]⟩
      · refine ⟨(s.port p).txq, (s.port p).qhwm, ?_⟩
        unfold State.sendPartner State.sendOwn
        dsimp only
        rw [if_neg h]
    · exact ⟨_, _, rfl⟩

/-- The part with a port whose partner has joined: the port is UP, and the routes and the master's list of IDs are in place. -/
def State.joinedPort (s : State) (port : Nat) (partner : BitVec 12) (pport : BitVec 4) (rs : List (Nat × W32))
    (ids : List (List Byte × Nat)) : State :=
  let t := s.setPort port { s.port port with
    state := pUP, since := s.clk.tbt.toNat, peer := BitVec.ofNat 32 (partner.toNat + fld pport.toNat 12 4 + fld 1 16 1) }
  { t with fab := { t.fab with
    rt := rs.foldl (fun (m : SMap W32) r => if r.1 < 4096 then tput 0 m r.1 r.2 else m) t.fab.rt, ids := ids } }

theorem State.joinedPort_port (s : State) (port : Nat) (partner : BitVec 12) (pport : BitVec 4) (rs : List (Nat × W32))
    (ids : List (List Byte × Nat)) :
    (s.joinedPort port partner pport rs ids).port port = { s.port port with
      state := pUP, since := s.clk.tbt.toNat
      peer := BitVec.ofNat 32 (partner.toNat + fld pport.toNat 12 4 + fld 1 16 1) } := by
  simp only [State.joinedPort, State.setPort, State.port, tget_tput_self]

theorem State.joinedPort_onlyPort (s : State) (port : Nat) (partner : BitVec 12) (pport : BitVec 4) (rs : List (Nat × W32))
    (ids : List (List Byte × Nat)) : onlyPort s (s.joinedPort port partner pport rs ids) port :=
  ⟨unitsKept_refl s, fun _ hp => by
    simp only [State.joinedPort, State.setPort, State.port, tget_tput_ne _ _ _ hp]⟩

/-- The partner has joined: the port is UP, and its routes stand in the table. -/
theorem portJoinDone_joins {s : State} {port : Nat} {partner : BitVec 12} {pport : BitVec 4} {serial : List Byte}
    {rs : List (Nat × W32)} (hi : (Instr.portJoinDone port partner pport serial rs).wf = true)
    (hx : (s.port port).state = 3) (hv : s.fab.idValid = true)
    (hm : s.fab.role = 1 → s.fab.idFor serial = some partner.toNat) :
    ∃ t l q, exec (.portJoinDone port partner pport serial rs) s = .next t ∧ onlyPort s t port
      ∧ t.port port = { s.port port with
          state := 4, since := s.clk.tbt.toNat, txq := l, qhwm := q
          peer := BitVec.ofNat 32 (partner.toNat + fld pport.toNat 12 4 + fld 1 16 1) }
      ∧ t.fab.rt = rs.foldl (fun (m : SMap W32) r => if r.1 < 4096 then tput 0 m r.1 r.2 else m) s.fab.rt
      ∧ t.fab.devId = s.fab.devId := by
  have hc : ¬ ((decide ((s.port port).state ≠ pJOIN) || !s.fab.idValid
      || (decide (s.fab.role = 1) && decide (s.fab.idFor serial ≠ some partner.toNat))) = true) := by
    rw [hx, hv]
    by_cases hr : s.fab.role = 1
    · simp [hr, hm hr, pJOIN]
    · simp [hr, pJOIN]
  obtain ⟨ids, he⟩ : ∃ ids, exec (.portJoinDone port partner pport serial rs) s
      = .next (if s.fab.role = 1 then (s.joinedPort port partner pport rs ids).sendPartner port
          (.mgmt (.assignId partner (BitVec.ofNat 16 s.fab.epoch) (BitVec.ofNat 12 s.fab.devId)))
        else s.joinedPort port partner pport rs ids) := by
    refine ⟨if s.fab.role = 1 && !(s.fab.ids.any fun y => y.1 = serial) then s.fab.ids ++ [(serial, partner.toNat)] else s.fab.ids,
      exec_next hi (t := if s.fab.role = 1 then _ else _) ?_⟩
    rw [exec_portJoinDone, execPortJoinDone, if_neg hc]
    rfl
  obtain ⟨ho, hf, l, q, hp⟩ := (s.joinedPort port partner pport rs ids).sendPartner_ite port (s.fab.role = 1)
    (.mgmt (.assignId partner (BitVec.ofNat 16 s.fab.epoch) (BitVec.ofNat 12 s.fab.devId)))
  refine ⟨_, l, q, he, (s.joinedPort_onlyPort port partner pport rs ids).trans ho, ?_, ?_, ?_⟩
  · rw [hp, State.joinedPort_port]
    rfl
  · rw [hf]
    rfl
  · rw [hf]
    rfl

theorem portsComeUp : PortsComeUp := by
  intro s port lanes failed dly asym enc serial d partner pport rs e
  dsimp only
  refine ⟨fun hi hx hn => ?_, fun hi hx he => ?_, fun hi hx hv hm hd => ?_⟩
  · have hp := s.trained_port port ((s.port port).trained s.clk.tbt.toNat ⟨lanes, failed⟩ ⟨dly, asym⟩)
    obtain ⟨a, b, q, ht, ha, hb⟩ := State.sendPartner_twice (.auth (.chain s.mss.chain (BitVec.ofNat 4 port)))
      (.auth (.nonce (Config.random s.mss.draws 32))) (by rw [hp]; rfl)
    refine ⟨_, a, b, portTrainingDone_sends hi hx (laneList_take_isEmpty hn),
      ((s.trained_onlyPort port _).sendPartner _).sendPartner _, ?_⟩
    rw [ht, hp]
    exact ⟨rfl, rfl, widthOf_laneList hn, rfl, rfl, rfl, rfl, ha, hb⟩
  · have hg : (true && true && (enc || !(s.port port).cfg.getLsbD 1)) = true := by
      rcases he with h | h
      · rw [h]; rfl
      · rw [h]; cases enc <;> rfl
    refine ⟨_, exec_next hi ?_, ((onlyPort_refl s port).ledgerPeer port serial true).setPort _,
      State.port_setPort _ _ _⟩
    rw [exec_portAuthDone, execPortAuthDone]
    dsimp only
    rw [if_neg (not_not.2 (show (s.port port).state = pAUTH from hx)), if_pos hg, hg, State.ledgerPeer_tbt]
    rfl
  · obtain ⟨t, l, q, ht, ho, hp, hrt, hdev⟩ := portJoinDone_joins hi hx hv hm
    refine ⟨t, ht, ho, ?_, ?_, ?_, ?_, hdev⟩
    · rw [hp]
    · rw [hp]
    · rw [hp]
      exact peer_word partner pport
    · rw [hrt]
      exact tget_installRoutes rs d e s.fab.rt hd

/-! ### Lanes -/

/-- Lanes but one, and the spare lane. -/
theorem laneSet_spare : ∀ (a : BitVec 5) (k i : Fin 5), a.getLsbD 4 = false →
    ((laneSet (((laneList a).filter fun j => j ≠ k.val) ++ [4])).getLsbD i = true ↔ i.val = 4 ∨ i ≠ k ∧ a.getLsbD i = true) := by
  decide

/-- Half the lanes, but one that failed. -/
theorem laneSet_narrow : ∀ (a : BitVec 5) (k : Fin 5) (n : Fin 3),
    (laneSet (((laneList a).filter fun j => j ≠ k.val).take n)).getLsbD k = false := by
  decide

/-- A lane among those that failed. -/
theorem failed_lane (f : BitVec 5) {k : Nat} (hk : k < 5) : (f ||| BitVec.ofNat 5 (2 ^ k)).getLsbD k = true := by
  obtain rfl | rfl | rfl | rfl | rfl : k = 0 ∨ k = 1 ∨ k = 2 ∨ k = 3 ∨ k = 4 := by omega
  all_goals rw [BitVec.getLsbD_or, Bool.or_eq_true]; exact .inr (by decide)

theorem State.ledgerPort_port (s : State) (p q : Nat) : (s.ledgerPort p).port q = s.port q := by
  unfold State.port State.ledgerPort
  rw [State.ledger_ports]

theorem State.narrow_port (s : State) (p : Nat) (x : Port) (l : List Nat) :
    (s.narrow p x l).port p = ({ x with
      width := x.width / 2, active := laneSet (l.take (x.width / 2)), spare := (l.take (x.width / 2)).contains 4, retrain := true
      busy := s.clk.tbt.toNat + 80000 }).suspend :=
  (State.ledgerPort_port _ _ _).trans (State.port_setPort _ _ _)

theorem State.narrow_unitsKept (s : State) (p : Nat) (x : Port) (l : List Nat) : unitsKept s (s.narrow p x l) := by
  unfold State.narrow
  exact unitsKept_alert (unitsKept_ledgerPort (unitsKept_setPort _ _ _) p) 1

theorem spare_lane {a : BitVec 5} {k i : Nat} (hk : k < 5) (hi : i < 5) (h4 : a.getLsbD 4 = false) :
    (laneSet (((laneList a).filter fun j => j ≠ k) ++ [4])).getLsbD i = true ↔ i = 4 ∨ i ≠ k ∧ a.getLsbD i = true := by
  simpa only [ne_eq, Fin.mk.injEq] using laneSet_spare a ⟨k, hk⟩ ⟨i, hi⟩ h4

theorem narrowed_lane {a : BitVec 5} {k n : Nat} (hk : k < 5) (hn : n < 3) :
    (laneSet (((laneList a).filter fun j => j ≠ k).take n)).getLsbD k = false :=
  laneSet_narrow a ⟨k, hk⟩ ⟨n, hn⟩

section
variable {s : State} {p k : Nat}

/-- The lane of a port that is not DOWN has not failed before. -/
theorem laneFail_acts (hd : (s.port p).state ≠ 0) (hf : (s.port p).failed.getLsbD k = false) :
    ¬ (((s.port p).failed.getLsbD k || decide ((s.port p).state = pDOWN)) = true) := by
  rw [hf, Bool.false_or, decide_eq_true_eq]
  exact hd

/-- A lane that is not active fails. -/
theorem laneFail_inactive (hd : (s.port p).state ≠ 0) (hf : (s.port p).failed.getLsbD k = false)
    (ha : (s.port p).active.getLsbD k = false) :
    s.laneFail p k = s.setPort p { s.port p with failed := (s.port p).failed ||| BitVec.ofNat 5 (2 ^ k) } := by
  unfold State.laneFail
  dsimp only
  rw [if_neg (laneFail_acts hd hf), ha]
  rfl

/-- An active lane fails, and the spare lane takes its place. -/
theorem laneFail_spare (hd : (s.port p).state ≠ 0) (hf : (s.port p).failed.getLsbD k = false)
    (ha : (s.port p).active.getLsbD k = true) (hw : (s.port p).width = 4) (h4 : (s.port p).active.getLsbD 4 = false)
    (hs : (s.port p).failed.getLsbD 4 = false) (hk : k < 5) :
    s.laneFail p k = (s.setPort p { s.port p with
      failed := (s.port p).failed ||| BitVec.ofNat 5 (2 ^ k)
      active := laneSet (((laneList (s.port p).active).filter fun i => i ≠ k) ++ [4]), spare := true }).ledgerPort p := by
  have h4k : ((s.port p).failed ||| BitVec.ofNat 5 (2 ^ k)).getLsbD 4 = false := by
    have hk4 : k ≠ 4 := fun e => by rw [e, h4] at ha; cases ha
    obtain rfl | rfl | rfl | rfl : k = 0 ∨ k = 1 ∨ k = 2 ∨ k = 3 := by omega
    all_goals rw [BitVec.getLsbD_or, hs]; decide
  unfold State.laneFail
  dsimp only
  rw [if_neg (laneFail_acts hd hf), ha, hw, h4, h4k]
  rfl

/-- An active lane fails, and there is no spare: the port goes on with half its lanes. -/
theorem laneFail_narrow (hd : (s.port p).state ≠ 0) (hf : (s.port p).failed.getLsbD k = false)
    (ha : (s.port p).active.getLsbD k = true) (hw : (s.port p).width = 4 ∨ (s.port p).width = 2)
    (hs : (s.port p).width = 2 ∨ (s.port p).active.getLsbD 4 = true ∨ (s.port p).failed.getLsbD 4 = true) :
    s.laneFail p k = s.narrow p { s.port p with failed := (s.port p).failed ||| BitVec.ofNat 5 (2 ^ k) }
      ((laneList (s.port p).active).filter fun i => i ≠ k) := by
  have hn : ¬ ((decide ((s.port p).width = 4) && !(s.port p).active.getLsbD 4
      && !((s.port p).failed ||| BitVec.ofNat 5 (2 ^ k)).getLsbD 4) = true) := by
    rw [BitVec.getLsbD_or]
    rcases hs with h | h | h <;> simp [h]
  have h2 : 2 ≤ (s.port p).width := by omega
  unfold State.laneFail
  dsimp only
  rw [if_neg (laneFail_acts hd hf), ha, if_neg hn, if_pos h2]
  rfl

/-- What the failure of a lane does, where it does not take the port down. -/
theorem laneFail_fails (hk : k < 5) (hd : (s.port p).state ≠ 0) (hf : (s.port p).failed.getLsbD k = false)
    (hw : (s.port p).active.getLsbD k = false ∨ (s.port p).width = 4 ∨ (s.port p).width = 2) :
    unitsKept s (s.laneFail p k) ∧ laneFailed s (s.laneFail p k) p k
      ∧ ((s.laneFail p k).port p).bad = (s.port p).bad := by
  by_cases ha : (s.port p).active.getLsbD k = true
  · have hw : (s.port p).width = 4 ∨ (s.port p).width = 2 := hw.resolve_left (by rw [ha]; decide)
    by_cases hs : (s.port p).width = 2 ∨ (s.port p).active.getLsbD 4 = true ∨ (s.port p).failed.getLsbD 4 = true
    · rw [laneFail_narrow hd hf ha hw hs]
      have hn : (s.port p).width / 2 < 3 := by omega
      refine ⟨State.narrow_unitsKept _ _ _ _, ?_, ?_⟩
      · unfold laneFailed
        rw [State.narrow_port]
        refine ⟨fun h => absurd (ha.symm.trans h) (by decide), fun _ h h4 h4f => ?_,
          fun _ _ _ => ⟨rfl, rfl, rfl, rfl, narrowed_lane hk hn⟩⟩
        rw [h, h4, h4f] at hs
        exact absurd hs (by decide)
      · rw [State.narrow_port]
        rfl
    · obtain ⟨h2, h4, hs⟩ : (s.port p).width ≠ 2 ∧ (s.port p).active.getLsbD 4 = false ∧ (s.port p).failed.getLsbD 4 = false := by
        simpa only [not_or, Bool.not_eq_true] using hs
      rw [laneFail_spare hd hf ha (hw.resolve_right h2) h4 hs hk]
      refine ⟨unitsKept_ledgerPort (unitsKept_setPort _ _ _) p, ?_, ?_⟩
      · unfold laneFailed
        rw [State.ledgerPort_port, State.port_setPort]
        exact ⟨fun h => absurd (ha.symm.trans h) (by decide),
          fun _ h _ _ => ⟨rfl, h, rfl, failed_lane _ hk, fun i hi => spare_lane hk hi h4⟩,
          fun _ _ h => absurd h (by rw [h4, hs]; decide)⟩
      · rw [State.ledgerPort_port, State.port_setPort]
  · rw [Bool.not_eq_true] at ha
    rw [laneFail_inactive hd hf ha]
    refine ⟨unitsKept_refl s, ?_, ?_⟩
    · unfold laneFailed
      rw [State.port_setPort]
      exact ⟨fun _ => ⟨rfl, rfl, rfl, failed_lane _ hk⟩, fun h => absurd (ha.symm.trans h) (by decide),
        fun h => absurd (ha.symm.trans h) (by decide)⟩
    · rw [State.port_setPort]

end

/-! ### Windows of the FEC -/

theorem badWindows_getD {bs es : List Nat} (h : bs.length = es.length) {k : Nat} (hk : k < es.length) :
    (badWindows bs es).getD k 0 = if 10000 < es.getD k 0 then bs.getD k 0 + 1 else 0 := by
  induction bs generalizing es k with
  | nil =>
    rw [← h] at hk
    exact absurd hk (Nat.not_lt_zero k)
  | cons b bs ih =>
    cases es with
    | nil => exact absurd hk (Nat.not_lt_zero k)
    | cons e es =>
      cases k with
      | zero => rfl
      | succ k => exact ih (Nat.succ.inj h) (Nat.lt_of_succ_lt_succ hk)

theorem badWindows_length {bs es : List Nat} (h : bs.length = es.length) : (badWindows bs es).length = es.length := by
  induction bs generalizing es with
  | nil => rw [← h]; cases es <;> simp_all [badWindows]
  | cons b bs ih =>
    cases es with
    | nil => cases h
    | cons e es => exact congrArg (· + 1) (ih (Nat.succ.inj h))

/-- Windows within the limit count from zero again. -/
theorem badWindows_within {bs es : List Nat} (h : bs.length = es.length) (he : ∀ i, i < es.length → es.getD i 0 ≤ 10000) :
    badWindows bs es = List.replicate es.length 0 := by
  induction bs generalizing es with
  | nil => rw [← h]; cases es <;> simp_all [badWindows]
  | cons b bs ih =>
    cases es with
    | nil => cases h
    | cons e es =>
      have h0 : ¬ 10000 < e := Nat.not_lt.2 (he 0 (Nat.succ_pos _))
      rw [badWindows, if_neg h0, ih (Nat.succ.inj h) fun i hi => he (i + 1) (Nat.succ_lt_succ hi)]
      rfl

/-- Of five lanes, one. -/
theorem lanes_filter_one {p : Nat → Bool} {k : Nat} (hk : k < 5) (hp : ∀ i, i < 5 → (p i = true ↔ i = k)) :
    (upFrom 0 5).filter p = [k] := by
  have e : (upFrom 0 5).filter p = (upFrom 0 5).filter fun i => i = k :=
    List.filter_congr fun i hi => by
      rw [Bool.eq_iff_iff, hp i (by simpa [upFrom_zero] using hi), decide_eq_true_eq]
  rw [e]
  obtain rfl | rfl | rfl | rfl | rfl : k = 0 ∨ k = 1 ∨ k = 2 ∨ k = 3 ∨ k = 4 := by omega
  all_goals rfl

/-- A window within the limit on every lane. -/
theorem fecWindow_within {s : State} {port : Nat} {errors : List Nat} (hi : (Instr.fecWindow port errors).wf = true)
    (hb : (s.port port).bad.length = 5) (he : errors.length = 5) (hw : ∀ i, i < 5 → errors.getD i 0 ≤ 10000) :
    exec (.fecWindow port errors) s = .next (s.setPort port { s.port port with bad := [0, 0, 0, 0, 0], counts := errors }) := by
  have e : badWindows (s.port port).bad errors = [0, 0, 0, 0, 0] := by
    rw [badWindows_within (hb.trans he.symm) (by rw [he]; exact hw), he]
    rfl
  refine exec_next hi ?_
  rw [exec_fecWindow, execFecWindow]
  dsimp only
  rw [e, List.take_of_length_le (Nat.le_of_eq he)]
  rfl

/-- The third window in a row above the limit, on one lane. -/
theorem fecWindow_third {s : State} {port k : Nat} {errors : List Nat} (hi : (Instr.fecWindow port errors).wf = true)
    (hb : (s.port port).bad.length = 5) (he : errors.length = 5) (hk : k < 5) (h2 : (s.port port).bad.getD k 0 = 2)
    (hw : 10000 < errors.getD k 0) (ho : ∀ i, i ≠ k → errors.getD i 0 ≤ 10000) :
    ∃ l c, exec (.fecWindow port errors) s = .next ((s.setPort port { s.port port with bad := l, counts := c }).laneFail port k)
      ∧ l.getD k 0 = 0 := by
  have hl := hb.trans he.symm
  have hat : (badWindows (s.port port).bad errors).getD k 0 = 3 := by
    rw [badWindows_getD hl (by rw [he]; exact hk), if_pos hw, h2]
  have hone : (upFrom 0 5).filter (fun i => 3 ≤ (badWindows (s.port port).bad errors).getD i 0) = [k] :=
    lanes_filter_one hk fun i hi => by
      rw [decide_eq_true_eq]
      refine ⟨fun h => ?_, fun h => h ▸ Nat.le_of_eq hat.symm⟩
      by_contra hne
      rw [badWindows_getD hl (by rw [he]; exact hi), if_neg (Nat.not_lt.2 (ho i hne))] at h
      exact absurd h (by decide)
  refine ⟨(badWindows (s.port port).bad errors).map fun n => if 3 ≤ n then 0 else n, errors.take 5, exec_next hi ?_, ?_⟩
  · rw [exec_fecWindow, execFecWindow]
    dsimp only
    rw [hone]
    rfl
  · have hlt : k < (badWindows (s.port port).bad errors).length := by rw [badWindows_length hl, he]; exact hk
    rw [List.getD_eq_getElem _ 0 (by rw [List.length_map]; exact hlt), List.getElem_map, ← List.getD_eq_getElem _ 0 hlt, hat]
    rfl

theorem lanesFailAndRecover : LanesFailAndRecover := by
  intro s port k errors
  dsimp only
  refine ⟨fun hi hd hf hw => ?_, fun hi hb he => ⟨fun hw => ?_, fun hd hf hk h2 hw ho ha => ?_⟩, fun hi hl => ?_,
    fun hi hr hb => ?_, fun hi hd => ?_⟩
  · have hk : k < 5 := by
      simp only [Instr.wf, Instr.unitsOk, Bool.and_eq_true, decide_eq_true_eq] at hi
      exact hi.1.2
    obtain ⟨hu, hl, -⟩ := laneFail_fails hk hd hf hw
    exact ⟨_, exec_next hi rfl, hu, hl⟩
  · exact ⟨_, fecWindow_within hi hb he hw, (onlyPort_refl s port).setPort _, State.port_setPort _ _ _⟩
  · obtain ⟨l, c, e, h0⟩ := fecWindow_third hi hb he hk h2 hw ho
    have hp := State.port_setPort s port { s.port port with bad := l, counts := c }
    obtain ⟨hu, hlf, hbad⟩ := laneFail_fails (s := s.setPort port { s.port port with bad := l, counts := c }) hk
      (by rw [hp]; exact hd) (by rw [hp]; exact hf) (by rw [hp]; exact ha)
    unfold laneFailed at hlf
    rw [hp] at hlf hbad
    exact ⟨_, e, hu, hlf, by rw [hbad]; exact h0⟩
  · have h4 : ¬ 4 < (((s.port port).ueTbt.filter fun u => s.clk.tbt.toNat < u + 4000000000) ++ [s.clk.tbt.toNat]).length := by
      rw [List.length_append]
      exact Nat.not_lt.2 (Nat.succ_le_of_lt hl)
    refine ⟨_, exec_next hi ?_, (onlyPort_refl s port).setPort { s.port port with
      fecUe := satAdd (s.port port).fecUe 1
      ueTbt := ((s.port port).ueTbt.filter fun u => s.clk.tbt.toNat < u + 4000000000) ++ [s.clk.tbt.toNat] }, ?_, ?_, rfl⟩
    · rw [exec_uncorrectableCodeword, execUncorrectableCodeword]
      dsimp only
      rw [if_neg h4, if_neg h4]
    · rw [State.port_setPort]
      exact satAdd_one_toNat _
    · rw [State.port_setPort]
  · refine yields_of_wf hi rfl ?_
    dsimp only
    rw [hr, if_pos (by simpa using hb)]
  · refine yields_of_wf hi rfl ?_
    dsimp only
    rw [if_neg]
    rintro h
    simp only [bits, Bool.and_eq_true, decide_eq_true_eq, Nat.shiftRight_eq_div_pow] at h
    omega

/-- Settles O30: a port comes up through training, authentication and joining, and its lanes fail and recover. -/
theorem portsComeUpAndKeepTheirLanes : Obligations.PortsComeUpAndKeepTheirLanes := ⟨portsComeUp, lanesFailAndRecover⟩

end Sys2Proof.Machine
end

section
/-!
CLAIM PROOF. The values that registers hold right after a package reset (O53).
-/

namespace Sys2Proof.Machine

open Sys2Proof Sys2Proof.Safety Sys2Proof.Claims

/-- Settles O53: the tables of the part are empty after the reset, so that every unit reads its reset value. -/
theorem resetLeavesTheStatedValues : Obligations.ResetLeavesTheStatedValues := by
  have hjob (k : Nat) : State.reset.job k = Job.empty := rfl
  have hport (p : Nat) : State.reset.port p = Port.reset := rfl
  have hring (r : Nat) : State.reset.ring r = Ring.zero := rfl
  have hhub (h : Nat) : State.reset.hub h = Hub.reset := rfl
  refine ⟨fun _ => rfl, rfl, rfl, rfl, rfl, rfl, rfl, fun k => ?_, fun p => ?_, fun r => ?_, fun _ => rfl, fun _ => rfl,
    fun h => ?_, rfl, rfl, rfl⟩
  · rw [hjob]; rfl
  · rw [hport]; exact ⟨rfl, rfl, rfl⟩
  · rw [hring]; rfl
  · rw [hhub]; rfl

end Sys2Proof.Machine
end

section
/-!
SUPPORT. How a port takes a packet that is in sequence and good, and sends one of another device on (13 R381 to R393).
-/

namespace Sys2Proof.Machine

open Sys2Proof Sys2Proof.Safety Sys2Proof.Claims

/-! ### Arrival -/

/-- A port that has taken a packet. -/
def Port.taken (p : Port) (h : Header) : Port :=
  { p with rxPkt := p.rxPkt + 1, seqRx := (p.seqRx + 1) % 4096, owed := bump p.owed h.vc.toNat }

/-- The part with a packet taken by its port. -/
def State.arrived (s : State) (x : PktIn) : State := s.setPort x.port ((s.port x.port).taken x.hdr)

@[simp] theorem State.arrived_port (s : State) (x : PktIn) : (s.arrived x).port x.port = (s.port x.port).taken x.hdr :=
  State.port_setPort _ _ _

@[simp] theorem State.arrived_fab (s : State) (x : PktIn) : (s.arrived x).fab = s.fab := rfl

@[simp] theorem State.arrived_clk (s : State) (x : PktIn) : (s.arrived x).clk = s.clk := rfl

theorem State.arrived_port_ne (s : State) {x : PktIn} {p : Nat} (h : p ≠ x.port) : (s.arrived x).port p = s.port p :=
  State.port_setPort_ne _ _ h

section
variable {s : State} {x : PktIn}

/-- A packet in sequence and good, of a type that its VC permits, is taken. -/
theorem State.received_good (ht : (s.port x.port).takes x.hdr.type.toNat = true) (hs : x.hdr.seq.toNat = (s.port x.port).seqRx)
    (hst : x.stomp = false) (hg : PktGood x (s.port x.port).enc = true) (hty : typeOk x.hdr.type.toNat x.hdr.vc.toNat = true)
    (hh : x.hdr.hops ≠ 15) : s.received x = (s.arrived x, true) := by
  unfold State.received
  dsimp only
  rw [ht, hst, hg, hty, if_neg (by simpa using hs), if_neg (by decide), if_neg (by decide), if_neg (by simpa using hh)]
  rfl

/-- The types of VC3 go on no other VC (R382). -/
theorem vc_of_management {type vc : Nat} (h : typeOk type vc = true) (ht : 0x10 ≤ type) : vc = 3 := by
  unfold typeOk at h
  rw [if_neg (by simp; omega), if_neg (by simp; omega), if_neg (by simp; omega)] at h
  simp only [Bool.and_eq_true, decide_eq_true_eq] at h
  exact h.2

/-- A packet of VC3 for this device, from a source that is no spoof, acts. -/
theorem State.packet_accepted {type : Nat} (ha : accepted s x type) (ht : 0x10 ≤ type) (own : Option Own) (act : State → State) :
    s.packet x type own act = act (s.arrived x) := by
  obtain ⟨hty, hst, hseq, hstomp, hgood, hok, hhops, hdev, hsrc⟩ := ha
  have hup : (s.port x.port).up = true := by rw [Port.up, hst]; rfl
  have hvc : x.hdr.vc ≠ 0 := fun h => by
    have := vc_of_management hok ht
    rw [h] at this
    exact absurd this (by decide)
  have hr : s.received x = (s.arrived x, true) :=
    State.received_good (by rw [Port.takes, hup]; rfl) hseq hstomp hgood (by rw [hty]; exact hok) hhops
  unfold State.packet
  rw [hr]
  dsimp only
  rw [hup, hsrc, if_neg (by simp [hty]), if_neg (by decide), if_neg (by decide), if_neg (not_not.2 hdev), if_neg (by decide),
    State.countTerm, if_pos hvc]

/-- A packet of VC3 of a link that is in AUTH acts. -/
theorem State.packet_auth (hty : x.hdr.type = 0x12) (hst : (s.port x.port).state = 2) (hseq : x.hdr.seq.toNat = (s.port x.port).seqRx)
    (hstomp : x.stomp = false) (hgood : PktGood x (s.port x.port).enc = true) (hvc : x.hdr.vc = 3) (hh : x.hdr.hops ≠ 15)
    (own : Option Own) (act : State → State) : s.packet x 0x12 own act = act (s.arrived x) := by
  have htn : x.hdr.type.toNat = 0x12 := by rw [hty]; rfl
  have hup : (s.port x.port).up = false := by rw [Port.up, hst]; rfl
  have hr : s.received x = (s.arrived x, true) :=
    State.received_good (by rw [Port.takes, hup, hst, htn]; rfl) hseq hstomp hgood (by rw [htn, hvc]; rfl) hh
  unfold State.packet
  rw [hr]
  dsimp only
  rw [hup, if_neg (by simp [htn]), if_neg (by decide), if_pos (by decide)]

/-- A packet for another device goes on. -/
theorem State.packet_transit (hst : (s.port x.port).state = 4) (hseq : x.hdr.seq.toNat = (s.port x.port).seqRx)
    (hstomp : x.stomp = false) (hgood : PktGood x (s.port x.port).enc = true)
    (hok : typeOk x.hdr.type.toNat x.hdr.vc.toNat = true) (hh : x.hdr.hops ≠ 15) (hdev : fabDev x.hdr.addr.toNat ≠ s.fab.devId)
    (own : Option Own) (act : State → State) :
    s.packet x x.hdr.type.toNat own act = (s.arrived x).forward x.port x.hdr x.data own := by
  have hup : (s.port x.port).up = true := by rw [Port.up, hst]; rfl
  have hr : s.received x = (s.arrived x, true) := State.received_good (by rw [Port.takes, hup]; rfl) hseq hstomp hgood hok hh
  unfold State.packet
  rw [hr]
  dsimp only
  rw [hup, if_neg (by simp), if_neg (by decide), if_neg (by decide), if_pos hdev]

end

/-! ### Transit -/

/-- A packet as it leaves for another device: one hop more. -/
def forwarded (t port : Nat) (h : Header) (data : List Byte) (own : Option Own) : TxPkt :=
  ⟨{ h with hops := h.hops + 1 }, data, h.vc = 0 || (h.vc = 2 && h.status.getLsbD 3), t, some port, 0, .none, own⟩

/-- A packet of VC1, VC2 or VC3 joins the transmit queue of the port of its route, and its place in the receive buffer stays taken. -/
theorem State.forward_routed {s : State} {port out : Nat} {h : Header} (data : List Byte) (own : Option Own) (hvc : h.vc ≠ 0)
    (hr : s.route (fabDev h.addr.toNat) = some out) (hup : (s.port out).up = true) (hm : s.fab.moved = []) (hne : out ≠ port) :
    s.forward port h data own = (s.keepBuffer port h.vc.toNat).setPort out
      ((s.port out).push (forwarded s.clk.tbt.toNat port h data own)) := by
  have hp : (s.keepBuffer port h.vc.toNat).port out = s.port out := State.port_setPort_ne _ _ hne
  have hmv : (s.keepBuffer port h.vc.toNat).fab.movedTo (fabDev h.addr.toNat) = false := by
    rw [State.keepBuffer, State.setPort_fab, Fabric.movedTo, hm]
    rfl
  unfold State.forward State.sendOn
  dsimp only
  rw [if_neg hvc, hr]
  dsimp only
  rw [hup, hp, hmv, if_neg (by decide), if_neg Bool.false_ne_true, ite_self]
  rfl

end Sys2Proof.Machine
end

section
/-!
CLAIM PROOF. Packets of VC3 act on the device, and packets for other devices go on (O33; 12 R367; 13 R391, R405, R411, R413).
-/

namespace Sys2Proof.Machine

open Sys2Proof Sys2Proof.Safety Sys2Proof.Claims

/-- Cores, HBM, jobs, the host interface and its registers are as they were. -/
def bystanders (s t : State) : Prop := t.cores = s.cores ∧ t.hbm = s.hbm ∧ t.host = s.host ∧ t.jobs = s.jobs ∧ t.cfg = s.cfg

theorem bystanders_arrived (s : State) (x : PktIn) : bystanders s (s.arrived x) := ⟨rfl, rfl, rfl, rfl, rfl⟩

theorem bystanders.setPort {s t : State} (h : bystanders s t) (p : Nat) (x : Port) : bystanders s (t.setPort p x) := h

/-- A command that leaves the bystanders as they were, and does something to the rest. -/
theorem goes_of {i : Instr} {s t : State} {p : State → Prop} (he : exec i s = .next t) (hb : bystanders s t) (hp : p t) :
    ∃ t, exec i s = .next t ∧ t.cores = s.cores ∧ t.hbm = s.hbm ∧ t.host = s.host ∧ t.jobs = s.jobs ∧ t.cfg = s.cfg ∧ p t := by
  obtain ⟨hco, hm, hh, hj, hc⟩ := hb
  exact ⟨t, he, hco, hm, hh, hj, hc, hp⟩

/-! ### Time -/

/-- Where no reference is lost, none returns. -/
theorem State.referenceBack_none {s : State} (rs : List Reference) (h : s.clk.lost = []) : s.referenceBack rs = s := by
  unfold State.referenceBack
  rw [h]
  rfl

/-- A message of the upstream device has come by a port: its arrival is stamped, and its LOCKED taken. -/
def State.timeHeard (s : State) (port : Nat) (locked : Bool) : State :=
  { s.setPort port { s.port port with tArr := some s.clk.tbt.toNat, tDep := none } with
    clk := { s.clk with timeAt := some s.clk.tbt.toNat, locked := locked } }

theorem bystanders.timeHeard {s t : State} (h : bystanders s t) (port : Nat) (locked : Bool) :
    bystanders s (t.timeHeard port locked) := by
  unfold bystanders State.timeHeard
  simp only [State.setPort_cores, State.setPort_hbm, State.setPort_host, State.setPort_jobs, State.setPort_cfg]
  exact h

theorem State.timeHeard_port (s : State) (port : Nat) (locked : Bool) :
    (s.timeHeard port locked).port port = { s.port port with tArr := some s.clk.tbt.toNat, tDep := none } := by
  simp only [State.timeHeard, State.port, State.setPort, tget_tput_self]

section
variable {s : State} {x : PktIn}

/-- The downstream device hears its upstream device, and answers. -/
theorem pktTime_request {lk : Bool} (hi : (Instr.pktTime x (.request lk)).wf = true) (ha : accepted s x 0x10)
    (hf : s.clk.follows x.port = true) (hl : s.clk.lost = []) :
    exec (.pktTime x (.request lk)) s
      = .next (((s.arrived x).timeHeard x.port lk).sendPartner x.port (.time .answer)) := by
  have hb := State.referenceBack_none (s := (s.arrived x).timeHeard x.port lk) [.pps, .upstream] hl
  refine exec_next hi (congrArg (accept _) ((State.packet_accepted ha (by decide) _ _).trans ?_))
  dsimp only
  rw [State.arrived_clk, hf, if_neg (by decide)]
  exact congrArg (fun t : State => t.sendPartner x.port (.time .answer)) hb

/-- The upstream device stamps the answer. -/
theorem pktTime_answer (hi : (Instr.pktTime x .answer).wf = true) (ha : accepted s x 0x10) (hf : s.clk.follows x.port = false)
    (hd : (s.port x.port).tDep.isSome = true) :
    exec (.pktTime x .answer) s
      = .next ((s.arrived x).setPort x.port { (s.port x.port).taken x.hdr with tArr := some s.clk.tbt.toNat }) := by
  have hn : ((s.port x.port).taken x.hdr).tDep.isNone = false := by
    rw [← Option.not_isSome, show ((s.port x.port).taken x.hdr).tDep = (s.port x.port).tDep from rfl, hd]
    rfl
  refine exec_next hi (congrArg (accept _) ((State.packet_accepted ha (by decide) _ _).trans ?_))
  dsimp only
  rw [State.arrived_clk, State.arrived_port, hf, hn]
  rfl

end

/-! ### Cluster management -/

section
variable {s : State} {epoch master : Nat} {serial : List Byte}

/-- A device that is not the master hears it. -/
theorem State.heartbeat_member (h : s.fab.role ≠ 1) : s.heartbeat epoch master serial = { s with fab := { s.fab with
    epoch := epoch, masterId := master, heard := s.clk.tbt.toNat } } := by
  unfold State.heartbeat
  simp [h]

/-- A master yields to one of a higher epoch, or of the same epoch and a lower ID. -/
theorem State.heartbeat_yields (h : s.fab.role = 1) (hy : s.fab.epoch < epoch ∨ s.fab.epoch = epoch ∧ master < s.fab.devId) :
    s.heartbeat epoch master serial = { s with
      clk := { s.clk with master := false }
      fab := { s.fab with role := 0, epoch := epoch, masterId := master, heard := s.clk.tbt.toNat } } := by
  unfold State.heartbeat
  rcases hy with hy | ⟨he, hm⟩
  · simp [h, hy, hy.ne]
  · simp [h, he, hm, hm.ne]

/-- Of two primary candidates that with the higher serial becomes an alternate without an ID. -/
theorem State.heartbeat_rival (h : s.fab.role = 1) (he : s.fab.epoch = epoch) (hm : master = s.fab.devId)
    (hs : serialNum serial < serialNum s.mss.serial) :
    s.heartbeat epoch master serial = { s with
      clk := { s.clk with master := false }
      fab := { s.fab with role := 2, idValid := false, masterId := master, heard := s.clk.tbt.toNat } } := by
  unfold State.heartbeat
  simp [h, he, hm, hs]

end

/-- NX_UPSTREAM as a message of the master sets it (12 R374). -/
theorem upstream_word (p : BitVec 4) (d : BitVec 12) (n : BitVec 4) :
    (BitVec.ofNat 32 (p.toNat + fld d.toNat 4 12 + fld n.toNat 16 4 + fld 1 31 1)).toNat
      = p.toNat + 2 ^ 4 * d.toNat + 2 ^ 16 * n.toNat + 2 ^ 31 := by
  have hp := p.isLt
  have hd := d.isLt
  have hn := n.isLt
  rw [BitVec.toNat_ofNat, fld, fld, fld, Nat.shiftLeft_eq, Nat.shiftLeft_eq, Nat.shiftLeft_eq]
  omega

/-- A circuit is installed: the table of circuits has its entry, and of the rest of the part only a port changes. -/
theorem State.installCircuit_writes (s : State) (id : Nat) (c : Circ) (slots : List Nat) :
    ∃ ps, s.installCircuit id c slots
      = { s with fab := { s.fab with circ := tput Circ.none s.fab.circ id c }, ports := ps } := by
  unfold State.installCircuit
  dsimp only
  split
  · exact ⟨_, rfl⟩
  · exact ⟨_, rfl⟩

/-- A circuit is removed: its entry is marked, and of the rest of the part only a port changes. -/
theorem State.removeCircuit_writes (s : State) (id : Nat) :
    ∃ ps, s.removeCircuit id = { s with
      fab := { s.fab with circ := tput Circ.none s.fab.circ id { tget Circ.none s.fab.circ id with gone := true } }, ports := ps } := by
  unfold State.removeCircuit
  dsimp only
  split
  · exact ⟨_, rfl⟩
  · exact ⟨_, rfl⟩

/-! ### Transit -/

/-- A packet for another device joins the queue of the port of its route, with one hop more. -/
theorem pktTransit_goesOn {s : State} {x : PktIn} {out : Nat} (hi : (Instr.pktTransit x).wf = true) (hst : (s.port x.port).state = 4)
    (hseq : x.hdr.seq.toNat = (s.port x.port).seqRx) (hstomp : x.stomp = false) (hgood : PktGood x (s.port x.port).enc = true)
    (hok : typeOk x.hdr.type.toNat x.hdr.vc.toNat = true) (hh : x.hdr.hops ≠ 15) (hdev : fabDev x.hdr.addr.toNat ≠ s.fab.devId)
    (hvc : x.hdr.vc ≠ 0) (hr : s.route (fabDev x.hdr.addr.toNat) = some out) (hne : out ≠ x.port) (hup : (s.port out).state = 4)
    (hm : s.fab.moved = []) :
    ∃ t, exec (.pktTransit x) s = .next t ∧ bystanders s t ∧ t.clk = s.clk ∧ t.plane = s.plane
      ∧ (t.port out).txq = (s.port out).txq ++ [forwarded s.clk.tbt.toNat x.port x.hdr x.data none] := by
  have hk : ¬ ((decide (fabDev x.hdr.addr.toNat = s.fab.devId) && knownType x.hdr.type.toNat) = true) := by
    simp [hdev]
  have hp := s.arrived_port_ne hne
  have hf := State.forward_routed (s := s.arrived x) (port := x.port) x.data none hvc hr
    (by rw [hp, Port.up, hup]; rfl) hm hne
  have hpk := State.packet_transit hst hseq hstomp hgood hok hh hdev none fun s => s
  obtain ⟨q, hpush⟩ := Port.push_writes ((s.arrived x).port out) (forwarded (s.arrived x).clk.tbt.toNat x.port x.hdr x.data none)
  have he : exec (.pktTransit x) s = .next (((s.arrived x).keepBuffer x.port x.hdr.vc.toNat).setPort out
      (((s.arrived x).port out).push (forwarded (s.arrived x).clk.tbt.toNat x.port x.hdr x.data none))) :=
    exec_next hi (by rw [exec_pktTransit, execPktTransit, if_neg hk, hpk, hf])
  refine ⟨_, he, ?_, ?_, ?_, ?_⟩
  · simp only [bystanders, State.keepBuffer, State.arrived, State.setPort_cores, State.setPort_hbm, State.setPort_host,
      State.setPort_jobs, State.setPort_cfg, and_self]
  · simp only [State.keepBuffer, State.arrived, State.setPort_clk]
  · simp only [State.keepBuffer, State.arrived, State.setPort_plane]
  · rw [State.port_setPort, hpush, hp]
    rfl

/-! ### The claim -/

/-- Settles O33: a packet that its port takes acts as its body says, and one for another device joins the queue of its route. -/
theorem managementPacketsAct : Obligations.ManagementPacketsAct := by
  intro s x id ep m dev up dep at0 fr rs ctrl bud slots lk cert nonce serial pn out
  dsimp only
  refine ⟨fun ha hf hl hi => ?_, fun ha hf hd hi => ?_, fun ha => ?_, fun hty hst hseq hstomp hgood hvc hh => ?_,
    fun hst hseq hstomp hgood hok hh hdev hvc hr hne hup hm hi => ?_⟩
  · have hp := (s.arrived x).timeHeard_port x.port lk
    rw [State.arrived_port] at hp
    obtain ⟨y, q, e, hy, -⟩ := State.sendPartner_writes (s := (s.arrived x).timeHeard x.port lk) (p := x.port) (.time .answer)
      (by rw [hp, Port.linked]; simp [Port.taken, ha.2.1, pUP])
    rw [hp] at e
    refine goes_of ((pktTime_request hi ha hf hl).trans (congrArg _ e)) (((bystanders_arrived s x).timeHeard _ _).setPort _ _) ?_
    rw [State.setPort_clk, State.port_setPort]
    exact ⟨rfl, rfl, rfl, y, rfl, hy⟩
  · refine goes_of (pktTime_answer hi ha hf hd) ((bystanders_arrived s x).setPort _ _) ?_
    rw [State.setPort_clk, State.port_setPort]
    exact ⟨rfl, rfl, rfl⟩
  · have act {b : MgmtBody} (hi : (Instr.pktMgmt x b).wf = true) :=
      exec_next hi (congrArg (accept _) (State.packet_accepted ha (by decide) (some (.mgmt b)) _))
    refine ⟨fun hr hi => ?_, fun hr hy hi => ?_, fun hr he hm hs hi => ?_, fun hv hi => ?_, fun hv hi => ?_, fun hi => ?_,
      fun hid hi => ?_, fun hid hi => ?_, fun hi => ?_, fun hi => ?_⟩
    · exact ⟨_, (act hi).trans (congrArg _ (State.heartbeat_member (s := s.arrived x) hr)), rfl, rfl, rfl, rfl, rfl, rfl, rfl, rfl,
        rfl⟩
    · exact ⟨_, (act hi).trans (congrArg _ (State.heartbeat_yields (s := s.arrived x) hr hy)), rfl, rfl, rfl, rfl, rfl, rfl, rfl, rfl⟩
    · exact ⟨_, (act hi).trans (congrArg _ (State.heartbeat_rival (s := s.arrived x) hr he hm hs)), rfl, rfl, rfl, rfl, rfl, rfl, rfl,
        rfl⟩
    · exact ⟨_, (act hi).trans (congrArg _ (if_neg (by rw [State.arrived_fab, hv]; decide))), rfl, rfl, rfl, rfl, rfl, rfl, rfl, rfl⟩
    · exact ⟨_, (act hi).trans (congrArg _ (if_pos hv)), rfl, rfl, rfl, rfl, rfl, rfl⟩
    · exact ⟨_, act hi, rfl, rfl, rfl, rfl, rfl, rfl, rfl⟩
    · obtain ⟨ps, e⟩ := (s.arrived x).installCircuit_writes id (circOf ctrl.toNat bud.toNat 0xFF)
        (slots.filter fun k => k < 1024 && k % 16 ≠ 15)
      exact ⟨_, (act hi).trans (congrArg _ ((if_neg (Nat.not_le.2 hid)).trans e)), rfl, rfl, rfl, rfl, rfl,
        tget_tput_self _ _ _ _, fun j hj => tget_tput_ne _ _ _ hj⟩
    · obtain ⟨ps, e⟩ := (s.arrived x).removeCircuit_writes id
      exact ⟨_, (act hi).trans (congrArg _ ((if_neg (Nat.not_le.2 hid)).trans e)), rfl, rfl, rfl, rfl, rfl,
        congrArg Circ.gone (tget_tput_self _ _ _ _), fun j hj => tget_tput_ne _ _ _ hj⟩
    · have hn := upstream_word up dev dep
      have he := act hi
      dsimp only at he
      generalize up.toNat + fld dev.toNat 4 12 + fld dep.toNat 16 4 + fld 1 31 1 = n at hn he
      exact ⟨_, he, rfl, rfl, rfl, rfl, rfl, hn⟩
    · exact ⟨_, act hi, rfl, rfl, rfl, rfl, rfl, rfl, rfl⟩
  · have act {b : AuthBody} (hi : (Instr.pktAuth x b).wf = true) :=
      exec_next hi (congrArg (accept _) (State.packet_auth hty hst hseq hstomp hgood hvc hh (some (.auth b)) _))
    have hact : ¬ ((s.port x.port).taken x.hdr).state ≠ pAUTH := not_not.2 hst
    refine ⟨fun hi => ?_, fun hi => ?_⟩
    · have he := act hi
      dsimp only at he
      rw [State.arrived_port, if_neg hact] at he
      refine goes_of he ((bystanders_arrived s x).setPort _ _) ?_
      rw [State.port_setPort, State.setPort_fab, State.arrived_fab]
      exact ⟨rfl, hst, rfl⟩
    · have he := act hi
      dsimp only at he
      rw [State.arrived_port, if_neg hact] at he
      obtain ⟨y, q, e, hy, -⟩ := State.sendPartner_writes (s := (s.arrived x).setPort x.port
          { (s.port x.port).taken x.hdr with nonces := ((s.port x.port).taken x.hdr).nonces ++ nonce }) (p := x.port)
        (.auth (.signature (Config.deviceSign (((s.arrived x).setPort x.port
          { (s.port x.port).taken x.hdr with nonces := ((s.port x.port).taken x.hdr).nonces ++ nonce }).transcript x.port))))
        (by rw [State.port_setPort, Port.linked]; simp [Port.taken, hst, pAUTH])
      rw [e] at he
      refine goes_of he (((bystanders_arrived s x).setPort _ _).setPort _ _) ?_
      rw [State.port_setPort, State.port_setPort, State.setPort_fab, State.setPort_fab, State.arrived_fab]
      exact ⟨rfl, rfl, _, y, rfl, hy⟩
  · obtain ⟨t, he, hb, hclk, hplane, hq⟩ := pktTransit_goesOn hi hst hseq hstomp hgood hok hh hdev hvc hr hne hup hm
    exact goes_of he hb ⟨hclk, hplane, _, hq, rfl, rfl, rfl⟩

end Sys2Proof.Machine
end

section
/-!
CLAIM PROOF. The timebase counts, follows its references, steps and holds over (O28; 12 R364 to R371).
-/

namespace Sys2Proof.Machine

open Sys2Proof Sys2Proof.Safety Sys2Proof.Claims

/-! ### The count -/

theorem State.tick_counts (s : State) : s.tick.clk.tbt = if s.clk.run then s.clk.tbt + 2 else s.clk.tbt := by
  unfold State.tick
  dsimp only
  split <;> rfl

theorem State.tick_keeps (s : State) : { s.tick with clk := { s.tick.clk with tbt := s.clk.tbt }, hc := s.hc } = s := by
  unfold State.tick
  dsimp only
  split <;> rfl

theorem State.tick_notes (s : State) : s.tick.hc.alerts = 0 ∧ s.tick.hc.locks = false := by
  unfold State.tick
  dsimp only
  split <;> exact ⟨rfl, rfl⟩

/-- The queue of commands is empty: one hcyc passes. -/
theorem idleStepCountsTheTimebase : IdleStepCountsTheTimebase := fun s hp =>
  ⟨s.tick, by rw [step, hp], s.tick_counts, s.tick_keeps, s.tick_notes⟩

/-! ### Offsets -/

theorem nearest_of_offset {t : Int} {m : Nat} {e : Int} (h : t = m * 4000000000 + e) (hlo : -2000000000 ≤ e) (hhi : e < 2000000000) :
    nearest t 4000000000 = m := by
  unfold nearest
  omega

/-- Steering takes no more than 20 ppm. -/
theorem steerOf_pos {e : Int} (h : 0 < e) : -20000 ≤ (steerOf e).toInt ∧ (steerOf e).toInt ≤ 0 := by
  have hn : Config.steerPpb e % 20001 < 20001 := Nat.mod_lt _ (by decide)
  rw [steerOf, if_neg (by omega), if_pos h]
  generalize Config.steerPpb e % 20001 = n at hn
  rw [BitVec.toInt_ofInt, Int.bmod_eq_of_le (by omega) (by omega)]
  omega

theorem steerOf_neg {e : Int} (h : e < 0) : 0 ≤ (steerOf e).toInt ∧ (steerOf e).toInt ≤ 20000 := by
  have hn : Config.steerPpb e % 20001 < 20001 := Nat.mod_lt _ (by decide)
  rw [steerOf, if_neg (by omega), if_neg (by omega)]
  generalize Config.steerPpb e % 20001 = n at hn
  rw [BitVec.toInt_ofInt, Int.bmod_eq_of_le (by omega) (by omega)]
  omega

/-- Once the count is aligned, an offset that is known is steered away, and nothing steps. -/
theorem State.align_aligned {s : State} (h : s.clk.aligned = true) (e : Int) :
    s.align e = { s with clk := { s.clk with steer := steerOf e, offset := some e } } := by
  unfold State.align
  dsimp only
  rw [h, Bool.or_true, if_pos rfl]

theorem State.align_back {s : State} (c : Prop) [Decidable c] (rs : List Reference) (hl : s.clk.lost = [])
    (ha : s.clk.aligned = true) (e : Int) :
    (if c then s.referenceBack rs else s).align e = { s with clk := { s.clk with steer := steerOf e, offset := some e } } := by
  rw [State.referenceBack_none rs hl, ite_self, State.align_aligned ha]

/-! ### PPS_IN -/

/-- An edge 4,000,000,000 ticks after the last valid one is due. -/
theorem due_of_second {o : Option Nat} {t : Nat} (h : o = none ∨ o = some (t - 4000000000) ∧ 4000000000 ≤ t) :
    (o.map fun p => decide (p + 4000000000 ≤ t + 4000000) && decide (t ≤ p + 4004000000)).getD true = true := by
  rcases h with h | ⟨h, h4⟩
  · rw [h, Option.map_none, Option.getD_none]
  · rw [h, Option.map_some, Option.getD_some, Bool.and_eq_true, decide_eq_true_eq, decide_eq_true_eq]
    omega

/-- An edge that comes too soon is not due. -/
theorem not_due_of_early {o : Option Nat} {l t : Nat} (h : o = some l) (ht : t < l + 3996000000) :
    (o.map fun p => decide (p + 4000000000 ≤ t + 4000000) && decide (t ≤ p + 4004000000)).getD true = false := by
  rw [h, Option.map_some, Option.getD_some, Bool.and_eq_false_iff, decide_eq_false_iff_not, decide_eq_false_iff_not]
  omega

/-- The clocks after a valid edge of PPS_IN at an offset `e` from the multiple. -/
def Clocks.edge (c : Clocks) (e : Int) : Clocks :=
  let ok := -8 ≤ e && e ≤ 8
  let n := if ok then c.valid + 1 else 0
  { c with
    ppsTbt := c.tbt, ppsErr := BitVec.ofInt 32 e, ppsSeen := true, lastPps := some c.tbt.toNat, valid := n
    locked := if ok then c.locked || 4 ≤ n else false, steer := steerOf e, offset := some e }

section
variable {s : State}

/-- An edge at an offset `e` from the multiple, as the device takes it. -/
theorem State.edge_taken (hl : s.clk.lost = []) (ha : s.clk.aligned = true) (e : Int) :
    (let ok := -8 ≤ e && e ≤ 8
     let n := if ok then s.clk.valid + 1 else 0
     let t := { s with clk := { s.clk with
       ppsTbt := s.clk.tbt, ppsErr := BitVec.ofInt 32 e, ppsSeen := true, lastPps := some s.clk.tbt.toNat, valid := n
       locked := if ok then s.clk.locked || 4 ≤ n else false } }
     let u := if t.clk.locked then t.referenceBack [.pps, .upstream] else t
     u.align e) = { s with clk := s.clk.edge e } := by
  dsimp only
  rw [State.align_back _ _ (by exact hl) (by exact ha)]
  rfl

/-- A device that is not the master ignores PPS_IN. -/
theorem ppsInEdge_ignored (hi : Instr.ppsInEdge.wf = true) (hm : s.clk.master = false) : yields .ppsInEdge s s :=
  yields_of_wf hi rfl (if_pos (by rw [hm]; rfl))

/-- An edge that is not due is counted. -/
theorem ppsInEdge_bad (hi : Instr.ppsInEdge.wf = true) (hm : s.clk.master = true)
    (hd : (s.clk.lastPps.map fun p => decide (p + 4000000000 ≤ s.clk.tbt.toNat + 4000000)
      && decide (s.clk.tbt.toNat ≤ p + 4004000000)).getD true = false) :
    exec .ppsInEdge s = .next { s with clk := { s.clk with ppsBad := satAdd s.clk.ppsBad 1 } } :=
  yields_of_wf hi rfl ((if_neg (by rw [hm]; decide)).trans (if_neg (by rw [hd]; decide)))

/-- An edge that is due is latched, judged, and steered against. -/
theorem ppsInEdge_valid (hi : Instr.ppsInEdge.wf = true) (hm : s.clk.master = true) (ha : s.clk.aligned = true) (hl : s.clk.lost = [])
    (hd : (s.clk.lastPps.map fun p => decide (p + 4000000000 ≤ s.clk.tbt.toNat + 4000000)
      && decide (s.clk.tbt.toNat ≤ p + 4004000000)).getD true = true) :
    exec .ppsInEdge s = .next { s with
      clk := s.clk.edge ((s.clk.tbt.toNat : Int) - nearest s.clk.tbt.toNat 4000000000 * 4000000000) } := by
  refine yields_of_wf hi rfl ((if_neg (by rw [hm]; decide)).trans ((if_pos hd).trans ?_))
  exact State.edge_taken hl ha _

end

/-- What the offset of an edge says of the clocks. -/
theorem Clocks.edge_locked (c : Clocks) (e : Int) :
    (c.edge e).locked = true ↔ (-8 ≤ e ∧ e ≤ 8) ∧ (c.locked = true ∨ 4 ≤ c.valid + 1) := by
  unfold Clocks.edge
  by_cases h : -8 ≤ e ∧ e ≤ 8 <;> simp [h]

theorem Clocks.edge_valid (c : Clocks) (e : Int) : (c.edge e).valid = if -8 ≤ e ∧ e ≤ 8 then c.valid + 1 else 0 := by
  unfold Clocks.edge
  by_cases h : -8 ≤ e ∧ e ≤ 8 <;> simp [h]

/-! ### The copies of the count -/

theorem State.copyTbt_of_island {s t : State} (i : Nat) (hi : t.island i = s.island i) (ht : t.clk.tbt = s.clk.tbt) :
    t.copyTbt i = s.copyTbt i := by
  unfold State.copyTbt
  rw [hi, ht]

theorem skew_within : ∀ n : Fin 17, (BitVec.ofNat 64 n.val - 8).toInt ≤ 8 ∧ -8 ≤ (BitVec.ofNat 64 n.val - 8).toInt := by decide

/-- The copy of an island lies within 8 ticks of the count. -/
theorem State.copyTbt_within (s : State) {i : Nat} (hi : i ≤ 136) :
    (s.copyTbt i - s.clk.tbt).toInt ≤ 8 ∧ -8 ≤ (s.copyTbt i - s.clk.tbt).toInt := by
  have hn : Config.copySkew i (s.island i).skew % 17 < 17 := Nat.mod_lt _ (by decide)
  rw [State.copyTbt, if_pos hi]
  generalize Config.copySkew i (s.island i).skew % 17 = n at hn
  have e : s.clk.tbt + BitVec.ofNat 64 n - 8 - s.clk.tbt = BitVec.ofNat 64 n - 8 := by
    generalize BitVec.ofNat 64 n = x
    bv_omega
  rw [e]
  exact skew_within ⟨n, hn⟩

/-! ### Time messages -/

theorem State.setPort_rest {s t : State} (h : { t with ports := s.ports } = s) (p : Nat) (x : Port) :
    { t.setPort p x with ports := s.ports } = s := h

/-- A port whose partner is not the upstream device. -/
theorem Clocks.follows_false {c : Clocks} {port : Nat}
    (h : c.master = true ∨ c.upstream.getLsbD 31 = false ∨ c.upstream.toNat % 16 ≠ port) : c.follows port = false := by
  unfold Clocks.follows bits
  rcases h with h | h | h
  · rw [h]; rfl
  · rw [h, Bool.and_false, Bool.false_and]
  · rw [Bool.and_eq_false_iff, decide_eq_false_iff_not, Nat.shiftRight_zero]
    exact .inr h

/-- A time request goes to a device downstream. -/
theorem timeMessageSend_sends {s : State} {port : Nat} (hi : (Instr.timeMessageSend port).wf = true) (hst : (s.port port).state = 4)
    (hf : s.clk.follows port = false) :
    exec (.timeMessageSend port) s = .next ((s.setPort port { s.port port with tDep := none, tArr := none }).sendPartner port
      (.time (.request s.clk.locked))) :=
  exec_next hi (congrArg (accept _) (if_neg (by rw [Port.up, hst, hf]; decide)))

theorem theTimebaseIsKept : TheTimebaseIsKept := by
  intro s i port m e
  dsimp only
  refine ⟨fun hi ha hl he hlo hhi => ⟨fun hm => ppsInEdge_ignored hi hm, fun hm hp => ?_, fun l hm hp ht => ?_⟩, fun hi hr ht => ?_,
    fun hi ht => ?_, fun hi hst hf => ?_, fun hf hr hle => ?_⟩
  · have hoff : (s.clk.tbt.toNat : Int) - nearest s.clk.tbt.toNat 4000000000 * 4000000000 = e := by
      rw [nearest_of_offset he hlo hhi, he]
      omega
    have hx := ppsInEdge_valid hi hm ha hl (due_of_second hp)
    rw [hoff] at hx
    exact ⟨_, hx, rfl, rfl, rfl, s.clk.edge_valid e, s.clk.edge_locked e,
      fun h => by rw [h]; rfl, fun h => steerOf_pos h, fun h => steerOf_neg h, rfl, rfl⟩
  · exact ⟨_, ppsInEdge_bad hi hm (not_due_of_early hp ht), satAdd_one_toNat _, rfl⟩
  · refine yields_of_wf hi rfl ?_
    dsimp only
    rw [if_pos (by rw [hr]; simpa using ht)]
  · refine yields_of_wf hi rfl ?_
    dsimp only
    rw [if_pos ht]
  · obtain ⟨y, q, hs, hy, hv⟩ := State.sendPartner_writes (s := s.setPort port { s.port port with tDep := none, tArr := none })
      (p := port) (.time (.request s.clk.locked)) (by rw [State.port_setPort, Port.linked]; simp [hst, pUP])
    rw [State.port_setPort] at hs
    refine ⟨_, y, (timeMessageSend_sends hi hst (Clocks.follows_false hf)).trans (congrArg _ hs), ?_, hy, hv, ?_, ?_, fun p hp => ?_,
      State.setPort_rest (State.setPort_rest rfl _ _) _ _⟩
    · rw [State.port_setPort]
    · rw [State.port_setPort]
    · rw [State.port_setPort]
    · rw [State.port_setPort_ne _ _ hp, State.port_setPort_ne _ _ hp]
  · have hc : (!s.gated && (s.island i).runs && decide (i ≤ 136)) = true := by
      rw [gated_of_fit hf, hr, decide_eq_true hle]
      rfl
    refine ⟨_, exec_next (wf_of_fit hf) (congrArg (accept _) (if_pos hc)), fun j hj => ?_, ?_, ?_, rfl, rfl, rfl⟩
    · exact State.copyTbt_of_island j (State.island_setIsland_ne s _ hj) rfl
    · exact (State.copyTbt_within (s.setIsland i _) hle).1
    · exact (State.copyTbt_within (s.setIsland i _) hle).2

end Sys2Proof.Machine
end

section
/-!
SUPPORT. Tables whose entries change all at once, and the parts of a step of the count (12 R365).
-/

namespace Sys2Proof.Machine

open Sys2Proof Sys2Proof.Safety Sys2Proof.Claims

/-! ### Tables -/

/-- What a key reads in a table whose entries have all changed, and which has dropped those that hold the default. -/
theorem tget_mapFilter {β : Type} [DecidableEq β] {d : β} (g : Nat → β → β) {m : SMap β} (h : twf d m = true) (k : Nat) :
    tget d ((m.map fun x => (x.1, g x.1 x.2)).filter fun x => x.2 ≠ d) k = g k (tget d m k)
      ∨ tget d ((m.map fun x => (x.1, g x.1 x.2)).filter fun x => x.2 ≠ d) k = d ∧ tget d m k = d := by
  have hm : trising 0 m = true := (Bool.and_eq_true_iff.1 h).1
  have hn : trising 0 ((m.map fun x => (x.1, g x.1 x.2)).filter fun x => x.2 ≠ d) = true :=
    (Bool.and_eq_true_iff.1 (twf_mapFilter (f := fun x => (x.1, g x.1 x.2)) (fun _ => rfl) h)).1
  rcases tget_mem (d := d) (m := (m.map fun x => (x.1, g x.1 x.2)).filter fun x => x.2 ≠ d) (k := k) with hd | hk
  · rcases tget_mem (d := d) (m := m) (k := k) with hd' | hk'
    · exact .inr ⟨hd, hd'⟩
    · left
      by_cases he : g k (tget d m k) = d
      · exact hd.trans he.symm
      · exact tget_of_mem (x := (k, g k (tget d m k))) hn
          (List.mem_filter.2 ⟨List.mem_map.2 ⟨_, hk', rfl⟩, by simpa using he⟩)
  · obtain ⟨x, hx, e⟩ := List.mem_map.1 (List.mem_filter.1 hk).1
    obtain ⟨h1, h2⟩ := Prod.mk.inj e
    left
    rw [← h2, ← h1, tget_of_mem hm hx]

/-! ### Frames of the fabric -/

theorem State.reroute_writes (s : State) (d : Nat) (e : W32) : ∃ f, s.reroute d e = { s with fab := f } := by
  unfold State.reroute
  dsimp only
  split
  · exact ⟨_, rfl⟩
  · split
    · exact ⟨_, rfl⟩
    · exact ⟨_, rfl⟩

/-- A frame of the fabric changes the fabric's tables and the ports, and nothing else. -/
theorem State.fabricFrame_writes (s : State) (n : Nat) : ∃ f ps, s.fabricFrame n = { s with fab := f, ports := ps } := by
  unfold State.fabricFrame
  refine List.foldlRecOn (motive := fun t : State => ∃ f ps, t = { s with fab := f, ports := ps }) _ _ ⟨_, _, rfl⟩ ?_
  rintro t ⟨f, ps, rfl⟩ r -
  obtain ⟨f', e⟩ := State.reroute_writes { s with fab := f, ports := ps } r.1 r.2
  exact ⟨f', ps, e⟩

/-! ### The step -/

/-- A step moves what a core measures its progress from, and nothing else of it. -/
theorem State.core_shift {s : State} (mv : Nat → Nat) (h : twf Core.reset s.cores = true) (k : Nat) :
    ((s.shift mv).core k).regs = (s.core k).regs ∧ ((s.shift mv).core k).mem = (s.core k).mem
      ∧ ((s.shift mv).core k).tm = (s.core k).tm := by
  rcases tget_mapFilter (fun _ x => { x with rn := { x.rn with progress := mv x.rn.progress } }) h k with e | ⟨e, e'⟩
  · have hc : (s.shift mv).core k = { s.core k with rn := { (s.core k).rn with progress := mv (s.core k).rn.progress } } := e
    rw [hc]
    exact ⟨rfl, rfl, rfl⟩
  · have hc : (s.shift mv).core k = s.core k := e.trans e'.symm
    rw [hc]
    exact ⟨rfl, rfl, rfl⟩

/-- An instant after a step of `d` ticks. -/
def stepped (d : Int) (t : Nat) : Nat := ((t : Int) + d).toNat

/-- The part after the count has stepped by `d` ticks, before the frames turn. -/
def State.stepCount (s : State) (d : Int) (rest : List (Nat × Int)) : State :=
  let t := s.clk.tbt + BitVec.ofInt 64 d
  let s := s.shift (stepped d)
  { s with clk := { s.clk with tbt := t, steps := rest, stepped := true } }

/-- The part after a step of the count, from frame `n` on. -/
def State.stepFrames (s : State) (n : Nat) : State :=
  let s := (s.fabricFrame n).frames (BitVec.ofNat 64 n) (upFrom 0 4)
  let s := { s with hbm := s.hbm.handOn }
  { s with hbm := { s.hbm with
    cal := turnCalendar s.hbm.cal
    resv := s.hbm.resv.filter fun x => !x.2.gone
    last := [] } }

/-- TIMEBASE_STEP of the first step that is planned. -/
theorem timebaseStep_steps {s : State} {t0 : Nat} {m : Int} {rest : List (Nat × Int)} (hi : Instr.timebaseStep.wf = true)
    (hs : s.clk.steps = (t0, m) :: rest) (ht : t0 ≤ s.clk.tbt.toNat) :
    exec .timebaseStep s = .next ((s.stepCount (16384 * m) rest).stepFrames
      ((s.clk.tbt + BitVec.ofInt 64 (16384 * m)).toNat / 16384)) := by
  refine exec_next hi ?_
  rw [exec_timebaseStep, execTimebaseStep, hs, pick_head (by simpa using ht)]
  rfl

theorem State.stepFrames_facts {s : State} {n : Nat} (hn : n < 2 ^ 64) (hc : twf CalEntry.elastic s.hbm.cal = true) :
    (s.stepFrames n).clk = s.clk ∧ (s.stepFrames n).cores = s.cores ∧ (s.stepFrames n).queues = s.queues
      ∧ (s.stepFrames n).hbm.mem = s.hbm.mem ∧ (∀ h, h < 4 → ((s.stepFrames n).hub h).frame.toNat = n)
      ∧ ∀ p q, (s.stepFrames n).hbm.entry p q = (s.hbm.entry p q).turn := by
  obtain ⟨f, ps, hf⟩ := s.fabricFrame_writes n
  have hframe : ∀ h, h < 4 → (((s.fabricFrame n).frames (BitVec.ofNat 64 n) (upFrom 0 4)).hub h).frame.toNat = n := by
    intro h h4
    rw [State.frame_frames _ _ (.inl (mem_upFrom.2 ⟨h.zero_le, by omega⟩)), BitVec.toNat_ofNat, Nat.mod_eq_of_lt hn]
  have hs := State.frames_eq (s.fabricFrame n) (BitVec.ofNat 64 n) (upFrom 0 4)
  unfold State.stepFrames State.hub at *
  dsimp only
  generalize (s.fabricFrame n).frames (BitVec.ofNat 64 n) (upFrom 0 4) = u at hframe hs ⊢
  rw [hf] at hs
  have hclk : u.clk = s.clk := (congrArg State.clk hs :)
  have hcores : u.cores = s.cores := (congrArg State.cores hs :)
  have hqueues : u.queues = s.queues := (congrArg State.queues hs :)
  have hu : u.hbm = s.hbm := (congrArg State.hbm hs :)
  have hmem : u.hbm.handOn.mem = s.hbm.mem := by rw [hu, Hbm.handOn_eq]
  have hcal : u.hbm.handOn.cal = s.hbm.cal := by rw [hu, Hbm.handOn_eq]
  refine ⟨hclk, hcores, hqueues, hmem, hframe, fun p q => Hbm.entry_turnCalendar hc ?_ p q⟩
  exact congrArg turnCalendar hcal

end Sys2Proof.Machine
end

section
/-!
CLAIM PROOF. Steps of the count, the loss of references, and holdover (O28; 12 R365, R370, R371).
-/

namespace Sys2Proof.Machine

open Sys2Proof Sys2Proof.Safety Sys2Proof.Claims

/-! ### The ledger and alerts -/

theorem State.ledger_buf {s : State} (h : s.mss.ledBuf.length < 256) (ty : Nat) (d : List Byte) :
    ∃ x, (s.ledger ty d).mss.ledBuf = s.mss.ledBuf ++ [x] ∧ x.type = ty ∧ x.seq = s.mss.ledSeq := by
  unfold State.ledger
  rw [if_pos h]
  exact ⟨_, rfl, rfl, rfl⟩

theorem State.alert_zero (s : State) : (s.alert 0).mss.alert.getLsbD 0 = true := by
  have h : (s.mss.alert ||| BitVec.ofNat 7 (2 ^ 0)).getLsbD 0 = true := by
    rw [BitVec.getLsbD_or, Bool.or_eq_true]
    exact .inr (by decide)
  exact h

/-! ### The step -/

theorem CalEntry.turn_pending {e : CalEntry} (h : e.pend = true) : e.turn = ⟨e.kind2, e.res2, false, 0, 0⟩ := if_pos h

theorem CalEntry.turn_settled {e : CalEntry} (h : e.pend = false) : e.turn = e := if_neg (by rw [h]; decide)

theorem map_stepped (d : Int) (o : Option Nat) :
    o.map (stepped d) = (o >>= fun a => pure (a : Int)).map fun x => (x + d).toNat := by
  cases o with
  | none => rfl
  | some a => rfl

/-! ### Loss of a reference -/

/-- The clocks after the loss of a reference. -/
def Clocks.lose (c : Clocks) (r : Reference) : Clocks :=
  { c with
    lost := c.lost ++ [r], holdover := true, refLost := c.refLost || r.isClock
    holdTbt := if c.holdover then c.holdTbt else c.tbt
    lastPps := if r = Reference.pps then none else c.lastPps
    locked := if r = Reference.pps then false else c.locked
    valid := if r = Reference.pps then 0 else c.valid }

/-- The part that has lost a reference, before the ledger has its entry. Without CXL_REFCLK the host link is down. -/
def State.lose (s : State) (r : Reference) : State :=
  let t := if r = .cxlclk then s.linkDown else s
  { t with clk := s.clk.lose r }

theorem State.lose_mss (s : State) (r : Reference) : (s.lose r).mss = s.mss := by
  unfold State.lose
  dsimp only
  split <;> rfl

theorem State.lose_eq (s : State) {r : Reference} (h : r ≠ .cxlclk) : s.lose r = { s with clk := s.clk.lose r } := by
  unfold State.lose
  rw [if_neg h]

theorem State.lose_width (s : State) {r : Reference} (h : r = .cxlclk) : (s.lose r).host.width = 0 := by
  unfold State.lose
  rw [if_pos h]
  rfl

theorem referenceLoss_loses {s : State} {r : Reference} (hi : (Instr.referenceLoss r).wf = true) (hm : s.monitors r = true)
    (hs : s.clk.silent r = true) (hl : r ∉ s.clk.lost) :
    exec (.referenceLoss r) s = .next (((s.lose r).ledgerRef r).alert 0) := by
  refine yields_of_wf hi rfl ((if_neg ?_).trans ?_)
  · simp [hm, hs, hl]
  · unfold State.lose
    dsimp only
    split
    · rfl
    · rfl

/-! ### The end of holdover -/

/-- A lost reference has returned: the others remain lost, and holdover lasts while there are any. -/
theorem State.referenceBack_returns {s : State} {r : Reference} (h : r ∈ s.clk.lost) :
    ∃ x m c, s.referenceBack [r] = { s with
      clk := { s.clk with
        lost := s.clk.lost.filter fun y => !([r].contains y), holdover := !(s.clk.lost.filter fun y => !([r].contains y)).isEmpty
        refLost := x }
      mss := m, hc := c } := by
  unfold State.referenceBack
  cases hb : s.clk.lost.filter fun y => [r].contains y with
  | nil =>
    have hn := List.filter_eq_nil_iff.1 hb r h
    simp at hn
  | cons y ys =>
    dsimp only
    split
    · obtain ⟨m, c, e⟩ := State.ledger_writes _ _ _
      exact ⟨_, m, c, e⟩
    · exact ⟨_, _, _, rfl⟩

theorem stepsAndHoldover : StepsAndHoldover := by
  intro s t0 m rest r
  refine ⟨fun hi hs ht hcal hcor => ?_, fun hi hp hu hs hl => ?_, fun hi hl hp hu => ?_⟩
  · have hn : (s.clk.tbt + BitVec.ofInt 64 (16384 * m)).toNat / 16384 < 2 ^ 64 := by
      have := (s.clk.tbt + BitVec.ofInt 64 (16384 * m)).isLt
      omega
    obtain ⟨hclk, hcores, hq, hmem, hframe, hentry⟩ := State.stepFrames_facts (s := s.stepCount (16384 * m) rest) hn hcal
    have hx := timebaseStep_steps hi hs ht
    generalize (s.stepCount (16384 * m) rest).stepFrames ((s.clk.tbt + BitVec.ofInt 64 (16384 * m)).toNat / 16384) = u at *
    have htbt : u.clk.tbt = s.clk.tbt + BitVec.ofInt 64 (16384 * m) := congrArg Clocks.tbt hclk
    have hcore (k : Nat) : u.core k = (s.shift (stepped (16384 * m))).core k := congrArg (tget Core.reset · k) hcores
    refine ⟨u, hx, htbt, congrArg Clocks.steps hclk, congrArg Clocks.stepped hclk, fun h h4 => ?_, fun p q _ he => ?_, fun p q _ he => ?_,
      congrArg Clocks.stopAt hclk, (congrArg Clocks.lastPps hclk).trans (map_stepped _ _), hmem, hq, fun k => ?_⟩
    · rw [htbt]
      exact hframe h h4
    · exact (hentry p q).trans (CalEntry.turn_pending he)
    · exact (hentry p q).trans (CalEntry.turn_settled he)
    · rw [hcore]
      exact State.core_shift _ hcor k
  · have hm : s.monitors r = true := by
      cases r <;> simp_all [State.monitors]
    have hmss := s.lose_mss r
    obtain ⟨m', c, hw⟩ := (s.lose r).ledger_writes 0x0003 (leBytes r.code 1 ++ leBytes (s.lose r).clk.holdTbt.toNat 8)
    have hclk : (((s.lose r).ledgerRef r).alert 0).clk = s.clk.lose r := congrArg State.clk hw
    refine ⟨_, referenceLoss_loses hi hm hs hl, ?_, ?_, ?_, ?_, fun h => ?_, fun h => ?_, State.alert_zero _, fun hb => ?_, fun h => ?_,
      fun h => ?_⟩
    · rw [hclk]; rfl
    · rw [hclk]; rfl
    · rw [hclk]; rfl
    · rw [hclk]; rfl
    · rw [hclk]; exact if_pos h
    · rw [hclk]; exact if_neg h
    · rw [← hmss]
      exact State.ledger_buf (by rw [hmss]; exact hb) _ _
    · have hl' : (s.lose r).ledgerRef r = { s.lose r with mss := m', hc := c } := hw
      rw [hl', s.lose_eq h]
      rfl
    · exact (congrArg (·.host.width) hw).trans (s.lose_width h)
  · obtain ⟨x, m', c, e⟩ := State.referenceBack_returns hl
    have hx : exec (.holdoverEnd r) s = .next (s.referenceBack [r]) := by
      refine yields_of_wf hi rfl (if_pos ?_)
      cases r <;> simp_all
    rw [e] at hx
    refine ⟨_, hx, ?_, ?_, fun y hy => ?_, rfl, rfl, rfl⟩
    · simp
    · simp
    · simp [hy]

/-- Settles O28: the count runs on an empty queue, is corrected by PPS_IN, steps by whole frames and holds over. -/
theorem theTimebaseIsKeptAndStepped : Obligations.TheTimebaseIsKeptAndStepped :=
  ⟨idleStepCountsTheTimebase, theTimebaseIsKept, stepsAndHoldover⟩

end Sys2Proof.Machine
end

section
/-!
CLAIM PROOF. The stop for a change of operating point (O29; 12 R360 to R363; 17 R515).
-/

namespace Sys2Proof.Machine

open Sys2Proof Sys2Proof.Safety Sys2Proof.Claims

/-! ### Gated clocks -/

/-- What a key reads in a table whose entries have all changed, where no change makes anything of the default. -/
theorem tget_map {β : Type} {d : β} (f : Nat × β → Nat × β) (g : Nat → β → β) (hf : ∀ x, f x = (x.1, g x.1 x.2)) (hd : ∀ k, g k d = d)
    (m : SMap β) (k : Nat) : tget d (m.map f) k = g k (tget d m k) := by
  induction m with
  | nil => exact (hd k).symm
  | cons x m ih =>
    obtain ⟨j, v⟩ := x
    rw [List.map_cons, hf]
    unfold tget
    split
    · next h => rw [h]
    · exact ih

/-- An island of the C-die whose clock is gated, or runs. -/
def Island.gate (x : Island) (on : Bool) (i : Nat) : Island := if i ≤ 136 && x.present then { x with clocked := on } else x

theorem State.island_gateClocks (s : State) (on : Bool) (i : Nat) : (s.gateClocks on).island i = (s.island i).gate on i := by
  refine tget_map _ (fun i (x : Island) => x.gate on i) (fun x => ?_) (fun k => ?_) _ _
  · unfold Island.gate
    split <;> rfl
  · exact if_neg (by simp [Island.off])

theorem Island.gate_present {x : Island} {i : Nat} (on : Bool) (hi : i ≤ 136) (hx : x.present = true) : (x.gate on i).clocked = on := by
  rw [Island.gate, hx, decide_eq_true hi]
  rfl

theorem Island.gate_beyond (x : Island) {i : Nat} (on : Bool) (hi : 136 < i) : x.gate on i = x := by
  rw [Island.gate, decide_eq_false (by omega), if_neg (by simp)]

/-! ### What a resumed core leaves alone -/

/-- HBM, the clocks and the host interface are as they were. -/
def resumeKept (s t : State) : Prop := t.hbm = s.hbm ∧ t.clk = s.clk ∧ t.host = s.host

theorem State.onCore_resumeKept (s : State) (k : Nat) (f : Env → Core → Core) : resumeKept s (s.onCore k f) := by
  cases hg : s.gated with
  | true =>
    rw [State.onCore_gated s k f hg]
    exact ⟨rfl, rfl, rfl⟩
  | false => exact ⟨s.onCore_hbm k f hg, s.onCore_clk k f hg, s.onCore_host k f hg⟩

theorem State.resumeCore_resumeKept (s : State) (k : Nat) : resumeKept s (s.resumeCore k) := by
  have hs : resumeKept s s := ⟨rfl, rfl, rfl⟩
  unfold State.resumeCore
  dsimp only
  split
  · exact hs
  · split
    · split
      · exact s.onCore_resumeKept k _
      · exact hs
    · split
      · obtain ⟨q, e⟩ := s.assignAt_queues k
        rw [e]
        split
        · exact hs
        · exact State.onCore_resumeKept { s with queues := q } k _
      · exact hs

theorem State.foldl_resumeKept (s : State) (l : List Nat) : resumeKept s (l.foldl State.resumeCore s) := by
  induction l generalizing s with
  | nil => exact ⟨rfl, rfl, rfl⟩
  | cons k l ih =>
    obtain ⟨hm, hc, hh⟩ := s.resumeCore_resumeKept k
    obtain ⟨hm', hc', hh'⟩ := ih (s.resumeCore k)
    exact ⟨hm'.trans hm, hc'.trans hc, hh'.trans hh⟩

theorem State.resumeAll_resumeKept (s : State) : resumeKept s s.resumeAll := by
  unfold State.resumeAll
  generalize upFrom 0 128 = l
  exact s.foldl_resumeKept l

/-- The change that comes next is noted, and nothing else changes. -/
theorem State.nextChange_writes (s : State) :
    ∃ ch j, s.nextChange = { s with clk := { s.clk with change := ch, joined := j } } := by
  unfold State.nextChange
  split
  · exact ⟨_, _, rfl⟩
  · split
    · exact ⟨_, _, rfl⟩
    · dsimp only
      split
      · exact ⟨_, _, rfl⟩
      · exact ⟨_, _, rfl⟩

/-- The cores go on, and the change that comes next is noted. -/
theorem State.resumeAll_nextChange (s : State) :
    s.resumeAll.nextChange.hbm = s.hbm ∧ s.resumeAll.nextChange.host = s.host
      ∧ ∃ ch j, s.resumeAll.nextChange.clk = { s.clk with change := ch, joined := j } := by
  obtain ⟨hm, hc, hh⟩ := s.resumeAll_resumeKept
  obtain ⟨ch, j, e⟩ := s.resumeAll.nextChange_writes
  generalize s.resumeAll = t at *
  rw [e, ← hc]
  exact ⟨hm, hh, ch, j, rfl⟩

/-! ### The claims -/

/-- The point that a SET_OP names is in the low bits of P0. -/
theorem Cmd.point_eq (c : Cmd) : c.point = c.p.p0.toNat % 8 := by
  rw [Cmd.point, bits, Nat.shiftRight_zero]
  rfl

/-- The part whose clocks run again, at a new point. -/
def State.restarted (s : State) (point host ticks : Nat) : State :=
  let t := s.gateClocks true
  { t with clk := { t.clk with
    stopped := false, op := point, hostOp := host, opChg := s.clk.opChg + 1, lastStop := BitVec.ofNat 32 ticks } }

/-- A change of the point has ended with a status; what waited for it goes on. -/
def State.changeEnds (s : State) (id : Nat) (st : Status) (d : Nat) : State :=
  let t := s.finish id st d
  ({ t with clk := { t.clk with change := none } }).resumeAll.nextChange

theorem State.changeEnds_facts (s : State) (id : Nat) (st : Status) (d : Nat) :
    (s.changeEnds id st d).hbm = s.hbm ∧ (s.changeEnds id st d).host = (s.finish id st d).host
      ∧ ∃ ch j, (s.changeEnds id st d).clk = { s.clk with change := ch, joined := j } := by
  have hf := s.finish_host id st d
  have hm : (s.finish id st d).hbm = s.hbm := (congrArg State.hbm hf :)
  have hc : (s.finish id st d).clk = s.clk := (congrArg State.clk hf :)
  unfold State.changeEnds
  dsimp only
  generalize s.finish id st d = t at *
  obtain ⟨hm', hh', ch, j, hc'⟩ := State.resumeAll_nextChange { t with clk := { t.clk with change := none } }
  refine ⟨hm'.trans hm, hh', ch, j, hc'.trans ?_⟩
  rw [hc]

/-- OP_STOP_BEGIN gates the clocks. -/
theorem opStopBegin_gates {s : State} (hi : Instr.opStopBegin.wf = true) (hc : s.clk.change.isSome = true)
    (hs : s.clk.stopped = false) (hm : s.mayStop = true) :
    exec .opStopBegin s = .next { s.gateClocks false with
      clk := { (s.gateClocks false).clk with stopped := true, stopAt := s.clk.tbt.toNat } } := by
  have hn : s.clk.change.isNone = false := by rw [← Option.not_isSome, hc]; rfl
  exact yields_of_wf hi rfl (if_neg (by rw [hn, hs, hm]; decide))

theorem opStopResume_restarts {s : State} {ticks point id t0 : Nat} {c : Cmd} (hi : (Instr.opStopResume ticks).wf = true)
    (hc : s.clk.change = some (point, some id, t0)) (hs : s.clk.stopped = true) (hlo : 19600 ≤ ticks) (hhi : ticks ≤ 20000)
    (ht : s.clk.stopAt + ticks ≤ s.clk.tbt.toNat) (hcmd : s.cmd id = some c) :
    exec (.opStopResume ticks) s = .next ((s.restarted point c.point ticks).changeEnds id .ok 0) := by
  have hg : ¬ ((!s.clk.stopped || decide (ticks < 19600) || decide (20000 < ticks) || decide (s.clk.tbt.toNat < s.clk.stopAt + ticks))
      = true) := by
    rw [hs, decide_eq_false (Nat.not_lt.2 hlo), decide_eq_false (Nat.not_lt.2 hhi), decide_eq_false (Nat.not_lt.2 ht)]
    decide
  refine exec_next hi ?_
  rw [exec_opStopResume, execOpStopResume, hc]
  dsimp only
  rw [if_neg hg, Option.bind_some, hcmd]
  rfl

/-- The part in which a change of the point that waits has been given up. -/
def State.giveUp (s : State) (id : Nat) : State :=
  ({ s with clk := { s.clk with change := none } }).finish id .etimeout 0xFFFF

theorem setOpTimeout_ends {s : State} {point id t0 : Nat} (hi : Instr.setOpTimeout.wf = true)
    (hc : s.clk.change = some (point, some id, t0)) (hs : s.clk.stopped = false) (ht : t0 + 400000000 ≤ s.clk.tbt.toNat) :
    exec .setOpTimeout s = .next (s.giveUp id).resumeAll.nextChange := by
  have hg : ¬ ((s.clk.stopped || decide (s.clk.tbt.toNat < t0 + 400000000)) = true) := by
    rw [hs, decide_eq_false (Nat.not_lt.2 ht)]
    decide
  refine exec_next hi ?_
  rw [exec_setOpTimeout, execSetOpTimeout, hc]
  dsimp only
  rw [if_neg hg]
  rfl

theorem stopsChangeTheOperatingPoint : StopsChangeTheOperatingPoint := by
  intro s ticks point id t0 c
  refine ⟨fun hi hc hs hm _ => ?_, fun hi hc hs hlo hhi ht hcmd _ => ?_, fun hi hc hs ht hcmd hmute => ?_⟩
  · refine ⟨_, opStopBegin_gates hi hc hs hm, rfl, rfl, rfl, fun i h hx => ?_, fun i h => ?_, rfl⟩
    · exact (congrArg Island.clocked (s.island_gateClocks false i)).trans (Island.gate_present false h hx)
    · exact (s.island_gateClocks false i).trans (Island.gate_beyond _ false h)
  · obtain ⟨hm, hh, ch, j, hclk⟩ := (s.restarted point c.point ticks).changeEnds_facts id .ok 0
    have hx := opStopResume_restarts hi hc hs hlo hhi ht hcmd
    generalize (s.restarted point c.point ticks).changeEnds id .ok 0 = t at *
    refine ⟨t, hx, ?_, ?_, ?_, ?_, ?_, fun i h hp => ?_, ?_, hm, ?_⟩
    · rw [hclk]; rfl
    · rw [hclk]; rfl
    · rw [hclk]
      exact c.point_eq
    · rw [hclk]; rfl
    · rw [hclk]; rfl
    · have hisl : t.clk.isl = (s.gateClocks true).clk.isl := (congrArg Clocks.isl hclk).trans rfl
      have he : t.island i = (s.gateClocks true).island i := congrArg (tget Island.off · i) hisl
      rw [he, s.island_gateClocks true i]
      exact Island.gate_present true h hp
    · rw [hh]
      exact State.finish_gone _ id .ok 0
    · rw [hclk]; rfl
  · have hf : { s.giveUp id with host := s.host } = { s with clk := { s.clk with change := none } } := State.finish_host _ _ _ _
    have hgm : (s.giveUp id).hbm = s.hbm := (congrArg State.hbm hf :)
    have hgc : (s.giveUp id).clk = { s.clk with change := none } := (congrArg State.clk hf :)
    have hgone : ∀ y ∈ (s.giveUp id).host.exec, y.id ≠ id := State.finish_gone _ _ _ _
    have hcmd' : ({ s with clk := { s.clk with change := none } } : State).cmd id = some c := hcmd
    obtain ⟨y, hy, htag, -, hst, -⟩ := (State.finish_completed hcmd' .etimeout 0xFFFF).2 hmute
    obtain ⟨hm, hh, ch, j, hclk⟩ := (s.giveUp id).resumeAll_nextChange
    rw [hgc] at hclk
    refine ⟨_, setOpTimeout_ends hi hc hs ht, ?_, ?_, ?_, ⟨y, ?_, htag, hst⟩, hm.trans hgm, ?_⟩
    · rw [hclk]
    · rw [hclk]; exact hs
    · rw [hh]; exact hgone
    · rw [State.ring, hh]
      exact hy
    · rw [hclk]

end Sys2Proof.Machine
end

section
/-!
SUPPORT. Islands after an event: what has passed on an island, and what the end of slip episodes leaves (12 R351 to R356).
-/

namespace Sys2Proof.Machine

open Sys2Proof Sys2Proof.Safety Sys2Proof.Claims

/-! ### The end of slip episodes -/

/-- An island whose difference has fallen to 8 or less is in no slip episode. -/
def Clocks.endSlip (c : Clocks) (i : Nat) (x : Island) : Island :=
  if x.slipped && c.slack i ≤ 8 then { x with slipped := false } else x

theorem islandKept_refl (x : Island) : islandKept x x := rfl

theorem Clocks.endSlip_kept (c : Clocks) (i : Nat) (x : Island) : islandKept x (c.endSlip i x) := by
  unfold Clocks.endSlip
  split
  · exact islandKept_refl x
  · exact islandKept_refl x

theorem State.endSlips_isl (s : State) :
    s.endSlips.clk.isl = (s.clk.isl.map fun x => (x.1, s.clk.endSlip x.1 x.2)).filter fun x => x.2 ≠ Island.off := by
  have h : (fun (x : Nat × Island) => if x.2.slipped && s.clk.slack x.1 ≤ 8 then (x.1, { x.2 with slipped := false }) else x)
      = fun x => (x.1, s.clk.endSlip x.1 x.2) := by
    funext x
    unfold Clocks.endSlip
    split <;> rfl
  unfold State.endSlips
  rw [h]

/-- The end of slip episodes keeps every island but for its episode. -/
theorem State.endSlips_kept {s : State} (h : twf Island.off s.clk.isl = true) (j : Nat) :
    islandKept (s.island j) (s.endSlips.island j) := by
  unfold State.island
  rw [State.endSlips_isl]
  rcases tget_mapFilter s.clk.endSlip h j with e | ⟨e, e'⟩
  · rw [e]
    exact s.clk.endSlip_kept j _
  · rw [e, e']
    exact islandKept_refl _

theorem State.endSlips_rest (s : State) :
    s.endSlips.hbm = s.hbm ∧ s.endSlips.clk.tbt = s.clk.tbt ∧ s.endSlips.clk.stretch = s.clk.stretch ∧ s.endSlips.host = s.host :=
  ⟨rfl, rfl, rfl, rfl⟩

/-! ### Time on an island -/

/-- Time that passes on a C-die island: the islands themselves, HBM, the host interface and what the clocks count are as they were. -/
structure IslandTime (s u : State) : Prop where
  gated : u.gated = false
  hbm   : u.hbm = s.hbm
  host  : u.host = s.host
  clk   : ∃ n, u.clk = { s.clk with plNow := n }

theorem State.onIsland_at {s : State} {i delta d : Nat} (hg : s.gated = false) (h : islandAt s i delta d) :
    ∃ u, s.onIsland i delta = (u, d) ∧ IslandTime s u := by
  unfold State.onIsland
  rw [hg, if_neg Bool.false_ne_true]
  rcases h with ⟨hi, hd⟩ | ⟨hi, k, hk, hd⟩
  · rw [if_pos hi, ← hd]
    exact ⟨_, rfl, hg, rfl, rfl, _, rfl⟩
  · rw [if_neg hi, hk]
    dsimp only
    have hc := s.onCore_core k (fun env c => c.comeTo env delta) hg
    have hnow : ((s.onCore k fun env c => c.comeTo env delta).core k).tm.now = d := by
      rw [hc, hd]
      rfl
    rw [hnow]
    exact ⟨_, rfl, gated_onCore k _ hg, s.onCore_hbm k _ hg, s.onCore_host k _ hg, _, (s.onCore_clk k _ hg).trans rfl⟩

/-- The other islands as they were, but for slip episodes; HBM, the host interface and what the clocks count as they were. -/
def islandAlone (s t : State) (i : Nat) : Prop :=
  (∀ j, j ≠ i → islandKept (s.island j) (t.island j)) ∧ t.hbm = s.hbm ∧ t.clk.tbt = s.clk.tbt ∧ t.clk.stretch = s.clk.stretch
    ∧ t.host = s.host

/-- The part with an island changed, and the counter of independent stretches set. -/
def State.stretched (u : State) (i : Nat) (y : Island) (n : W32) : State :=
  let t := u.setIsland i y
  { t with clk := { t.clk with indepCnt := n } }

theorem State.island_stretched (u : State) (i : Nat) (y : Island) (n : W32) : (u.stretched i y n).island i = y :=
  tget_tput_self Island.off u.clk.isl i y

theorem State.island_stretched_ne (u : State) {i j : Nat} (y : Island) (n : W32) (hj : j ≠ i) :
    (u.stretched i y n).island j = u.island j :=
  tget_tput_ne Island.off u.clk.isl y hj

section
variable {s u : State} {i : Nat} (hu : IslandTime s u) (hw : twf Island.off s.clk.isl = true)
include hu

theorem IslandTime.isl : u.clk.isl = s.clk.isl := by
  obtain ⟨n, hc⟩ := hu.clk
  rw [hc]

theorem IslandTime.island (j : Nat) : u.island j = s.island j := congrArg (tget Island.off · j) hu.isl

theorem IslandTime.counts : u.clk.tbt = s.clk.tbt ∧ u.clk.stretch = s.clk.stretch ∧ u.clk.indepCnt = s.clk.indepCnt := by
  obtain ⟨n, hc⟩ := hu.clk
  rw [hc]
  exact ⟨rfl, rfl, rfl⟩

include hw

/-- An island has changed, the counter of independent stretches may have, and slip episodes have ended. -/
theorem IslandTime.changed (y : Island) (n : W32) :
    islandAlone s (u.stretched i y n).endSlips i ∧ islandKept y ((u.stretched i y n).endSlips.island i) := by
  have ht : twf Island.off (u.stretched i y n).clk.isl = true := twf_tput _ _ _ _ (by rw [hu.isl]; exact hw)
  have hk := State.endSlips_kept ht
  obtain ⟨htbt, hst, -⟩ := hu.counts
  obtain ⟨hm, ht', hs', hh⟩ := State.endSlips_rest (u.stretched i y n)
  refine ⟨⟨fun j hj => ?_, hm.trans hu.hbm, ht'.trans htbt, hs'.trans hst, hh.trans hu.host⟩, ?_⟩
  · have := hk j
    rwa [State.island_stretched_ne _ _ _ hj, hu.island j] at this
  · have := hk i
    rwa [State.island_stretched] at this

end

/-! ### Stretches -/

/-- DROOP_NOTICE of an island that is rested. -/
theorem droopNotice_stretches {s : State} {i delta d : Nat} (hf : fit (.droopNotice i delta) s = true) (ha : islandAt s i delta d)
    (hr : (s.island i).runs = true) (hd : (s.island i).rested d = true) :
    ∃ u, IslandTime s u ∧ exec (.droopNotice i delta) s = .next (u.stretched i { s.island i with
      last := some (d + 1), taken := (s.island i).taken + 1, notice := true } u.clk.indepCnt).endSlips := by
  obtain ⟨u, he, hu⟩ := State.onIsland_at (gated_of_fit hf) ha
  refine ⟨u, hu, exec_next (wf_of_fit hf) ?_⟩
  rw [exec_droopNotice, execDroopNotice, he]
  dsimp only
  rw [hu.gated, hu.island, hr, hd]
  rfl

/-- EMERGENCY_STRETCH of an island that is not rested. -/
theorem emergencyStretch_stretches {s : State} {i delta d : Nat} (hf : fit (.emergencyStretch i delta) s = true)
    (ha : islandAt s i delta d) (hr : (s.island i).runs = true) (hd : (s.island i).rested d = false)
    (hl : ∀ l, (s.island i).indep = some l → l + 4 ≤ d + 1) :
    ∃ u, IslandTime s u ∧ exec (.emergencyStretch i delta) s = .next (u.stretched i { s.island i with
      last := some (d + 1), indep := some (d + 1), taken := (s.island i).taken + 1, pend := (s.island i).pend + 1 }
      (satAdd u.clk.indepCnt 1)).endSlips := by
  obtain ⟨u, he, hu⟩ := State.onIsland_at (gated_of_fit hf) ha
  refine ⟨u, hu, exec_next (wf_of_fit hf) ?_⟩
  rw [exec_emergencyStretch, execEmergencyStretch, he]
  dsimp only
  rw [hu.gated, hu.island, hr, hd]
  cases hi : (s.island i).indep with
  | none => rfl
  | some l =>
    dsimp only
    rw [if_neg (by simpa using hl l hi)]
    rfl

/-! ### Die events -/

theorem islandKept_fields {b c : Island} (h : islandKept b c) : c.notice = b.notice ∧ c.taken = b.taken ∧ c.pend = b.pend := by
  unfold islandKept at h
  rw [← h]
  exact ⟨rfl, rfl, rfl⟩

/-- What a die event makes of an island. -/
def dieStep (a b : Island) : Prop := ∃ i now n, b = if a.runs then a.event i now n else a

theorem dieStep_facts {a b c : Island} (h : dieStep a b) (hk : islandKept b c) :
    (a.runs = true → c.notice = false) ∧ (a.runs = false → c.notice = a.notice)
      ∧ (a.runs = true → a.notice = true → c.taken = a.taken ∧ c.pend = a.pend)
      ∧ (a.runs = true → a.notice = false → a.pend ≠ 0 → c.taken = a.taken ∧ c.pend = a.pend - 1)
      ∧ (a.runs = true → a.notice = false → a.pend = 0 → c.taken = a.taken + 1 ∧ c.pend = 0)
      ∧ (a.runs = false → c.taken = a.taken ∧ c.pend = a.pend) := by
  obtain ⟨hn, ht, hp⟩ := islandKept_fields hk
  obtain ⟨i, now, n, rfl⟩ := h
  rw [hn, ht, hp]
  unfold Island.event
  refine ⟨fun h => ?_, fun h => ?_, fun h h' => ?_, fun h h' h'' => ?_, fun h h' h'' => ?_, fun h => ?_⟩
  · rw [if_pos h]
    split
    · rfl
    · next hx =>
      rw [Bool.not_eq_true] at hx
      split
      · exact hx
      · exact hx
  · rw [if_neg (by rw [h]; decide)]
  · rw [if_pos h, if_pos h']
    exact ⟨rfl, rfl⟩
  · rw [if_pos h, if_neg (by rw [h']; decide), if_pos h'']
    exact ⟨rfl, rfl⟩
  · rw [if_pos h, if_neg (by rw [h']; decide), if_neg (by rw [h'']; decide)]
    exact ⟨rfl, h''⟩
  · rw [if_neg (by rw [h]; decide)]
    exact ⟨rfl, rfl⟩

/-- A die event on one island. -/
def State.dieEventOn (n : Nat) (s : State) (i : Nat) : State :=
  let x := s.island i
  if x.runs then s.setIsland i (x.event i (s.islandNow i) n) else s

theorem State.dieEventOn_island (s : State) (n i : Nat) : dieStep (s.island i) ((s.dieEventOn n i).island i) := by
  refine ⟨i, s.islandNow i, n, ?_⟩
  unfold State.dieEventOn
  dsimp only
  split
  · exact State.island_setIsland ..
  · rfl

theorem State.dieEventOn_island_ne (s : State) (n : Nat) {i j : Nat} (h : j ≠ i) : (s.dieEventOn n i).island j = s.island j := by
  unfold State.dieEventOn
  dsimp only
  split
  · exact State.island_setIsland_ne s _ h
  · rfl

/-- A die event touches the table of islands alone, and keeps it in form. -/
theorem State.dieEventOn_writes {s : State} (n i : Nat) (h : twf Island.off s.clk.isl = true) :
    ∃ m, s.dieEventOn n i = { s with clk := { s.clk with isl := m } } ∧ twf Island.off m = true := by
  unfold State.dieEventOn
  dsimp only
  split
  · exact ⟨_, rfl, twf_tput _ _ _ _ h⟩
  · exact ⟨_, rfl, h⟩

/-- A die event that reaches `k` islands from `a` on. -/
theorem State.dieEvent_islands (n k : Nat) : ∀ (a : Nat) (s : State), twf Island.off s.clk.isl = true →
    ∃ m, (upFrom a k).foldl (State.dieEventOn n) s = { s with clk := { s.clk with isl := m } } ∧ twf Island.off m = true
      ∧ (∀ j, j < a → tget Island.off m j = s.island j)
      ∧ ∀ j, a ≤ j → j < a + k → dieStep (s.island j) (tget Island.off m j) := by
  induction k with
  | zero => exact fun a s h => ⟨s.clk.isl, rfl, h, fun _ _ => rfl, fun j hj hk => absurd hk (by omega)⟩
  | succ k ih =>
    intro a s h
    obtain ⟨m, hm, hw⟩ := State.dieEventOn_writes n a h
    have hself := s.dieEventOn_island n a
    have hne := fun j (hj : j ≠ a) => s.dieEventOn_island_ne n hj
    rw [upFrom, List.foldl_cons]
    rw [hm] at hself hne ⊢
    obtain ⟨m', hm', hw', hlt, hge⟩ := ih (a + 1) { s with clk := { s.clk with isl := m } } hw
    refine ⟨m', hm', hw', fun j hj => ?_, fun j hj hk => ?_⟩
    · exact (hlt j (by omega)).trans (hne j (by omega))
    · by_cases hja : j = a
      · subst hja
        rw [hlt j (by omega)]
        exact hself
      · have := hge j (by omega) (by omega)
        rwa [hne j hja] at this

end Sys2Proof.Machine
end

section
/-!
CLAIM PROOF. Stretches, die events and crossing slips (O29; 12 R351 to R356).
-/

namespace Sys2Proof.Machine

open Sys2Proof Sys2Proof.Safety Sys2Proof.Claims

/-! ### Die events -/

theorem State.dieEvent_eq (s : State) :
    s.dieEvent = ((upFrom 0 137).foldl (State.dieEventOn s.clk.stretch.toNat) s).endSlips := by
  unfold State.dieEvent
  generalize upFrom 0 137 = l
  rfl

/-- A die event touches the islands alone. -/
theorem State.dieEvent_facts {s : State} (h : twf Island.off s.clk.isl = true) :
    s.dieEvent.cores = s.cores ∧ s.dieEvent.hbm = s.hbm ∧ s.dieEvent.clk.tbt = s.clk.tbt ∧ s.dieEvent.clk.stretch = s.clk.stretch
      ∧ s.dieEvent.clk.plNow = s.clk.plNow
      ∧ ∀ j, j ≤ 136 → ∃ b, dieStep (s.island j) b ∧ islandKept b (s.dieEvent.island j) := by
  obtain ⟨m, hm, hw, -, hs⟩ := State.dieEvent_islands s.clk.stretch.toNat 137 0 s h
  rw [State.dieEvent_eq, hm]
  refine ⟨rfl, rfl, rfl, rfl, rfl, fun j hj => ⟨_, hs j j.zero_le (by omega), ?_⟩⟩
  exact State.endSlips_kept (s := { s with clk := { s.clk with isl := m } }) hw j

/-- An island asks for a die event. -/
theorem dieEvent_asked {s : State} {i : Nat} (hi : i ≤ 136) (hr : (s.island i).runs = true)
    (ha : (s.island i).notice = true ∨ (s.island i).pend ≠ 0) :
    s.clk.isl.any (fun x => x.1 ≤ 136 && x.2.runs && (x.2.notice || x.2.pend ≠ 0)) = true := by
  rcases tget_mem (d := Island.off) (m := s.clk.isl) (k := i) with hd | hm
  · have : s.island i = Island.off := hd
    rw [this] at hr
    exact absurd hr (by decide)
  · refine List.any_eq_true.2 ⟨_, hm, ?_⟩
    simp only [Bool.and_eq_true, Bool.or_eq_true, decide_eq_true_eq]
    exact ⟨⟨hi, hr⟩, ha⟩

theorem dieEventGrant_grants {s : State} {i delta : Nat} (hf : fit (.dieEventGrant delta) s = true) (hi : i ≤ 136)
    (hr : (s.island i).runs = true) (ha : (s.island i).notice = true ∨ (s.island i).pend ≠ 0)
    (hl : ∀ l, s.clk.plLast = some l → l + 16 ≤ s.clk.plNow + delta) :
    ∃ u, u = { s with clk := { s.clk with plNow := s.clk.plNow + delta } } ∧ exec (.dieEventGrant delta) s = .next { u.dieEvent with
      clk := { u.dieEvent.clk with stretch := u.dieEvent.clk.stretch + 1, plLast := some (s.clk.plNow + delta) } } := by
  have hasked := dieEvent_asked hi hr ha
  refine ⟨_, rfl, exec_next (wf_of_fit hf) ?_⟩
  rw [exec_dieEventGrant, execDieEventGrant, gated_of_fit hf, if_neg Bool.false_ne_true]
  dsimp only
  rw [hasked]
  cases hp : s.clk.plLast with
  | none => rfl
  | some l =>
    dsimp only
    rw [if_neg (by simpa using hl l hp)]

/-! ### Slips -/

theorem satAdd_toNat (c : W32) (k : Nat) : (satAdd c k).toNat = min (c.toNat + k) 0xFFFFFFFF := by
  unfold satAdd
  split
  · simp; omega
  · rw [BitVec.toNat_add, BitVec.toNat_ofNat]
    omega

/-- A line whose words have been replaced as it crossed. -/
def LinePkt.spoilt (p : LinePkt) (fc : Nat) : LinePkt := { p with data := freeBytes fc 0 p.data.length, poison := true }

/-- The part in which a line has slipped as it crossed. -/
def State.slippedLine (s : State) (pkt k words : Nat) (p : LinePkt) : State :=
  { s.draw with
    clk := { s.clk with slipCnt := satAdd s.clk.slipCnt words }, plane := tput none s.plane pkt (some (.line k (p.spoilt s.freeCtr))) }

/-- A slip episode of the crossing of core `c`, at island `i`, begins: SLIP is raised. -/
def State.episode (s : State) (c i : Nat) (toCore : Bool) (x : Island) : State :=
  let s := s.setIsland i { x with slipped := true }
  s.slip c 2 (if toCore then 136 else i) (if toCore then i else 136) (min 63 (s.clk.slack i)) 0 0

theorem crossingSlip_poisons {s : State} {c words pkt k : Nat} {toCore : Bool} {p : LinePkt}
    (hf : fit (.crossingSlip c toCore words [pkt]) s = true) (hs : 8 < s.clk.slack (s.phys c)) (hp : s.msg pkt = some (.line k p))
    (hc : (Msg.line k p).crosses s.fab.devId c toCore = true) :
    exec (.crossingSlip c toCore words [pkt]) s = .next
      (if (s.island (s.phys c)).slipped then s.slippedLine pkt k (max words 1) p
        else (s.slippedLine pkt k (max words 1) p).episode c (s.phys c) toCore (s.island (s.phys c))) := by
  have hhit : [pkt].filter (fun id => (s.msg id).elim false fun m => m.crosses s.fab.devId c toCore) = [pkt] :=
    List.filter_cons_of_pos (by rw [hp]; exact hc)
  have hgo : ¬ ((s.gated || decide (s.clk.slack (s.phys c) ≤ 8) || [pkt].isEmpty) = true) := by
    rw [gated_of_fit hf, decide_eq_false (Nat.not_le.2 hs)]
    exact Bool.false_ne_true
  refine exec_next (wf_of_fit hf) ?_
  rw [exec_crossingSlip, execCrossingSlip, hhit]
  dsimp only
  have hp' : ({ s with clk := { s.clk with slipCnt := satAdd s.clk.slipCnt (max words [pkt].length) } } : State).msg pkt
      = some (.line k p) := hp
  rw [if_neg hgo, List.foldl_cons, List.foldl_nil, hp']
  rfl

theorem State.slip_kept (s : State) (c kind src dst skew pc slot : Nat) :
    (s.slip c kind src dst skew pc slot).clk = s.clk ∧ ((s.slip c kind src dst skew pc slot).core c).regs = (s.core c).regs
      ∧ ((s.slip c kind src dst skew pc slot).core c).mem = (s.core c).mem := by
  unfold State.slip
  dsimp only
  generalize RawFault.mk _ _ _ _ _ _ _ _ _ = x
  have hst := State.logCore_still (s.setCore c { s.core c with rn := { (s.core c).rn with slip := true } }) c x
  rw [State.core_of_still hst, State.core_setCore]
  exact ⟨congrArg Still.clk hst, rfl, rfl⟩

/-- What the begin of a slip episode leaves alone, and what it notes. -/
theorem State.episode_facts (s : State) (c i : Nat) (toCore : Bool) (x : Island) (hm : s.fl.mutes = false) :
    SlipNotes s (s.episode c i toCore x) c ∧ (s.episode c i toCore x).clk.slipCnt = s.clk.slipCnt
      ∧ ((s.episode c i toCore x).island i).slipped = true
      ∧ ((s.episode c i toCore x).core c).regs = (s.core c).regs ∧ ((s.episode c i toCore x).core c).mem = (s.core c).mem := by
  have hisl := State.island_setIsland s i { x with slipped := true }
  have hcore := State.core_setIsland s c i { x with slipped := true }
  unfold State.episode
  dsimp only
  generalize hu : s.setIsland i { x with slipped := true } = u at *
  have hcnt : u.clk.slipCnt = s.clk.slipCnt := by rw [← hu]; rfl
  have hcores : ∀ m, u.core m = s.core m := fun m => by rw [← hu]; rfl
  have hrest : u.plane = s.plane ∧ u.hbm = s.hbm ∧ u.fl = s.fl := by rw [← hu]; exact ⟨rfl, rfl, rfl⟩
  obtain ⟨hplane, hhbm, hfl⟩ := hrest
  obtain ⟨hn, -⟩ := State.slip_notes u c 2 (if toCore then 136 else i) (if toCore then i else 136) (min 63 (u.clk.slack i)) 0 0
    (by rw [hfl]; exact hm)
  obtain ⟨hclk, hregs, hmem⟩ := State.slip_kept u c 2 (if toCore then 136 else i) (if toCore then i else 136)
    (min 63 (u.clk.slack i)) 0 0
  generalize u.slip c 2 (if toCore then 136 else i) (if toCore then i else 136) (min 63 (u.clk.slack i)) 0 0 = t at *
  refine ⟨⟨hn.plane.trans hplane, hn.hbm.trans hhbm, hn.mark, fun m hne => (hn.cores m hne).trans (hcores m), ?_⟩, ?_, ?_, ?_, ?_⟩
  · rw [← hfl]
    exact hn.log
  · rw [hclk, hcnt]
  · have : t.island i = u.island i := congrArg (fun k : Clocks => tget Island.off k.isl i) hclk
    rw [this, hisl]
  · rw [hregs, hcore]
  · rw [hmem, hcore]

theorem stretchesAndSlips : StretchesAndSlips := by
  intro s i delta d
  dsimp only
  intro hw
  refine ⟨fun hf ha hr hd => ?_, fun hf ha hr hd hl => ?_, fun hf hi hr ha hl => ?_, fun c words pkt toCore p k hf hs hp hc hm => ?_⟩
  · obtain ⟨u, hu, he⟩ := droopNotice_stretches hf ha hr hd
    obtain ⟨ho, hk⟩ := hu.changed (i := i) hw
      { s.island i with last := some (d + 1), taken := (s.island i).taken + 1, notice := true } u.clk.indepCnt
    exact ⟨_, he, ho, hk⟩
  · obtain ⟨u, hu, he⟩ := emergencyStretch_stretches hf ha hr hd hl
    obtain ⟨-, -, hcnt⟩ := hu.counts
    obtain ⟨ho, hk⟩ := hu.changed (i := i) hw
      { s.island i with
        last := some (d + 1), indep := some (d + 1), taken := (s.island i).taken + 1, pend := (s.island i).pend + 1 }
      (satAdd u.clk.indepCnt 1)
    refine ⟨_, he, ho, hk, ?_⟩
    rw [← hcnt]
    exact satAdd_one_toNat u.clk.indepCnt
  · obtain ⟨u, hu, he⟩ := dieEventGrant_grants hf hi hr ha hl
    have hwu : twf Island.off u.clk.isl = true := by rw [hu]; exact hw
    obtain ⟨hco, hhbm, htbt, hst, hpl, hisl⟩ := State.dieEvent_facts hwu
    have hue : ∀ j, u.island j = s.island j := fun j => by rw [hu]; rfl
    generalize u.dieEvent = e at *
    subst hu
    refine ⟨_, he, ?_, hpl, rfl, hco, hhbm, htbt, fun j hj => ?_⟩
    · exact congrArg (· + 1) hst
    · obtain ⟨b, hb, hk⟩ := hisl j hj
      rw [hue j] at hb
      exact dieStep_facts hb hk
  · have he := crossingSlip_poisons (words := words) hf hs hp hc
    have hmsg : (s.slippedLine pkt k (max words 1) p).msg pkt = some (.line k (p.spoilt s.freeCtr)) :=
      tget_tput_self none s.plane pkt (some (.line k (p.spoilt s.freeCtr)))
    have hcnt : (s.slippedLine pkt k (max words 1) p).clk.slipCnt.toNat = min (s.clk.slipCnt.toNat + max words 1) 0xFFFFFFFF :=
      satAdd_toNat _ _
    have hcores : ∀ m, (s.slippedLine pkt k (max words 1) p).core m = s.core m := fun _ => rfl
    have hfl : (s.slippedLine pkt k (max words 1) p).fl = s.fl := rfl
    have hcs : (s.slippedLine pkt k (max words 1) p).cores = s.cores := rfl
    generalize s.slippedLine pkt k (max words 1) p = v at *
    cases hsl : (s.island (s.phys c)).slipped with
    | true =>
      rw [hsl, if_pos rfl] at he
      exact ⟨v, he, hcnt, ⟨_, hmsg, rfl, rfl, freeBytes_length _ _ _⟩, fun m _ => hcores m, by rw [hcores], by rw [hcores],
        fun _ => ⟨hfl, hcs⟩, fun h => absurd h (by decide)⟩
    | false =>
      rw [hsl, if_neg Bool.false_ne_true] at he
      obtain ⟨hn, hc', hi', hregs, hmem⟩ := v.episode_facts c (s.phys c) toCore (s.island (s.phys c)) (by rw [hfl]; exact hm)
      refine ⟨_, he, ?_, ⟨p.spoilt s.freeCtr, ?_, rfl, rfl, freeBytes_length _ _ _⟩, fun m hne => (hn.cores m hne).trans (hcores m), ?_, ?_,
        fun h => absurd h (by decide), fun _ => ⟨hi', hn.mark, ?_⟩⟩
      · rw [hc', hcnt]
      · exact (congrArg (tget none · pkt) hn.plane).trans hmsg
      · rw [hregs, hcores]
      · rw [hmem, hcores]
      · rw [← hfl]
        exact hn.log

/-- Settles O29: islands stretch and slip, a die event reaches every one that runs, and a stop changes the operating point. -/
theorem clocksStretchSlipAndStop : Obligations.ClocksStretchSlipAndStop := ⟨stretchesAndSlips, stopsChangeTheOperatingPoint⟩

end Sys2Proof.Machine
end
